-- ==== Sys2Proof/Word.lean ====
section
/-! DEFINITION. The word types of the block: a register is 64 bits (R449, R455), memory is counted in bytes (R6). -/

namespace Sys2Proof

/-- A register, a manifest word or an 8-byte field: 64 bits, bit 0 least significant (R6). -/
abbrev Word := BitVec 64

/-- One byte of package memory. -/
abbrev Byte := BitVec 8

end Sys2Proof
end

