-- ==== Sys2Proof/Syntax.lean ====
section
/-! DEFINITION. The commands the block takes: one constructor of `Instr` for each row of spec/opcode_table.json, with
the operands its rule reads.  Physical facts that only the outside can know (whether a CRC matched, a sensor's value,
what happens in the same clock) are operands.  Numbers of units are plain `Nat`; `WellFormed` says which name a unit. -/

namespace Sys2Proof

/-- The head flit of a mesh packet with its payload (R23).  `inl` is the inline area from offset 0x040, `data` the
bytes of the data flits. -/
structure Packet where
  dest      : Nat
  src       : Nat
  vc        : Nat
  escape    : Bool
  len       : Nat
  op        : Nat
  ctx       : Nat
  gen       : Nat
  addr      : Nat
  ticket    : Word
  inlineLen : Nat
  status    : Nat
  inl       : List Byte
  data      : List Byte
  deriving DecidableEq, Repr, Inhabited

/-- What the cells and the interface do at one unit of memory, an 8-byte word of SRAM or a 64-byte sector of HBM or bulk:
the SECDED outcome (R269), the severity the HBM stack or the bulk controller reports (R284, R285, R296), the parity retries
it takes (R283) and the link-ECC corrections (R296).  As the operand of an access it says what that access meets in the unit
that holds the access's byte `off`; the error itself stays in the cells until the unit is written (R269, R506). -/
structure MemFx where
  /-- 0 no error, 1 single-bit, 2 double-bit -/
  ecc     : Nat
  /-- 0 no error, 1 corrected, 2 uncorrectable -/
  sev     : Nat
  /-- retries needed; above 3 the access fails -/
  retries : Nat
  /-- the lane that has now caused 16 parity retries within 1 ms (R282) -/
  lane    : Option Nat
  /-- link-ECC corrections of the access (R296) -/
  link    : Nat := 0
  /-- offset in the access of the byte whose unit is meant -/
  off     : Nat := 0
  /-- the cells are faulty: the error outlives a write (R269, R506) -/
  hard    : Bool := false
  deriving DecidableEq, Repr, Inhabited

/-- An access without any error. -/
def MemFx.clean : MemFx := { ecc := 0, sev := 0, retries := 0, lane := none }

/-- A manifest that has issued: its 16 decoded (patched) words (R115, R125), where it was fetched, which stream
issued it as its `seq`-th issue, and the context and tag it carries (R142, R399). -/
structure Delivered where
  words  : List Word
  addr   : Nat
  stream : Nat
  seq    : Nat
  ctx    : Nat
  gen    : Nat
  /-- the replay's parameter snapshot, for operands that are parameter references (R116) -/
  snap   : List Word
  /-- the context's enabled segment windows as they stood at the issue, in window order (R279): CTX_SEG_BASE, CTX_SEG_LIMIT and
  CTX_SEG_MAP of each -/
  wins   : List (List Word)
  deriving DecidableEq, Repr, Inhabited

/-- An object of a core's valid state (R101): a 512-byte line (by the package address of its first word, and whether its
eight words are those of a SPREAD window, R92), an accumulator tile or a user table. -/
inductive Obj where
  | line  (addr : Nat) (spread : Bool := false)
  | tile  (n : Nat)
  | table (code : Nat)
  deriving DecidableEq, Repr, Inhabited

/-- The engines that hold queues (R142); the number is the instance. -/
inductive Engine where
  | coreSeq (site : Nat)
  | weights (site : Nat)
  | copier  (site : Nat)
  | adder   (site : Nat)
  | ferry   (n : Nat)
  | landing (n : Nat)
  | mooring (stage : Nat)
  | deferral (stage : Nat)
  | pontoon (n : Nat)
  | opt     (unit : Nat)
  | ckpt
  deriving DecidableEq, Repr, Inhabited

/-- The 64-byte ferry header (R190). -/
structure FerryHdr where
  destNode   : Nat
  srcNode    : Nat
  ferry      : Nat
  landing    : Nat
  slot       : Nat
  kind       : Nat
  xferSeq    : Nat
  srcStage   : Nat
  destStage  : Nat
  ports      : Nat
  format     : Nat
  microBatch : Nat
  rank       : Nat
  version    : Nat
  rgen       : Nat
  ticket     : Word
  tensorId   : Nat
  dataBytes  : Nat
  scaleBytes : Nat
  dims       : List Nat
  deriving DecidableEq, Repr, Inhabited

/-- A veto message (R256): `down` is KIND 1. -/
structure VetoMsg where
  job      : Nat
  down     : Bool
  veto     : Bool
  mismatch : Bool
  step     : Nat
  count    : Nat
  deriving DecidableEq, Repr, Inhabited

/-- The header of a Verath flit (R342) and its 240 payload bytes. -/
structure Flit where
  type    : Nat
  vc      : Nat
  last    : Bool
  chan    : Nat
  seq     : Nat
  ack     : Nat
  ackv    : Bool
  nak     : Bool
  cvc     : Nat
  credits : Nat
  payload : List Byte
  deriving DecidableEq, Repr, Inhabited

/-- The INIT exchange (R353). -/
structure InitMsg where
  version : Nat
  node    : Nat
  serial  : Nat
  /-- receive buffer sizes of the control, request and response VC -/
  bufs    : List Nat
  window  : Nat
  role    : Nat
  port    : Nat
  deriving DecidableEq, Repr, Inhabited

/-- A target of a live change (R359): width, lane set and half rate. -/
structure LinkTarget where
  width : Nat
  lanes : Nat
  half  : Bool
  deriving DecidableEq, Repr, Inhabited

/-- What the receiver's FEC decode and CRC check find on a flit (R348, R371). -/
structure RxFx where
  crcOk     : Bool
  corrected : Nat
  uncorr    : Nat
  deriving DecidableEq, Repr, Inhabited

/-- A tide marker (R362). -/
structure TideMarker where
  tTx    : Nat
  hops   : Nat
  echoTx : Nat
  echoRx : Nat
  deriving DecidableEq, Repr, Inhabited

/-- A fault on its way to the hub (R403, R404). -/
structure FaultRep where
  ctx      : Nat
  cls      : Nat
  block    : Nat
  inst     : Nat
  addr     : Nat
  manifest : Nat
  tide     : Nat
  deriving DecidableEq, Repr, Inhabited

/-- Who writes a register (R459). -/
inductive Source where
  | hart   (n : Nat)
  | pcie   (port : Nat)
  | mgmt
  | stream (n : Nat)
  deriving DecidableEq, Repr, Inhabited

/-- What makes the tide unit lose its source (R162). -/
inductive TideLoss where
  | noFrame3ms
  | clkAbsent
  | noMarker3ms
  deriving DecidableEq, Repr, Inhabited

/-- A monitor that samples (R429). -/
inductive Monitor where
  | tdie (site idx : Nat)
  | sdie (site idx : Nat)
  | process (site idx : Nat)
  | vin
  | iin
  | pin
  | tin
  | tout
  | flow
  | bulk (ctl : Nat)
  deriving DecidableEq, Repr, Inhabited

/-- What a wake event is (R442). -/
inductive Wake where
  | bollardSignal | ferryHeader | msgArrival | grantRequest | registerWrite (block : Nat) | waitDeadline | msi
  deriving DecidableEq, Repr, Inhabited

/-- Where a loss of power cuts a collection of the persistent log, if one runs (R485): during the copy, once the victim is marked,
once it is erased. -/
inductive LogCut where
  | none | copy | mark | erase
  deriving DecidableEq, Repr, Inhabited

/-- The tests of a die in stand-alone test mode (R480). -/
inductive TestKind where
  | scan | logicBist | memoryBist | loopBack
  deriving DecidableEq, Repr, Inhabited

/-- A stand-alone test that the die chains run: the die's number on its chain, the test, and for a loop-back the wire groups that fail,
as (mesh edge node × 4 + direction, group) (R479, R480). -/
structure DieTest where
  die   : Nat
  kind  : TestKind
  fails : List (Nat × Nat)
  deriving DecidableEq, Repr, Inhabited

/-- Facts that the boot steps meet outside the block's own memory (R469). -/
structure BootFacts where
  /-- a fuse row fails to sense consistently (R473) -/
  fuseBad  : Bool
  /-- HBM or bulk training fails (step 5) -/
  trainBad : Bool
  /-- the flash cannot be read (step 3) -/
  flashBad : Bool
  /-- HOSTMODE pin: high or open selects attached (R493) -/
  attached : Bool
  /-- HBM data lanes that training finds failing, as (stack, lane) (R282) -/
  badLanes : List (Nat × Nat) := []
  /-- SMBADDR[2:0], sampled at step 2 (R496) -/
  smbAddr  : Nat := 0
  deriving DecidableEq, Repr, Inhabited

/-- A command: one constructor per row of the table of operations and events. An operand with a default names what may come with the
command (another one in the same clock, a second detail); its default is the command alone. -/
inductive Instr where
  -- mesh (R22 to R42)
  | meshHop (node : Nat) (p : Packet) (crcOk : Bool)
  | meshRead (p : Packet) (fx : MemFx)
  | meshWrite (p : Packet) (fx : MemFx)
  | meshAdd (p : Packet) (fx : MemFx) (same : List Packet := [])
  | meshSignal (p : Packet)
  | meshResp (p : Packet)
  | meshCtrl (p : Packet)
  | checkFlit (node dir : Nat) (badWires : List Nat)
  | steerDone (node dir : Nat)
  -- pilots (R113 to R155)
  | manifestDecode (stream : Nat)
  | manifestIssue (stream : Nat)
  | manifestRetire (stream : Nat)
  | bollardPoll (stream slot : Nat)
  | groupDeliver (site : Nat) (d : Delivered) (late : Bool)
  | engineTake (e : Engine)
  -- manifests, as their engines execute them (R118); `ue` lists the 64-byte sectors whose read is uncorrectable (R285)
  | nop (d : Delivered)
  | matmul (core : Nat) (d : Delivered)
  | wprefetch (site : Nat) (d : Delivered) (ue : List Nat)
  | requant (core : Nat) (d : Delivered)
  | vec (core : Nat) (d : Delivered)
  | vred (core : Nat) (d : Delivered)
  | func (core : Nat) (d : Delivered)
  | tload (core : Nat) (d : Delivered)
  | copy (core : Nat) (d : Delivered)
  | move (d : Delivered) (ue : List Nat)
  | madd (d : Delivered) (ue : List Nat)
  | fsend (d : Delivered)
  | forwardFsend (d : Delivered)
  | ltake (d : Delivered)
  | lfree (d : Delivered)
  | mget (d : Delivered)
  | mput (d : Delivered)
  | dpush (d : Delivered)
  | dpushDrain (d : Delivered)
  | pput (d : Delivered) (ue : List Nat) (same : Bool := false)
  | ptake (d : Delivered)
  | ostepPrepare (d : Delivered) (ue : List Nat)
  | ostepCommit (d : Delivered)
  | commitRelease (unit : Nat)
  | ostepPublish (d : Delivered)
  | ckptSnapshot (d : Delivered)
  | ckptExport (d : Delivered)
  | ckptRestore (d : Delivered)
  | pset (d : Delivered) (hostSame : Bool)
  | subring (d : Delivered)
  | subringRecompute (d : Delivered)
  | sctrlStart (d : Delivered)
  | sctrlStop (d : Delivered)
  | sctrlCancel (d : Delivered) (readySame : Bool)
  | stamp (d : Delivered)
  | phaseMark (d : Delivered)
  -- the core's timing state (R90 to R112); `late` counts the clocks a manifest comes after its issue clock (R98), `word` is the
  -- word of the object and `offset` the timeline clocks from its manifest's issue to the read or the retirement
  | coreIssue (core : Nat) (d : Delivered) (late : Nat := 0)
  | coreRead (core stream seq : Nat) (o : Obj) (word operand window offset : Nat) (fx : MemFx)
  | tileLoad (core : Nat) (firstLine lines : Nat)
  | stagingLineLands (core line : Nat)
  | coreWriteRetire (core : Nat) (stream seq : Nat) (o : Obj) (last : Bool) (word : Nat := 0) (window : Nat := 0) (offset : Nat := 0)
  | coreManifestRetire (core : Nat) (actual held : Nat)
  | winStep (core mask : Nat)
  | winHeadWrite (core w : Nat) (v : Word) (stepSame : Bool)
  -- streams and bollards
  | strStart (stream : Nat)
  | strStop (stream : Nat)
  | strCancel (stream : Nat) (readySame : Bool)
  | strResume (stream : Nat)
  | strRewind (stream : Nat)
  | strTailWrite (stream : Nat) (v : Word)
  | paramWrite (stream idx : Nat) (v : Word) (snapSame : Bool)
  | bollardWrite (bollard : Nat) (v : Word) (signalSame : Option (Nat × Nat))
  | deadlineTimeout (stream : Nat) (waitSame : Bool) (doneSame : List Nat := [])
  | notBeforeRelease (stream : Nat)
  -- tide, crossings, tolls (R156 to R183)
  | stagedXingApply
  | crossingBoundary
  | tideEpochFrame (sync value crc : Nat)
  | tideQualifyDone
  | tideSourceLoss (why : TideLoss)
  | tidXingWrite (base : Bool) (v : Word)
  | tolWrite (page off : Nat) (v : Word)
  -- ferries, landings, moorings, deferral (R184 to R235)
  | ferryTransferStart (ferry : Nat) (ue : List Nat)
  | ferrySendComplete (ferry : Nat)
  | ferryEnable (ferry : Nat)
  | ferryDisable (ferry : Nat)
  | ferryFlush (ferry : Nat)
  | creditReturn (ferry slot : Nat)
  | landingHeader (port : Nat) (h : FerryHdr)
  | landingPayload (landing slot : Nat) (port pos : Nat) (bytes : List Byte)
  | landingEntryReady (landing slot : Nat)
  | landingDrain (landing : Nat)
  | mooringPublish (mooring : Nat)
  | mooringHostRelease (mooring : Nat)
  | bubbleFill (stage : Nat) (arrivalSame : Bool)
  -- pontoons and the step veto (R236 to R265)
  | pontoonGrant (pontoon : Nat)
  | pontoonReset (pontoon : Nat)
  | vetoClose (ch step : Nat)
  | vetoUpSend (ch : Nat)
  | vetoUpReceive (port : Nat) (m : VetoMsg)
  | vetoDownSend (ch : Nat)
  | vetoDownReceive (port : Nat) (m : VetoMsg)
  | vetoDeadline (ch : Nat)
  | vetoCmdCommit (ch : Nat)
  | vetoCmdDiscard (ch : Nat)
  -- memory (R266 to R306)
  | bankStateRequest (site reg : Nat) (v : Word)
  | bankTransitionDone (site bank : Nat)
  | patrolScrub (site : Nat) (eccs : List Nat) (writtenSince : Bool)
  | secureWipeDone
  | hbmRetireWrite (stack : Nat) (v : Word)
  | hbmRetireCommit (stack : Nat)
  | hbmTempRead (stack : Nat) (temp : Int)
  | hbmEcsLogRead (stack corrected : Nat)
  | hbmOffline (stack : Nat) (off : Bool)
  | hbmMarginRun (stack : Nat) (v : Word)
  | hbmMarginDone (stack : Nat)
  | blkOffline (ctl : Nat) (off : Bool)
  | blkMarginRun (ctl : Nat) (v : Word)
  | blkMarginDone (ctl : Nat)
  | blkScrub (ctl : Nat) (sev : Nat) (writtenSince : Bool)
  | partitionEnable (part : Nat) (v : Word)
  -- the checkpoint engine (R321 to R337)
  | ckpStart
  | ckpAbort
  | directorySweepDone (dirty : List (Nat × List Byte))
  | ckpRelease
  | chunkSaved
  | heldWriteProceed
  | ckpDone
  | stageMoverCopy (units : Nat) (pcieError : Bool)
  | ckpStageIdxWrite (v : Word)
  -- Verath links (R338 to R373)
  | portEnable (port : Nat)
  | portDisable (port : Nat)
  | portReconfig (port : Nat)
  | portRetrain (port : Nat)
  | initReceive (port : Nat) (m : InitMsg)
  | pauseReceive (port : Nat) (t : LinkTarget)
  | retrainDone (port : Nat)
  | resumeReceive (port lastSeq : Nat)
  | laneLockLoss (port lane : Nat)
  | lockReturn (port lanes : Nat)
  | portDownTimeout (port : Nat) (lockSame : Bool)
  | flitReceive (port : Nat) (f : Flit) (fx : RxFx)
  | nakRepeatTimeout (port : Nat)
  | replayTimeout (port : Nat)
  | ackHoldExpire (port : Nat)
  | creditReport (port vc : Nat)
  | transitForward (port chan idx : Nat) (h : FerryHdr)
  | abortReceive (srcNode ferry xferSeq : Nat)
  | tideMarkerSend (port : Nat)
  | tideMarkerReceive (port : Nat) (m : TideMarker) (t4 : Nat) (crcOk : Bool)
  | censusStart
  | probe (port epoch : Nat)
  | decline (port epoch : Nat)
  | record (port epoch : Nat) (bytes : List Byte)
  | done (port epoch n : Nat) (direct changeSame : Bool)
  | change (port epoch : Nat)
  | censusTimeout (resultSame : Bool)
  -- processor dies and coherence (R374 to R397)
  | ownershipRequest (line : Nat) (requesters : List Nat) (wb : Option (Nat × List Byte)) (evict : Option (Nat × List Byte))
  | writeback (core line : Nat) (data : List Byte) (ecc : Nat := 0)
  | forwardReceive (core line : Nat)
  | accelCoherentAccess (addr : Nat) (write : Option (List Byte)) (bytes : Nat) (snoop : List Byte)
  | hostBar2Access (port offset : Nat) (write : Option (List Byte)) (bytes : Nat) (fx : MemFx)
  | cpxFlush (die : Nat)
  | cpxFlushDone (die : Nat) (dirty : List (Nat × List Byte))
  | cpxFreqChange (die : Nat) (v : Word)
  -- contexts, faults, resets (R398 to R428)
  | ctxArm (ctx : Nat)
  | ctxTeardown (ctx : Nat)
  | ctxKeyWrite (ctx : Nat) (hi : Bool) (v : Word)
  | faultReport (reps : List FaultRep)
  | teardownStop (ctx : Nat) (readySame : List Nat := [])
  | teardownDrain (ctx : Nat)
  | teardownClear (ctx : Nat)
  | teardownReport (ctx : Nat)
  | computeReset (code : Nat)
  | dumpDone
  | dumpTimeout
  | computeResetDone
  | moduleReset (code : Nat) (same : List Nat := [])
  | rstUnmap (v : Word)
  | rstOosAck (v : Word)
  | ageTick
  | ageLogWrite
  -- power (R429 to R448)
  | monitorSample (m : Monitor) (value : Int)
  | droopEvent (site mv : Nat)
  | protectiveTrip (code : Nat)
  | protectiveRelease
  | energyCharge
  | controllerUpdate
  | ballastUpdate
  | quietEntry (wakeSame : Bool)
  | powerEntryDone
  | wakeEvent (w : Wake)
  | powerExitDone
  | pwrWakeWrite (v : Word)
  -- registers (R449 to R468)
  | registerWrite (addr : Nat) (v : Word) (src : Source) (same : List (Word × Source) := [])
  | rcRead (addr : Nat) (incSame : Nat) (src : Source)
  | pgEventClear (block inst : Nat) (v : Word) (setSame : Word)
  | pgClampedClear (block inst : Nat) (v : Word) (clampSame : Option Nat)
  | pgQuiesce (block inst : Nat) (v : Word)
  | pgResume (block inst : Nat)
  | pciRetrain (port : Nat)
  | pciHotReset (port : Nat)
  | pcieLinkChange (port : Nat) (up : Bool) (speed width : Nat) (flit : Bool) (ce : Nat := 0) (ue : Nat := 0)
  | pcieFundamentalReset
  -- bring-up, security, log, pins (R469 to R496)
  | powerOnSequence (f : BootFacts)
  | fwupStart
  | fwupDone (verified : Bool)
  | lcsGo (v : Word)
  | lcsBurnDone (rows : Nat)
  | tamperEvent (sources : Nat)
  | fusProgDebugLock
  | fusProgRollbackSet
  | fusProgKeyHash (keySel : Nat)
  | fusProgDone (verified : Bool)
  | logRecordCommit (type key : Nat) (body : List Byte)
  | logGc
  | logExport
  | logExportDone
  | tapDieSelect (test : Option DieTest := none)
  | tapBackdoor (addr : Nat) (write : Option Word)
  | modResetNLow (ns : Nat)
  | modResetNRelease
  | mctpMessage (sensor : Nat) (inst : Nat) (addr : Nat := 0x60)
  | linkTrainingDone (port : Nat)
  | flitTransmission (port : Nat)
  | powerLoss (cut : LogCut := .none)
  | lidClose
  | notBeforeExit (stream : Nat)
  | refreshManagementRequest (stack : Nat)
  deriving DecidableEq, Repr

end Sys2Proof
end

