-- ==== Sys2Proof/Machine/State.lean ====
section
/-! DEFINITION. The state of the module as plain data.  Every register of the register map (R449, R450) lives in
`regs`, keyed by its offset in register space; what the spec gives a unit beside its registers (queues, stores, FIFOs,
entry states, fuses, the persistent log) is a typed record.  A map from numbers is a sorted list of pairs that lists
only what differs from the entry's reset value (`Machine/Sparse.lean`). -/

namespace Sys2Proof.Machine

/-- A map from numbers, listing only the entries that differ from their reset value. -/
abbrev Sparse (α : Type) := List (Nat × α)

/-- The block answers every command with a next state, so it has no fault: what the spec calls a fault (R403) is an
effect on the state.  Nobody raises it. -/
inductive Fault where
  deriving DecidableEq, Repr

/-- Why a command is refused. -/
inductive Refusal where
  /-- Raised by `exec`'s arm of a command that has no meaning yet.  Safe: no state follows. -/
  | notModelled (mnemonic : String)
  deriving DecidableEq, Repr

/-! ### Streams and bollards (chapter 04) -/

/-- Stream states (R131), in code order. -/
inductive StreamSt where
  | idle | running | waiting | held | timeout | stopped | done | faulted
  deriving DecidableEq, Repr, Inhabited

/-- A manifest list being walked in place of its SUBRING, or for a deferral entry (R119, R216): the addresses still to be
decoded, the windows its pushing manifest issued with (R279), what its manifests take over, whether only those flagged
RECOMPUTE issue (R223), and how many decoded ones of it stand in the store. -/
structure ListWalk where
  addrs  : List Nat
  wins   : List (List Word)
  snap   : List Word
  idx    : Nat
  replay : Nat
  /-- 1 a subring list, 3 a deferral list -/
  place  : Nat
  only   : Bool
  ahead  : Nat
  deriving DecidableEq, Repr, Inhabited

/-- A decoded manifest in the pilot's store (R128): its words after patching, its address, ring index and replay, the
snapshot it was patched from, and what kind of place it has in its stream. -/
structure Decoded where
  words  : List Word
  addr   : Nat
  idx    : Nat
  replay : Nat
  snap   : List Word
  /-- 0 a ring entry, 1 an entry of a subring list, 2 its last, 3 an entry of a deferral list, 4 its last -/
  place  : Nat
  /-- its fetch failed (R285) -/
  lost   : Bool
  deriving DecidableEq, Repr, Inhabited

/-- An issued manifest that has not retired: completion and status bits (R133). -/
structure Issued where
  d        : Delivered
  idx      : Nat
  replay   : Nat
  place    : Nat
  complete : Bool
  /-- STATUS of R133: 1 LATE, 2 TIMEOUT, 4 BADOP, 8 ERR, 16 POISON -/
  status   : Nat
  /-- executes as NOP (R144) -/
  asNop    : Bool
  /-- cores on which a core-executed manifest has not retired -/
  cores    : List Nat
  /-- tide of its issue, as its site reads it (R118, R225) -/
  tide     : Nat
  /-- it latched STR_BADOP (R143, R507) -/
  latched  : Bool
  deriving DecidableEq, Repr, Inhabited

/-- What a head keeps while a bubble fill runs ahead of it (R217). -/
structure Parked where
  met        : Nat
  headErr    : Bool
  headLate   : Bool
  dlIgnored  : Bool
  dlRaised   : Bool
  nbReleased : Bool
  deriving DecidableEq, Repr, Inhabited

/-- What a stream holds beside its registers. -/
structure Stream where
  st         : StreamSt
  issueIdx   : Nat
  retireIdx  : Nat
  replay     : Nat
  /-- next ring index to decode, and the replay it belongs to -/
  decIdx     : Nat
  decReplay  : Nat
  store      : List Decoded
  /-- snapshots taken (R125), by replay number -/
  snaps      : List (Nat × List Word)
  params     : List Word
  strides    : List Word
  /-- the head's enabled waits have been registered (R134) -/
  registered : Bool
  /-- bit i: WAIT i of the head is met -/
  met        : Nat
  /-- the wait was met by an ERROR ticket (R138) -/
  headErr    : Bool
  headLate   : Bool
  /-- RESUME: the deadline is ignored (R131) -/
  dlIgnored  : Bool
  /-- the completion timeout of the head has been raised (R149) -/
  dlRaised   : Bool
  nbReleased : Bool
  /-- the head's waits that were met: slot, when its time in WAITING began, and when it was met -/
  metAt      : List (Nat × Nat × Nat)
  gateReg    : Bool
  gateMet    : Bool
  /-- a STOP or CANCEL is still taking effect (R132) -/
  stopping   : Bool
  cancelling : Bool
  issued     : List Issued
  nextSeq    : Nat
  retired    : Nat
  lastRetire : Nat
  crecIdx    : Nat
  /-- tide at which the head's wait in WAITING began (R217, R226) -/
  waitSince  : Nat
  /-- ring manifests wait for a SUBRING or DPUSH to be walked (R119, R219) -/
  walking    : Bool
  parked     : Option Parked
  /-- the lists being walked, innermost first -/
  lists      : List ListWalk
  deriving DecidableEq, Repr, Inhabited

/-- A registered wait (R134, R137): `slot` 0–3 is a head's wait, 4 the gate, 8–11 a wait of a parked head. -/
structure Waiter where
  bollard : Nat
  target  : Nat
  stream  : Nat
  slot    : Nat
  poll    : Bool
  /-- of a poll: its target has been reached, by an ERROR ticket, in its deadline's tick (R137, R138, R177) -/
  hit     : Bool
  err     : Bool
  late    : Bool
  deriving DecidableEq, Repr, Inhabited

/-- A bollard (R134, R154). -/
structure Bollard where
  count : BitVec 32
  owner : Nat
  err   : Bool
  deriving DecidableEq, Repr, Inhabited

/-- An engine's queue (R142): the entries in arrival order, the contexts it has served with the most recent last, and
the entry in hand. -/
structure EngineQ where
  entries : List Delivered
  served  : List Nat
  cur     : Option Delivered
  deriving DecidableEq, Repr, Inhabited

/-- A site's pilot: group manifests sent but not delivered (R141), and the site's core issue sequence, oldest first, as
far as its cores have not retired it (R98, R130). -/
structure Pilot where
  group : List Delivered
  seq   : List Delivered
  /-- stream that last took a store entry (R128) -/
  last  : Nat
  deriving DecidableEq, Repr, Inhabited

/-! ### The tensor core (chapters 02 and 03) -/

/-- An accumulator tile (R59, R85): exponent, poison mark, saturation count and the nonzero A48 values by
row × 128 + column. -/
structure Tile where
  texp   : Int
  poison : Bool
  sat    : Nat
  cells  : Sparse Int
  deriving DecidableEq, Repr, Inhabited

/-- Valid state of one object (R101), its last-issued writer and whether that writer issued while VALID was 1. -/
structure ObjSt where
  valid     : Bool
  clobbered : Bool
  poisoned  : Bool
  readers   : Nat
  writer    : Option (Nat × Nat)
  wasValid  : Bool
  deriving DecidableEq, Repr, Inhabited

/-- A manifest in flight on a core (R100): its footprint, the objects it read early, and the window registers it
keeps until it retires (R93), as (BASE, LEN, STRIDE, HEAD) words of windows 0–7. -/
structure Inflight where
  d        : Delivered
  reads    : List Obj
  writes   : List Obj
  tainted  : List Obj
  /-- the state before the issue of the objects it also writes (R505) -/
  before   : List (Obj × ObjSt)
  windows  : List (List Word)
  /-- timeline clock of the issue -/
  issueClk : Nat
  /-- a FUNC's table was built in or resident when it issued (R89, R143) -/
  tableOk  : Bool
  /-- array tiles of its weights that the array has run (R84) -/
  done     : Nat
  deriving DecidableEq, Repr, Inhabited

/-- A resident user table (R72): the clamped image. -/
structure UTable where
  xb   : Int
  sw   : Nat
  ce   : Int
  off  : Nat
  coef : List Int
  deriving DecidableEq, Repr, Inhabited

/-- A weight staging line (R86): mantissas, whether a poisoned block lies in its tile (R213), and the stream and issue
number of the WPREFETCH that named it. -/
structure SLine where
  bytes  : List Byte
  poison : Bool
  stream : Nat
  seq    : Nat
  deriving DecidableEq, Repr, Inhabited

/-- An access of a core that waits for a port or for a window's change of direction, holding the timeline (R92, R95, R99): the
word it accesses, the cause (2 BANK, 3 PORT) and the hold clocks still owed. -/
structure CoreWait where
  stream : Nat
  seq    : Nat
  obj    : Obj
  word   : Nat
  write  : Bool
  cause  : Nat
  owed   : Nat
  deriving DecidableEq, Repr, Inhabited

/-- One tensor core.  Its real clock is the timeline clock plus the hold clocks so far. -/
structure Core where
  tiles    : Sparse Tile
  objs     : Sparse ObjSt
  inflight : List Inflight
  tables   : Sparse UTable
  /-- staging lines still to land, in the order their manifests named them (R86) -/
  toStage  : List SLine
  /-- landed staging lines by line number (fill bit set) -/
  staging  : Sparse SLine
  /-- the lines of the shadow weight tile, and of the active one until the array has run it (R82) -/
  shadow   : List SLine
  active   : List SLine
  /-- the staging line that a tile load waits for, and how many lines it still reads (R87) -/
  awaiting : Option (Nat × Nat)
  /-- cause of the hold in effect: 0 none, 1 WEIGHT, 2 BANK, 3 PORT, 4 ISSUE -/
  hold     : Nat
  /-- the access that a BANK or PORT hold waits for -/
  waiting  : Option CoreWait
  /-- latest timeline clock known, hold clocks so far, and the timeline clock of the last access with the hold clocks before it -/
  timeline : Nat
  held     : Nat
  clk      : Nat × Nat
  /-- issue clock of the last manifest, and the issue-delay clocks of the next (R98, R100) -/
  lastIssue : Option Nat
  delay    : Nat
  /-- real clock from which a bank's read and write port are free (R92) -/
  rport    : Sparse Nat
  wport    : Sparse Nat
  /-- real clock after a window's last use, by 2 × window + (1 for writes) (R95) -/
  uses     : Sparse Nat
  /-- a ballast burst is running (R437) -/
  ballast  : Bool
  deriving DecidableEq, Repr, Inhabited

/-! ### The mesh (chapter 01) -/

/-- One direction of an edge at a node: wires that failed the last check flit, wires marked failed, groups steered
onto their spare, and whether it is steering now (R30, R31). -/
structure EdgeDir where
  lastBad  : List Nat
  failed   : List Nat
  steered  : List Nat
  steering : Bool
  deriving DecidableEq, Repr, Inhabited

/-! ### Pipeline objects (chapter 06) -/

inductive FerrySt where
  | disabled | idle | sending | creditWait | tollWait | routeDown
  deriving DecidableEq, Repr, Inhabited

/-- A transfer in a ferry's queue. -/
structure Xfer where
  d       : Delivered
  hdr     : FerryHdr
  payload : List Byte
  errTick : Bool
  started : Bool
  /-- its WRITE packets on a mesh route -/
  packets : List Packet
  deriving DecidableEq, Repr, Inhabited

structure Ferry where
  st      : FerrySt
  queue   : List Xfer
  credits : List Nat
  xferSeq : Nat
  deriving DecidableEq, Repr, Inhabited

inductive EntrySt where
  | free | filling | ready | taken
  deriving DecidableEq, Repr, Inhabited

/-- A landing entry (R198): `placed` lists the payload flits that landed, `order` when it became READY and `view`
the view it was taken through. -/
structure LEntry where
  st      : EntrySt
  hdr     : FerryHdr
  err     : Bool
  placed  : List Nat
  order   : Nat
  view    : Nat
  /-- port of the first arrival; 48 on a mesh route -/
  port    : Nat
  /-- ports on which a copy of the header has arrived -/
  feeds   : List Nat
  /-- position of the entry among the headers its landing accepted -/
  serial  : Nat
  /-- the transfer of a FILLING entry has failed: 1 it stopped (R202), 2 it is larger than the slot (R199); 0 neither -/
  fail    : Nat
  /-- the 64 bytes of its handle, written when it becomes READY (R200) -/
  handle  : List Byte
  deriving DecidableEq, Repr, Inhabited

structure Landing where
  entries : Sparse LEntry
  clock   : Nat
  lastFwd : Nat
  lastBwd : Nat
  /-- transfers whose first header copy has arrived, as (sending node, ferry, XFER_SEQ), with the ports of their copies so far -/
  seen    : List ((Nat × Nat × Nat) × List Nat)
  deriving DecidableEq, Repr, Inhabited

structure Mooring where
  count : Nat
  live  : Bool
  deriving DecidableEq, Repr, Inhabited

/-- A deferral entry (R216). -/
structure DefEntry where
  list  : Nat
  count : Nat
  mb    : Nat
  snap  : List Word
  /-- the windows the DPUSH issued with (R279) -/
  wins  : List (List Word)
  deriving DecidableEq, Repr, Inhabited

/-- A deferral entry being run: its FLAGS (1 FILL, 2 FORCED, 4 DRAIN, 8 ERR), when its first manifest issued, and the entry that
its DPUSH enqueues when it has run (R219, R226). -/
structure DefRun where
  entry : DefEntry
  flags : Nat
  start : Option Nat
  push  : Option DefEntry
  deriving DecidableEq, Repr, Inhabited

/-- An open phase (R225): its number, micro-batch, start, INFO, and whether a manifest of it has retired with ERR. -/
structure OpenPhase where
  phase : Nat
  mb    : Nat
  start : Nat
  info  : Nat
  err   : Bool
  deriving DecidableEq, Repr, Inhabited

/-- A stage's deferral queue and phase timer: `runs` the entries being walked, innermost first. -/
structure Stage where
  queue    : List DefEntry
  runs     : List DefRun
  draining : Bool
  openPh   : List OpenPhase
  phtIdx   : Nat
  deriving DecidableEq, Repr, Inhabited

/-! ### Pontoons and the veto (chapter 07) -/

structure PEntry where
  round   : Nat
  applied : List Nat
  err     : Bool
  poison  : Bool
  /-- dense shape of the entry's contributions: DIM0–3 -/
  dims    : List Nat
  deriving DecidableEq, Repr, Inhabited

structure Pontoon where
  next     : Nat
  /-- entries that are not FREE, by entry number -/
  entries  : Sparse PEntry
  /-- PPUTs that asked for a grant, in arrival order, each with the sectors whose read is uncorrectable and the number of the clock it
  arrived in (R239) -/
  waiting  : List (Delivered × List Nat × Nat)
  /-- PPUTs granted and not yet applied -/
  granted  : List (Delivered × List Nat)
  msgs     : List (List Byte)
  lastTake : Nat
  deriving DecidableEq, Repr, Inhabited

inductive VetoSt where
  | opened | closed | clear | veto | held
  deriving DecidableEq, Repr, Inhabited

structure Veto where
  st         : VetoSt
  step       : Nat
  everClosed : Bool
  contrib    : Bool
  /-- children's UPs for the current step: port, VETO, COUNT -/
  ups        : List (Nat × Bool × Nat)
  /-- UPs kept for the next step: port and message -/
  kept       : List (Nat × VetoMsg)
  /-- the UP of the step has been sent, or the root has decided it (R257) -/
  upSent     : Bool
  /-- DOWNs to forward, oldest first: STEP, VETO, COUNT_MISMATCH, COUNT -/
  down       : List (Nat × Bool × Bool × Nat)
  deadline   : Nat
  late       : Bool
  lateResult : Bool
  lateVeto   : Bool
  afterClose : Bool
  mismatch   : Bool
  deriving DecidableEq, Repr, Inhabited

/-! ### Memory units (chapter 08) -/

inductive BankSt where
  | on | retention | off
  deriving DecidableEq, Repr, Inhabited

/-- An SRAM bank: current state, transition in progress, pending request (R266, R267). -/
structure Bank where
  st      : BankSt
  going   : Option BankSt
  pending : Option BankSt
  deriving DecidableEq, Repr, Inhabited

/-- An HBM stack: its retirement table (entry ↦ HBM_RETIRE word), its request queue, the temperature, the thermal
level acted on (0 normal, 1 at T_HI, 2 at 95 °C), a fall to act on at the next boundary, the refresh rate, the share
factor in effect as a fraction, CRITICAL entered and CRITICAL in effect on the shares (R286, R287, R289). -/
structure Stack where
  table    : Sparse Word
  req      : List Nat
  temp     : Int
  level    : Nat
  fall     : Bool
  refresh  : Nat
  fracNum  : Nat
  fracDen  : Nat
  crit     : Bool
  critical : Bool
  /-- lanes marked for repair at the next training (R282) -/
  marked   : List Nat
  deriving DecidableEq, Repr, Inhabited

/-! ### Checkpoint engine (chapter 09) -/

inductive CkpSt where
  | idle | quiesced | background | done | error | restoring
  deriving DecidableEq, Repr, Inhabited

/-- A region entry of a checkpoint list (R321). -/
structure Region where
  addr : Nat
  len  : Nat
  kind : Nat
  deriving DecidableEq, Repr, Inhabited

/-- A chunk: region index, chunk index, address, bytes, and 0 UNSAVED, 1 READING, 2 SAVED. -/
structure Chunk where
  region : Nat
  index  : Nat
  addr   : Nat
  len    : Nat
  st     : Nat
  deriving DecidableEq, Repr, Inhabited

/-- A write held by a save-ahead (R324): address and bytes; for an add, its format, operation and the address of the
scale byte, which then stands last in `data`; for an ownership request (R326), the requesters; the ticket of a WRITE
packet (R138); and the PCIe port of a posted write (R383). -/
structure HeldWrite where
  addr   : Nat
  data   : List Byte
  add    : Option (Nat × Nat × Nat)
  own    : List Nat
  ticket : Word
  host   : Option Nat
  deriving DecidableEq, Repr, Inhabited

structure Ckpt where
  st       : CkpSt
  reason   : Nat
  mode     : Nat
  mask     : Nat
  regions  : List Region
  chunks   : List Chunk
  /-- chunk numbers to take next, ahead of list order -/
  ahead    : List Nat
  held     : List HeldWrite
  sweeping : Bool
  t0       : Nat
  /-- T0 has passed and the container's head is written -/
  headDone : Bool
  frames   : Nat
  /-- every byte of the container so far, for its CRC -/
  written  : List Byte
  /-- output not yet in the staging ring -/
  outq     : List Byte
  closing  : Bool
  /-- 64-byte units the mover has copied -/
  moved    : Nat
  /-- container bytes taken from the ring in a restore and not yet used, and the part expected next: 0 header, 1 region
  entries, 2 records, 3 frames, 4 trailer, 5 none -/
  inq      : List Byte
  /-- sectors that the copier still has to move through its meters for the chunk, record or frame in hand -/
  due      : Option (List Nat)
  /-- entries of an export list still to be written (R332) -/
  exports  : List (List Byte)
  part     : Nat
  /-- records or frames still to come in the part -/
  todo     : Nat
  /-- records announced by the header -/
  records  : Nat
  log      : Nat
  starter  : Option Delivered
  deriving DecidableEq, Repr, Inhabited

/-! ### Verath links (chapter 10) -/

inductive PortSt where
  | disabled | training | up | paused | down
  deriving DecidableEq, Repr, Inhabited

/-- A transfer forwarded on a port (R366): its transit channel, the port and channel it arrives on, its header, and
whether its LAST flit is queued. -/
structure Transit where
  chan   : Nat
  inPort : Nat
  inChan : Nat
  hdr    : FerryHdr
  closed : Bool
  deriving DecidableEq, Repr, Inhabited

structure Port where
  st        : PortSt
  initSent  : Bool
  initGot   : Option InitMsg
  v1        : Bool
  width     : Nat
  lanes     : Nat
  half      : Bool
  lock      : Nat
  overruled : Bool
  pauseSent : Bool
  target    : LinkTarget
  resumeSent : Bool
  resumeGot : Bool
  txNext    : Nat
  /-- next SEQ to send, as a replay or as a new flit (R350) -/
  txPos     : Nat
  acked     : Nat
  rxExpect  : Nat
  /-- unacknowledged flits, oldest first -/
  replay    : List Flit
  /-- flits waiting for their first transmission -/
  txQueue   : List Flit
  /-- credits held per VC, and the CREDITS value last seen per VC -/
  credits   : List Nat
  lastSeen  : List Nat
  /-- freed receive slots per VC, and the count last reported per VC -/
  freed     : List Nat
  reported  : List Nat
  cvc       : Nat
  nakSent   : Bool
  ackDue    : Bool
  sinceAck  : Nat
  /-- tide up to which a stall in progress has been counted -/
  stalled   : Option Nat
  /-- transfers that hold a transit channel of this port -/
  transit   : List Transit
  /-- T_TX of the last marker received and the local tide at its arrival -/
  echoTx    : Nat
  echoRx    : Nat
  /-- valid marker run (R158) and marker pairs until the round trip is measured again (R363) -/
  markers   : Nat
  remeasure : Nat
  deriving DecidableEq, Repr, Inhabited

inductive CensusSt where
  | idle | running | done | failed
  deriving DecidableEq, Repr, Inhabited

structure Census where
  st       : CensusSt
  epoch    : Nat
  root     : Bool
  parent   : Nat
  waiting  : List Nat
  total    : Nat
  restarts : Nat
  count    : Nat
  slots    : Nat
  doneSent : Bool
  deriving DecidableEq, Repr, Inhabited

/-! ### Coherence (chapter 11) -/

inductive LineSt where
  | modified | owned | exclusive | shared | invalid
  deriving DecidableEq, Repr, Inhabited

/-- A directory entry: state, the requester that holds the line, sharers, and the forwards still to be received as
(from, to), oldest first (R388 to R390). -/
structure Line where
  st      : LineSt
  owner   : Nat
  sharers : List Nat
  fwd     : List (Nat × Nat)
  deriving DecidableEq, Repr, Inhabited

/-! ### Contexts and resets (chapter 12) -/

inductive CtxSt where
  | free | armed | tearing | torn
  deriving DecidableEq, Repr, Inhabited

structure Ctx where
  st        : CtxSt
  gen       : Nat
  stagedLo  : Word
  stagedHi  : Word
  keySet    : Bool
  keyLo     : Word
  keyHi     : Word
  /-- 0 not tearing; 1 notified, 2 stopped, 3 drained, 4 cleared -/
  phase     : Nat
  tearTide  : Nat
  tornTide  : Nat
  retired   : Nat
  lastRetire : Nat
  errecIdx  : Nat
  deriving DecidableEq, Repr, Inhabited

/-- A compute reset in progress: sites, cause code, trigger tide, and whether the dump is running. -/
structure CompReset where
  sites   : Nat
  code    : Nat
  tide    : Nat
  dumping : Bool
  scrub   : Bool
  /-- sectors of the dump that a regulator still holds (R171) -/
  due     : Option (List Nat)
  deriving DecidableEq, Repr, Inhabited

/-- Why the module, or the whole of it, is held in reset. -/
inductive Hold where
  | unpowered | pinLow | bootFailed (code : Nat) | protective (code : Nat) | outOfService | lidOpen
  deriving DecidableEq, Repr, Inhabited

structure Resets where
  /-- compute resets as (age, site) and module resets by age -/
  siteHist : List (Nat × Nat)
  modHist  : List Nat
  unmap    : List Nat
  /-- sites out of service and why: 1 escalation, 2 FAILED edge -/
  mapped   : Sparse Nat
  oos      : Bool
  age      : Nat
  current  : Option CompReset
  powerCycled : Bool
  deriving DecidableEq, Repr, Inhabited

/-! ### Power (chapter 13) -/

inductive PowerSt where
  | active | idle | nap | deep
  deriving DecidableEq, Repr, Inhabited

structure Power where
  st         : PowerSt
  target     : PowerSt
  transition : Bool
  started    : Bool
  pmPrev     : Int
  pdPrev     : Int
  floor      : Int
  floorUntil : Nat
  frac       : Nat
  thermcap   : Int
  tgt        : Int
  pm         : Int
  pb         : Int
  predTj     : Int
  /-- sums of MON_PIN and of ballast power since the last update, and samples -/
  pinSum     : Int
  balSum     : Int
  samples    : Nat
  heldAny    : Bool
  /-- the fraction that the controller has staged for the next boundary (R434) -/
  fracStaged : Option Nat
  ballast    : Nat
  balEnergy  : Nat
  /-- energy of each class in pJ not yet charged -/
  classPj    : Sparse Nat
  sitePj     : Sparse Nat
  /-- a bank state written during NAP or DEEP, taken at exit (R444): key site × 256 + bank -/
  bankAtExit : Sparse Nat
  deriving DecidableEq, Repr, Inhabited

/-! ### Bring-up, security and the log (chapter 15) -/

/-- A record of the persistent log (R482). -/
structure LogRec where
  type : Nat
  key  : Nat
  seq  : Nat
  body : List Byte
  crcOk : Bool
  deriving DecidableEq, Repr, Inhabited

inductive BlockSt where
  | free | opened | complete | obsolete
  deriving DecidableEq, Repr, Inhabited

structure LogBlock where
  st     : BlockSt
  seq    : Nat
  erases : Nat
  recs   : List LogRec
  deriving DecidableEq, Repr, Inhabited

structure Log where
  blocks  : Sparse LogBlock
  opened  : Nat
  seq     : Nat
  mapSeq  : Nat
  /-- the map agrees with the block headers -/
  mapOk   : Bool
  /-- erased blocks whose erase count was lost with their header (R485) -/
  lost    : List Nat
  ready   : Bool
  scanned : Bool
  exporting : Bool
  deriving DecidableEq, Repr, Inhabited

/-- The fuses (R473, R477, R488): burnt life-cycle rows as (bit, row), DEBUG_LOCK, rollback minimum and key hashes. -/
structure Fuses where
  rows     : List (Nat × Nat)
  debugLock : Bool
  rollback : Nat
  /-- hash of key 1 development, 2 production, 3 return -/
  hashes   : Sparse (List Byte)
  serial   : Nat
  stepping : Nat
  good     : Nat
  deriving DecidableEq, Repr, Inhabited

structure Boot where
  step     : Nat
  image    : Nat
  fallback : Bool
  version  : Nat
  rollback : Nat
  fwup     : Nat
  fwReason : Nat
  fwTarget : Nat
  /-- life-cycle transition in progress and its target -/
  lcsBusy  : Option Nat
  lcsResult : Nat
  nonce    : Nat
  /-- fuse programming in progress: 1 lock, 2 rollback, 3 key hash, with the value or key and the hash -/
  prog     : Option (Nat × Nat × List Byte)
  progResult : Nat
  lifecycle : Nat
  /-- a tamper's module reset waits for the wipe, and for the fuse row being burnt (R476, R478) -/
  tamperReset : Bool
  /-- 0 other, 1 DIE_SELECT, 2 BACKDOOR, 3 BYPASS -/
  tap      : Nat
  /-- the last stand-alone test of a die while the module is held in reset (R480) -/
  dieTest  : Option DieTest
  deriving DecidableEq, Repr, Inhabited

structure Pins where
  modReady   : Bool
  modFaultN  : Bool
  thermtripN : Bool
  resetLow   : Bool
  attached   : Bool
  lidOpen    : Bool
  /-- SMBADDR[2:0] as step 2 of the last reset sampled it (R496) -/
  smbAddr    : Nat
  deriving DecidableEq, Repr, Inhabited

/-! ### Tide (chapter 05) -/

inductive TideSt where
  | slack | qualify | ref | upstream
  deriving DecidableEq, Repr, Inhabited

structure Tide where
  count   : Nat
  /-- the count's value before its last change: a tide value above it and not above the count has been reached in this tick -/
  before  : Nat
  st      : TideSt
  /-- state to return to when a qualification fails, and the candidate: true TIDE_IN -/
  prev    : TideSt
  cand    : Bool
  hops    : Nat
  upHops  : Nat
  /-- consecutive valid frames -/
  frames  : Nat
  offset  : Int
  /-- offset of the last TIDE_IN frame and of the last upstream marker -/
  inOff   : Int
  upOff   : Int
  slew    : Int
  /-- ticks since the last slewed tick -/
  slewAt  : Nat
  linkDelay : Nat
  /-- crossing settings in effect -/
  len     : Nat
  base    : Nat
  /-- settings are staged -/
  stagedLen  : Bool
  stagedBase : Bool
  /-- tide of the last boundary handled -/
  lastBoundary : Nat
  deriving DecidableEq, Repr, Inhabited

/-- A trace buffer (R423, R428): records oldest first, the next index and whether it has wrapped. -/
structure Trace where
  recs    : List (List Word)
  widx    : Nat
  wrapped : Bool
  deriving DecidableEq, Repr, Inhabited

/-! ### What leaves the block -/

/-- Something the module sends: an MSI (R387), a Verath message (R345) or flit, a PCIe completer abort (R385), an MCTP
answer (R496), a PCIe hot reset (R466). -/
inductive Out where
  | msi (block inst : Nat) (host : Bool) (hart eiid : Nat)
  | msg (port kind dest : Nat) (body : List Nat)
  | flit (port : Nat) (f : Flit)
  | link (port : Nat) (what : String) (body : List Nat)
  | ctrl (node : Nat) (what : String) (body : List Nat)
  | abort (port : Nat)
  | mctp (body : List Nat)
  | hotReset (port : Nat)
  | hwError (addr : Nat)
  deriving DecidableEq, Repr

/-- A unit-state record of a container (R322, R330): the page it belongs to, the page's registers by offset, and the
units' own state by number. -/
structure UnitRec where
  block    : Nat
  inst     : Nat
  regs     : List (Nat × Word)
  streams  : List (Nat × Stream)
  bollards : List (Nat × Bollard)
  landings : List (Nat × Landing)
  moorings : List (Nat × Mooring)
  stages   : List (Nat × Stage)
  pontoons : List (Nat × Pontoon)
  ferries  : List (Nat × Ferry)
  vetoes   : List (Nat × Veto)
  keys     : List (Nat × Word × Word)
  deriving DecidableEq, Repr, Inhabited

/-- A job of the management core's firmware that moves memory: the token of LCS_CMD, the staged image of a firmware update, the key hash
of FUS_PROG, an export of the log (R472, R475, R488, R489). -/
inductive FwJob where
  | token (cmd : Word)
  | image
  | hash (keySel : Nat)
  | exportLog
  deriving DecidableEq, Repr

/-- An access by firmware, a processor die, a host or the test port that waits at a router or regulator (R168, R171, R383): of a register or
secure word with the increments that fall in a read's clock, through BAR2, through the back door, of a line that requesters ask for,
of a line that a core writes back, or of a job of the firmware. -/
inductive BusAcc where
  | word (src : Source) (addr : Nat) (write : Option Word) (inc : Nat)
  | host (port addr : Nat) (write : Option (List Byte)) (bytes : Nat) (fx : MemFx)
  | tap (addr : Nat) (write : Option Word)
  | own (line : Nat) (reqs : List Nat) (wb evict : Option (Nat × List Byte))
  | wback (core line : Nat) (data : List Byte)
  | job (j : FwJob)
  deriving DecidableEq, Repr

/-- The whole machine. -/
structure State where
  /-- commands waiting, first in first out -/
  pending   : List Instr
  /-- every register, by offset in register space -/
  regs      : Sparse Word
  mem       : List Host.Cell
  /-- units of memory whose access does not go clean, by the address of their cells: an SRAM word or an HBM or bulk sector
  (R269, R284, R285, R296) -/
  cells     : Sparse MemFx
  streams   : Sparse Stream
  waiters   : List Waiter
  bollards  : Sparse Bollard
  pilots    : Sparse Pilot
  engines   : Sparse EngineQ
  cores     : Sparse Core
  edges     : Sparse EdgeDir
  /-- packets in the mesh, each at the node it has reached -/
  net       : List (Nat × Packet)
  /-- responses delivered to their requesters -/
  resps     : List Packet
  ferries   : Sparse Ferry
  landings  : Sparse Landing
  moorings  : Sparse Mooring
  stages    : Sparse Stage
  pontoons  : Sparse Pontoon
  vetoes    : Sparse Veto
  banks     : Sparse Bank
  scrubPos  : Sparse Nat
  hbms      : Sparse Stack
  /-- delay and reference offsets of a lane under margining (R298), as DELAY and VREF codes, by interface × 2048 + lane;
  the interface is a stack's number, or 24 + a bulk controller's -/
  margins   : Sparse (Nat × Nat)
  /-- charges of the crossing so far, by class × 8192 + resource × 1024 + instance; an HBM instance is
  partition × 32 + stack (R293) -/
  spent     : Sparse Int
  /-- sectors of operations in progress that wait at a regulator (R171, R293) -/
  owed      : List (Delivered × List Nat)
  /-- tolls in effect, by class × 8 + resource -/
  tolls     : Sparse Nat
  /-- TOL_THROTTLE fractions in effect, (ISSUE, ENERGY) -/
  throttle  : Nat × Nat
  /-- classes whose TOL_CFG.EXEMPT was set when the crossing began, as a mask (R170, R174) -/
  exempt    : Nat
  /-- writes of records that a regulator keeps queued (R171): context (64 for none), class, address and bytes -/
  queued    : List (Nat × Nat × Nat × List Byte)
  /-- accesses of firmware, hosts and processor dies whose class a meter holds, oldest first (R168, R171, R377) -/
  busQ      : List BusAcc
  tide      : Tide
  /-- squared gradient norms by context, and held COMMITs by unit × 64 + context -/
  gnorm     : Sparse Nat
  optHeld   : Sparse Delivered
  ckpt      : Ckpt
  ports     : Sparse Port
  census    : Census
  /-- BASE_GIB and LIMIT_GIB of the coherent window in effect (R379) -/
  cohwin    : Nat × Nat
  lines     : Sparse Line
  /-- the four directory slices' pointers -/
  slices    : Sparse Nat
  flushing  : List Nat
  ctxs      : Sparse Ctx
  /-- fault reports on their way to the hub -/
  reports   : List FaultRep
  resets    : Resets
  hold      : Option Hold
  power     : Power
  traces    : Sparse Trace
  log       : Log
  fuses     : Fuses
  /-- flash image regions, erased bytes unlisted -/
  flash     : Sparse Byte
  boot      : Boot
  pins      : Pins
  wiping    : Bool
  /-- accesses of the management core to the secure region that a wipe holds (R274): address, and the word of a write -/
  secHeld   : List (Nat × Option Word)
  /-- pending interrupt identities as a mask, by 9 × hart + file: 0 machine, 1 supervisor, 2–8 guests (R386, R387) -/
  imsic     : Sparse Nat
  /-- levels of the APLIC's wired sources (R386), as a mask: bits 0 and 1 the PCIe ports' legacy interrupts in self-hosted mode,
  bit 2 the management core's doorbell.  No command of the table drives them (log entry 154). -/
  aplic     : Nat
  out       : List Out
  /-- the model's own: how many free values have been drawn -/
  free      : Nat
  deriving DecidableEq, Repr

/-! ### Reset values of the records -/

/-- Sixteen zero words. -/
def zeros16 : List Word := List.replicate 16 0

def Stream.reset : Stream :=
  { st := .idle, issueIdx := 0, retireIdx := 0, replay := 0, decIdx := 0, decReplay := 0, store := [], snaps := [],
    params := zeros16, strides := zeros16, registered := false, met := 0, headErr := false, headLate := false,
    dlIgnored := false, dlRaised := false, nbReleased := false, metAt := [], gateReg := false, gateMet := false, stopping := false,
    cancelling := false, issued := [], nextSeq := 0, retired := 0, lastRetire := 0, crecIdx := 0, waitSince := 0,
    walking := false, parked := none, lists := [] }

def Bollard.reset : Bollard := { count := 0, owner := 0, err := false }
def EngineQ.reset : EngineQ := { entries := [], served := [], cur := none }
def Pilot.reset : Pilot := { group := [], seq := [], last := 0 }
def Tile.reset : Tile := { texp := 0, poison := false, sat := 0, cells := [] }

/-- R101: at reset every object is VALID with all other state clear. -/
def ObjSt.reset : ObjSt :=
  { valid := true, clobbered := false, poisoned := false, readers := 0, writer := none, wasValid := true }

def Core.reset : Core :=
  { tiles := [], objs := [], inflight := [], tables := [], toStage := [], staging := [], shadow := [], active := [],
    awaiting := none, hold := 0, waiting := none, timeline := 0, held := 0, clk := (0, 0), lastIssue := none, delay := 0,
    rport := [], wport := [], uses := [], ballast := false }

def EdgeDir.reset : EdgeDir := { lastBad := [], failed := [], steered := [], steering := false }
def Ferry.reset : Ferry := { st := .disabled, queue := [], credits := [], xferSeq := 0 }

def FerryHdr.zero : FerryHdr :=
  { destNode := 0, srcNode := 0, ferry := 0, landing := 0, slot := 0, kind := 0, xferSeq := 0, srcStage := 0,
    destStage := 0, ports := 0, format := 0, microBatch := 0, rank := 0, version := 0, rgen := 0, ticket := 0,
    tensorId := 0, dataBytes := 0, scaleBytes := 0, dims := [] }

def LEntry.reset : LEntry :=
  { st := .free, hdr := FerryHdr.zero, err := false, placed := [], order := 0, view := 0, port := 0, feeds := [], serial := 0,
    fail := 0, handle := [] }

def Landing.reset : Landing := { entries := [], clock := 0, lastFwd := 0, lastBwd := 0, seen := [] }
def Mooring.reset : Mooring := { count := 0, live := false }
def Stage.reset : Stage := { queue := [], runs := [], draining := false, openPh := [], phtIdx := 0 }
def PEntry.reset : PEntry := { round := 0, applied := [], err := false, poison := false, dims := [] }
def Pontoon.reset : Pontoon := { next := 0, entries := [], waiting := [], granted := [], msgs := [], lastTake := 0 }

def Veto.reset : Veto :=
  { st := .opened, step := 0, everClosed := false, contrib := false, ups := [], kept := [], upSent := false,
    down := [], deadline := 0, late := false, lateResult := false, lateVeto := false, afterClose := false,
    mismatch := false }

def Bank.reset : Bank := { st := .on, going := none, pending := none }

def Stack.reset : Stack :=
  { table := [], req := [], temp := 0, level := 0, fall := false, refresh := 0, fracNum := 1, fracDen := 1,
    crit := false, critical := false, marked := [] }

def Ckpt.reset : Ckpt :=
  { st := .idle, reason := 0, mode := 0, mask := 0, regions := [], chunks := [], ahead := [], held := [],
    sweeping := false, t0 := 0, headDone := false, frames := 0, written := [], outq := [], closing := false, moved := 0,
    inq := [], due := none, exports := [], part := 0, todo := 0, records := 0, log := 4, starter := none }

def LinkTarget.reset : LinkTarget := { width := 8, lanes := 0xFF, half := false }

def Port.reset : Port :=
  { st := .disabled, initSent := false, initGot := none, v1 := false, width := 8, lanes := 0xFF, half := false,
    lock := 0, overruled := false, pauseSent := false, target := LinkTarget.reset, resumeSent := false,
    resumeGot := false, txNext := 0, txPos := 0, acked := 0, rxExpect := 0, replay := [], txQueue := [],
    credits := [0, 0, 0], lastSeen := [0, 0, 0], freed := [0, 0, 0], reported := [0, 0, 0], cvc := 0, nakSent := false,
    ackDue := false, sinceAck := 0, stalled := none, transit := [], echoTx := 0, echoRx := 0, markers := 0,
    remeasure := 0 }

def Census.reset : Census :=
  { st := .idle, epoch := 0, root := false, parent := 0, waiting := [], total := 0, restarts := 0, count := 0,
    slots := 0, doneSent := false }

def Line.reset : Line := { st := .invalid, owner := 0, sharers := [], fwd := [] }

def Ctx.reset : Ctx :=
  { st := .free, gen := 0, stagedLo := 0, stagedHi := 0, keySet := false, keyLo := 0, keyHi := 0, phase := 0,
    tearTide := 0, tornTide := 0, retired := 0, lastRetire := 0, errecIdx := 0 }

def Resets.reset : Resets :=
  { siteHist := [], modHist := [], unmap := [], mapped := [], oos := false, age := 0, current := none,
    powerCycled := true }

def Power.reset : Power :=
  { st := .active, target := .active, transition := false, started := false, pmPrev := 0, pdPrev := 0, floor := 0,
    floorUntil := 0, frac := 256, thermcap := 15000, tgt := 0, pm := 0, pb := 0, predTj := 0, pinSum := 0,
    balSum := 0, samples := 0, heldAny := false, fracStaged := none, ballast := 0, balEnergy := 0, classPj := [], sitePj := [],
    bankAtExit := [] }

def Trace.reset : Trace := { recs := [], widx := 0, wrapped := false }
def LogBlock.reset : LogBlock := { st := .free, seq := 0, erases := 0, recs := [] }

/-- A log that has never been written: every record block FREE (DESIGN CHOICE, log entry 5). -/
def Log.reset : Log :=
  { blocks := [], opened := 0, seq := 0, mapSeq := 0, mapOk := true, lost := [], ready := false, scanned := false,
    exporting := false }

/-- The fuses of the module as delivered: every site good, stepping B0, serial number 0, life cycle BLANK (DESIGN
CHOICE, log entry 6: the spec says "fuses"). -/
def Fuses.reset : Fuses :=
  { rows := [], debugLock := false, rollback := 0, hashes := [], serial := 0, stepping := 0x10,
    good := 0xFFFF_FFE7_E7FF_FFFF }

def Boot.reset : Boot :=
  { step := 1, image := 0, fallback := false, version := 0, rollback := 0, fwup := 0, fwReason := 0, fwTarget := 0,
    lcsBusy := none, lcsResult := 0, nonce := 0, prog := none, progResult := 0, lifecycle := 0, tamperReset := false,
    tap := 0, dieTest := none }

def Pins.reset : Pins :=
  { modReady := false, modFaultN := true, thermtripN := true, resetLow := false, attached := false,
    lidOpen := false, smbAddr := 0 }

def Tide.reset : Tide :=
  { count := 0, before := 0, st := .slack, prev := .slack, cand := false, hops := 511, upHops := 511, frames := 0, offset := 0,
    inOff := 0, upOff := 0, slew := 0, slewAt := 0, linkDelay := 0, len := 50, base := 0, stagedLen := false, stagedBase := false,
    lastBoundary := 0 }

/-- The machine right after reset: every register at its reset value (`regs` lists nothing), no command waiting, the
boot sequence at step 1. -/
def State.reset : State :=
  { pending := [], regs := [], mem := [], cells := [], streams := [], waiters := [], bollards := [], pilots := [], engines := [],
    cores := [], edges := [], net := [], resps := [], ferries := [], landings := [], moorings := [], stages := [],
    pontoons := [], vetoes := [], banks := [], scrubPos := [], hbms := [], margins := [], spent := [], owed := [], tolls := [],
    throttle := (256, 256), exempt := 0xC000_0000_0000_0000, queued := [], busQ := [], tide := Tide.reset, gnorm := [],
    optHeld := [], ckpt := Ckpt.reset, ports := [], census := Census.reset, cohwin := (0, 256), lines := [], slices := [], flushing := [], ctxs := [], reports := [],
    resets := Resets.reset, hold := none, power := Power.reset, traces := [], log := Log.reset, fuses := Fuses.reset,
    flash := [], boot := Boot.reset, pins := Pins.reset, wiping := false, secHeld := [], imsic := [], aplic := 0, out := [], free := 0 }

end Sys2Proof.Machine
end

