-- ==== Sys2Proof/Machine/Sparse.lean ====
section
/-! DEFINITION. Reading and writing a sparse map: a list of (number, entry) pairs, numbers strictly rising, that lists
no entry equal to the reset entry `d k` of its number.  Memory (`Host.Cell` pairs) is one such map. -/

namespace Sys2Proof.Machine

variable {α : Type}

/-- The entry at `k`: the listed one, or the reset entry. -/
def Sparse.get (d : Nat → α) : Sparse α → Nat → α
  | [], k => d k
  | (k', v) :: m, k => if k' = k then v else Sparse.get d m k

/-- Drop every entry at `k`. -/
def Sparse.erase : Sparse α → Nat → Sparse α
  | [], _ => []
  | (k', v) :: m, k => if k' = k then Sparse.erase m k else (k', v) :: Sparse.erase m k

/-- List `v` at `k`, in order. -/
def Sparse.insert : Sparse α → Nat → α → Sparse α
  | [], k, v => [(k, v)]
  | (k', v') :: m, k, v =>
    if k' = k then (k, v) :: m
    else if k < k' then (k, v) :: (k', v') :: m
    else (k', v') :: Sparse.insert m k v

/-- Set the entry at `k`; the reset entry is not listed. -/
def Sparse.put [DecidableEq α] (d : Nat → α) (m : Sparse α) (k : Nat) (v : α) : Sparse α :=
  if v = d k then Sparse.erase m k else Sparse.insert m k v

/-- The canonical form: numbers strictly above `lo` and rising, no reset entry listed. -/
def Sparse.wfFrom [DecidableEq α] (d : Nat → α) : Option Nat → Sparse α → Bool
  | _, [] => true
  | lo, (k, v) :: m =>
    (match lo with | none => true | some l => decide (l < k)) && decide (v ≠ d k) && Sparse.wfFrom d (some k) m

/-- The map is in canonical form. -/
def Sparse.wf [DecidableEq α] (d : Nat → α) (m : Sparse α) : Bool := Sparse.wfFrom d none m

end Sys2Proof.Machine
end

