-- ==== Sys2Proof/Machine/Fields.lean ====
section
/-! DEFINITION. Bit fields, two's complement and byte order (R6, R7): the helpers every family uses. -/

namespace Sys2Proof.Machine

/-- Bits [lo + width − 1 : lo] of a word. -/
def bits (w : Word) (lo width : Nat) : Nat := w.toNat / 2 ^ lo % 2 ^ width

/-- One bit of a word. -/
def bit (w : Word) (i : Nat) : Bool := bits w i 1 == 1

/-- Replace bits [lo + width − 1 : lo] by the low bits of `v`. -/
def setBits (w : Word) (lo width v : Nat) : Word :=
  let n := w.toNat
  BitVec.ofNat 64 (n - n / 2 ^ lo % 2 ^ width * 2 ^ lo + v % 2 ^ width * 2 ^ lo)

/-- Read an unsigned `width`-bit value as two's complement. -/
def signed (width v : Nat) : Int :=
  if 2 ^ (width - 1) ≤ v % 2 ^ width then (v % 2 ^ width : Nat) - (2 ^ width : Nat) else (v % 2 ^ width : Nat)

/-- The two's complement code of an integer in `width` bits. -/
def code (width : Nat) (v : Int) : Nat := (v % (2 ^ width : Nat)).toNat

/-- `a` counts as at or after `b` among wrapping `n`-bit sequence values (R10). -/
def atOrAfter (n a b : Nat) : Bool := decide (0 ≤ signed n ((a + 2 ^ n - b % 2 ^ n) % 2 ^ n))

/-- The little-endian value of a byte list. -/
def leNat : List Byte → Nat
  | [] => 0
  | b :: bs => b.toNat + 256 * leNat bs

/-- `n` little-endian bytes of a value. -/
def leBytes : Nat → Nat → List Byte
  | 0, _ => []
  | n + 1, v => BitVec.ofNat 8 v :: leBytes n (v / 256)

/-- Round up to a multiple of `n`. -/
def roundUp (v n : Nat) : Nat := (v + n - 1) / n * n

/-- Ceiling division. -/
def ceilDiv (a b : Nat) : Nat := (a + b - 1) / b

/-- The numbers of the set bits of `v` below `n`, ascending. -/
def setBitsOf (v n : Nat) : List Nat := (List.range n).filter fun i => v / 2 ^ i % 2 == 1

/-- The mask with the bits of a list set. -/
def maskOf (l : List Nat) : Nat := l.foldl (fun m i => if m / 2 ^ i % 2 == 1 then m else m + 2 ^ i) 0

/-- Element `i` of a list of numbers, 0 beyond its end. -/
def nth (l : List Nat) (i : Nat) : Nat := l.getD i 0

/-- Replace element `i` of a list. -/
def setNth {α : Type} : List α → Nat → α → List α
  | [], _, _ => []
  | _ :: l, 0, v => v :: l
  | x :: l, i + 1, v => x :: setNth l i v

/-- Clamp a number into [lo, hi] (R461). -/
def clampNat (lo hi v : Nat) : Nat := if v < lo then lo else if hi < v then hi else v

/-- Clamp an integer into [lo, hi]. -/
def clampInt (lo hi v : Int) : Int := if v < lo then lo else if hi < v then hi else v

/-- Counters are 48 bits and saturate (R419). -/
def satMax : Nat := 2 ^ 48 - 1

end Sys2Proof.Machine
end

