-- ==== Sys2Proof/Machine/Arith.lean ====
section
/-! DEFINITION. Scaled-integer arithmetic (chapter 02): formats, poison, rounding, the rounding hash, accumulation,
requantisation, scale-aligned addition and the vector lanes.  Values are exact integers, narrowed where the rule says. -/

namespace Sys2Proof.Machine

/-! ### Formats (R43 to R47, R121) -/

/-- Element width in bits of a FORMAT code: S4, S8, S16, S32, plain i32. -/
def fmtBits (fmt : Nat) : Nat := match fmt with | 0 => 4 | 1 => 8 | 2 => 16 | _ => 32

/-- Largest mantissa of a FORMAT code. -/
def mmax (fmt : Nat) : Nat := match fmt with | 0 => 7 | 1 => 127 | 2 => 32767 | _ => 2 ^ 31 - 1

/-- Read a mantissa code: the most negative code of an S format reads as the negative of the largest value (R43). -/
def readMant (fmt v : Nat) : Int :=
  let m := signed (fmtBits fmt) v
  if fmt < 4 ∧ m < -(mmax fmt : Int) then -(mmax fmt : Int) else m

/-- The plain two's complement value of a mantissa code, as IADD takes it (R237). -/
def plainMant (fmt v : Nat) : Int := signed (fmtBits fmt) v

/-- A block: scale exponent and mantissas; E = −128 marks poison (R45, R47). -/
structure Block where
  e : Int
  m : List Int
  deriving DecidableEq, Repr, Inhabited

def Block.poisoned (b : Block) : Bool := b.e == -128

/-- A poisoned block has scale code −128 and mantissas zero (R49). -/
def Block.poison (n : Nat) : Block := ⟨-128, List.replicate n 0⟩

def Block.allZero (b : Block) : Bool := b.m.all (· == 0)

/-! ### Rounding (R52 to R57) -/

/-- Round to nearest, ties to even (R52). -/
def rneShift (v : Int) (s : Int) : Int :=
  if s ≤ 0 then v * 2 ^ (-s).toNat
  else
    let p : Int := 2 ^ s.toNat
    let q := v / p
    let rem := v - q * p
    let half := p / 2
    if half < rem ∨ (rem = half ∧ q % 2 = 1) then q + 1 else q

/-- Stochastic rounding with the hash output `h` (R53). -/
def srShift (v : Int) (d : Int) (h : Nat) : Int :=
  if d ≤ 0 then v * 2 ^ (-d).toNat
  else
    let r : Nat := if d ≤ 64 then h % 2 ^ d.toNat else h * 2 ^ (d.toNat - 64)
    (v + r) / 2 ^ d.toNat

def hashMul : BitVec 64 := 0x0000_0100_0010_0001#64

/-- One round of the rounding hash (R54). -/
def rhashRound (k0 k1 : BitVec 64) (x : BitVec 64) (i : Nat) : BitVec 64 :=
  let x := x ^^^ (if i % 2 = 0 then k0 else k1)
  let x := x ^^^ BitVec.ofNat 64 (i + 1)
  let x := x * hashMul
  let x := x <<< 28 ||| x >>> 36
  x ^^^ x >>> 32

/-- The rounding hash (R54). -/
def rhash (k0 k1 ctr : BitVec 64) : BitVec 64 := (List.range 4).foldl (rhashRound k0 k1) ctr

/-- The rounding counter of an element (R55).  R56 lets no tensor have an element index of 2^32 or more; the index of one that
has is taken modulo 2^32 (DESIGN CHOICE, log entry 133). -/
def roundCtr (step tid elem : Nat) : BitVec 64 :=
  BitVec.ofNat 64 (step % 2 ^ 20 * 2 ^ 44 + tid % 2 ^ 12 * 2 ^ 32 + elem % 2 ^ 32)

/-- The hash output of an element under a context's key (R55). -/
def roundHash (k0 k1 : BitVec 64) (step tid elem : Nat) : Nat :=
  let k1e := k1 ^^^ BitVec.ofNat 64 (step / 2 ^ 20 * 2 ^ 32) ^^^ BitVec.ofNat 64 (tid / 2 ^ 12)
  (rhash k0 k1e (roundCtr step tid elem)).toNat

/-! ### Accumulation (R58 to R63) -/

/-- Headroom constant H = 47 − W of a format (R58). -/
def headroom (fmt : Nat) : Int := match fmt with | 0 => 36 | 1 => 28 | _ => 12

/-- ⌈log₂ n⌉. -/
def clog2 (n : Nat) : Nat := if n ≤ 1 then 0 else Nat.log2 (n - 1) + 1

/-- The tile exponent (R59). -/
def tileExp (fmt : Nat) (es : List Int) (trim : Nat) : Int :=
  match es with
  | [] => 0
  | e :: rest => rest.foldl max e - headroom fmt + clog2 es.length - trim

def a48max : Int := 2 ^ 47 - 1

/-- One clamped addition into an A48 accumulator: value and whether it clamped (R60, R61). -/
def a48Add (acc p : Int) (t e : Int) : Int × Bool :=
  let v := acc + rneShift p (t - e)
  if a48max < v then (a48max, true) else if v < -a48max then (-a48max, true) else (v, false)

/-- Add partial sums in reduction order; the result and the number of clamps. -/
def accumulate (acc : Int) (t : Int) (terms : List (Int × Int)) : Int × Nat :=
  terms.foldl (fun r pe => let a := a48Add r.1 pe.1 t pe.2; (a.1, if a.2 then r.2 + 1 else r.2)) (acc, 0)

/-! ### Requantisation (R64 to R66) -/

def maxAbs (vs : List Int) : Nat := vs.foldl (fun m v => max m v.natAbs) 0

/-- mx ≤ M × 2^d. -/
def fits (mx m : Nat) (d : Int) : Bool :=
  if d < 0 then decide (mx * 2 ^ (-d).toNat ≤ m) else decide (mx ≤ m * 2 ^ d.toNat)

/-- The smallest integer d with mx ≤ M × 2^d, for mx above 0 (R64). -/
def requantShift (mx m : Nat) : Int :=
  let d : Int := (Nat.log2 mx : Int) - Nat.log2 m
  if fits mx m d then d else d + 1

/-- Requantise values with exponent T into a block of a format; `h` gives the hash of element i under stochastic
rounding.  The block and the number of saturations counted (R64, R66). -/
def requantBlock (vs : List Int) (t : Int) (fmt : Nat) (h : Option (Nat → Nat)) : Block × Nat :=
  let mx := maxAbs vs
  let m := mmax fmt
  if mx = 0 then (⟨-127, vs.map fun _ => 0⟩, 0)
  else
    let d := requantShift mx m
    if 127 < t + d then
      (⟨127, vs.map fun v => if 0 < v then (m : Int) else if v < 0 then -(m : Int) else 0⟩, 1)
    else
      let d := if t + d < -127 then -127 - t else d
      let ms := ((List.range vs.length).zip vs).map fun iv =>
        match h with
        | some f => srShift iv.2 d (f iv.1)
        | none => rneShift iv.2 d
      (⟨if ms.all (· == 0) then -127 else t + d, ms⟩, 0)

/-! ### Combining blocks (R68, R237, R238) -/

/-- Scale-aligned addition of two blocks of one format; the block and the saturations (R68). -/
def blockAdd (fmt : Nat) (a b : Block) : Block × Nat :=
  let n := max a.m.length b.m.length
  if a.poisoned || b.poisoned then (Block.poison n, 0)
  else if a.allZero && b.allZero then (⟨-127, List.replicate n 0⟩, 0)
  else if a.allZero then (b, 0)
  else if b.allZero then (a, 0)
  else
    let ec := max a.e b.e
    let sums := List.zipWith (· + ·) (a.m.map fun x => rneShift x (ec - a.e)) (b.m.map fun x => rneShift x (ec - b.e))
    let big := decide (mmax fmt < maxAbs sums)
    let sums := if big then sums.map fun x => rneShift x 1 else sums
    let ec := if big then ec + 1 else ec
    if 127 < ec then
      (⟨127, sums.map fun v => if 0 < v then (mmax fmt : Int) else if v < 0 then -(mmax fmt : Int) else 0⟩, 1)
    else (⟨if sums.all (· == 0) then -127 else ec, sums⟩, 0)

/-- Plain 32-bit addition modulo 2³² (R237); whether the element wrapped.  The sum may be the code 0x8000_0000, which R43 has
no unit write: R237 and R69 are followed (log entry 62). -/
def iadd32 (x y : Int) : Int × Bool :=
  let v := signed 32 (code 32 (x + y))
  (v, v != x + y)

/-- IADD of blocks: exponents must agree; the block, the wraps, and whether the exponents differed (R237).  Plain i32
has no exponent. -/
def blockIAdd (fmt : Nat) (entry b : Block) : Block × Nat × Bool :=
  let n := max entry.m.length b.m.length
  if fmt ≠ 4 ∧ (entry.poisoned || b.poisoned) then (Block.poison n, 0, false)
  else if fmt ≠ 4 ∧ entry.e ≠ b.e then (Block.poison n, 0, true)
  else
    let rs := List.zipWith iadd32 entry.m b.m
    (⟨entry.e, rs.map Prod.fst⟩, (rs.filter Prod.snd).length, false)

/-- Element-wise signed maximum; S-format blocks are aligned by arithmetic shift (R238).  An all-zero result has
E = −127 (R47). Where R238 says otherwise R47 is followed (DEDUCED, log entry 62). -/
def blockMax (fmt : Nat) (a b : Block) : Block :=
  let n := max a.m.length b.m.length
  if fmt = 4 then ⟨a.e, List.zipWith max a.m b.m⟩
  else if a.poisoned || b.poisoned then Block.poison n
  else
    let ec := max a.e b.e
    let ms := List.zipWith max (a.m.map fun x => x / 2 ^ (ec - a.e).toNat) (b.m.map fun x => x / 2 ^ (ec - b.e).toNat)
    ⟨if ms.all (· == 0) then -127 else ec, ms⟩

/-- What combining two blocks counts: saturations, wraps, exponent mismatches. -/
structure Combine where
  block : Block
  sat   : Nat
  wrap  : Nat
  mism  : Bool
  deriving DecidableEq, Repr

/-- The combination an adder or pontoon makes: 0 SADD, 1 IADD, 2 MAX. -/
def combine (op fmt : Nat) (entry b : Block) : Combine :=
  match op with
  | 0 => let r := blockAdd fmt entry b; ⟨r.1, r.2, 0, false⟩
  | 1 => let r := blockIAdd fmt entry b; ⟨r.1, 0, r.2.1, r.2.2⟩
  | _ => ⟨blockMax fmt entry b, 0, 0, false⟩

/-! ### Vector lanes (R70) -/

def i32max : Int := 2 ^ 31 - 1

/-- Saturate a lane result to ±(2³¹ − 1): the value and the saturations counted. -/
def satI32 (v : Int) : Int × Nat :=
  if i32max < v then (i32max, 1) else if v < -i32max then (-i32max, 1) else (v, 0)

/-- Load an element of a block into a lane with f fractional bits. -/
def laneLoad (e : Int) (f : Nat) (m : Int) : Int × Nat := satI32 (rneShift m (-(e + f)))

/-! ### Function tables that users load (R71, R72) -/

/-- `fu_eval` (R71): the lane and the saturations counted. -/
def fuEval (xb : Int) (sw : Nat) (ce : Int) (off : Nat) (coef : List Int) (x : Int) : Int × Nat :=
  let o := x - xb
  let seg := (clampInt 0 63 (o / 2 ^ sw)).toNat
  let u := clampInt 0 (2 ^ sw - 1) (o - seg * 2 ^ sw)
  let un : Int := if 16 ≤ sw then u / 2 ^ (sw - 16) else u * 2 ^ (16 - sw)
  let c := fun i => coef.getD (4 * seg + i) 0
  let a := c 3
  let a := rneShift (a * un) 16 + c 2
  let a := rneShift (a * un) 16 + c 1
  let a := rneShift (a * un) 16 + c 0
  satI32 (rneShift a (-(ce + off)))

end Sys2Proof.Machine
end

