-- ==== Sys2Proof/Config.lean ====
section
/-! DEFINITION. What an implementation fixes and the spec leaves open: constants without a body, which no proof can see
into.  A free value is one of them applied to the counter `free` of the state, so that it is fresh each time. -/

namespace Sys2Proof

/-- A byte the spec leaves open: challenges, margin patterns, partial flash and dump contents. -/
opaque Config.freeByte : Nat → Byte

/-- A number the spec leaves open, such as a measured margin error count (R288, R297). -/
opaque Config.freeNat : Nat → Nat

/-- How a site's copy of the tide differs from the hub's count, by site and count: the copy is the count plus this number modulo 5
less 2, so that it lies within the 2 ticks that R157 allows. -/
opaque Config.tideSkew : Nat → Nat → Nat

/-- Redundant data lanes of an HBM stack (R282). -/
opaque Config.redundantLanes : Nat

/-- What a formula of the spec gives whose divisor is 0, by the dividend: the logical index of an element of a shard whose RLEN is 0
(R310), and the cores of ballast where one draws less than half a watt (R436). -/
opaque Config.divZero : Nat → Nat

/-- The pair (m, E) that RECIP (table 2) and RSQRT (table 3) give for a negative lane, whose value R73 does not state. -/
opaque Config.negPair : Nat → Int → Int × Int

/-- The boot ROM's own hash of the manufacturing key (R471). -/
opaque Config.romHash : List Byte

/-- The payload of a BLOCK (1) or GENERIC (2) frame for a chunk of a kind, and the chunk it decodes to (R330: only a
PZN-6048 reads coded payloads). -/
opaque Config.encodeChunk : Nat → List Byte → List Byte
opaque Config.decodeChunk : Nat → List Byte → List Byte

/-- The opaque body of a unit-state record, and the record a body stands for (R330). -/
opaque Config.recordBody : Machine.UnitRec → List Byte
opaque Config.recordOf : List Byte → Option Machine.UnitRec

end Sys2Proof
end

