-- ==== Sys2Proof/Machine/RegMap.lean ====
section
/-! DEFINITION. The register map (R449 to R456) as data: one row for each register table entry of the chapters, with
its block, the instances whose pages hold it, its offset and repetition, and for each field its bits, access code (R9),
reset value and the static part of its clamp (R461).  Clamps that depend on other fields are in Machine/Clamp.lean. -/

namespace Sys2Proof.Machine

/-- Register access codes (R9). -/
inductive Acc where
  | ro | rw | w1c | w1s | wo | rc
  deriving DecidableEq, Repr

/-- How an illegal value of a numeric or enumeration field is replaced (R461). -/
inductive Clamp where
  | none
  | range (lo hi : Nat)
  | enum (max dflt : Nat)
  deriving DecidableEq, Repr

/-- Where a field lies: block type, offset of its register on the page, distance between repetitions, lowest bit and
width. -/
structure FieldRef where
  block  : Nat
  off    : Nat
  stride : Nat
  lo     : Nat
  width  : Nat
  deriving DecidableEq, Repr

structure FieldDef where
  ref   : FieldRef
  acc   : Acc
  reset : Nat
  clamp : Clamp
  deriving DecidableEq, Repr

/-- A register: its name, block type, first and last instance that hold it, offset, repetition and fields. -/
structure RegDef where
  name   : String
  block  : Nat
  instLo : Nat
  instHi : Nat
  off    : Nat
  stride : Nat
  count  : Nat
  fields : List FieldDef
  deriving DecidableEq, Repr

def F.MSH_EDGE_STATE : FieldRef := ⟨0x5, 0x40, 0x8, 0, 2⟩
def F.MSH_EDGE_SPARES_USED : FieldRef := ⟨0x5, 0x40, 0x8, 2, 7⟩
def F.MSH_EDGE_LIVE_HALF : FieldRef := ⟨0x5, 0x40, 0x8, 9, 1⟩
def F.MSH_EDGE_LAT_CLK : FieldRef := ⟨0x5, 0x40, 0x8, 16, 8⟩
/-- R41, 01_package.md -/
def R.MSH_EDGE : RegDef := ⟨"MSH_EDGE", 0x5, 0, 1023, 0x40, 0x8, 4, [
    ⟨F.MSH_EDGE_STATE, .ro, 0x0, .none⟩,
    ⟨F.MSH_EDGE_SPARES_USED, .ro, 0x0, .none⟩,
    ⟨F.MSH_EDGE_LIVE_HALF, .ro, 0x0, .none⟩,
    ⟨F.MSH_EDGE_LAT_CLK, .ro, 0xc, .none⟩]⟩

def F.MSH_FLOOR_FLOOR : FieldRef := ⟨0x5, 0x60, 0x0, 0, 1⟩
/-- R41, 01_package.md -/
def R.MSH_FLOOR : RegDef := ⟨"MSH_FLOOR", 0x5, 0, 1023, 0x60, 0x0, 1, [
    ⟨F.MSH_FLOOR_FLOOR, .rw, 0x0, .none⟩]⟩

def F.MSH_CTRL_RESERVE_SHIFT : FieldRef := ⟨0x5, 0x68, 0x0, 0, 4⟩
/-- R41, 01_package.md -/
def R.MSH_CTRL_RESERVE : RegDef := ⟨"MSH_CTRL_RESERVE", 0x5, 0, 1023, 0x68, 0x0, 1, [
    ⟨F.MSH_CTRL_RESERVE_SHIFT, .rw, 0x6, .range 4 8⟩]⟩

def F.MSH_CRC_ERR_COUNT : FieldRef := ⟨0x5, 0x70, 0x0, 0, 48⟩
/-- R41, 01_package.md -/
def R.MSH_CRC_ERR : RegDef := ⟨"MSH_CRC_ERR", 0x5, 0, 1023, 0x70, 0x0, 1, [
    ⟨F.MSH_CRC_ERR_COUNT, .rc, 0x0, .none⟩]⟩

def F.MSH_HOLE_ADDR_ADDR : FieldRef := ⟨0x5, 0x78, 0x0, 0, 64⟩
/-- R41, 01_package.md -/
def R.MSH_HOLE_ADDR : RegDef := ⟨"MSH_HOLE_ADDR", 0x5, 0, 1023, 0x78, 0x0, 1, [
    ⟨F.MSH_HOLE_ADDR_ADDR, .ro, 0x0, .none⟩]⟩

def F.MSH_DETOUR_ACTIVE : FieldRef := ⟨0x5, 0x80, 0x0, 0, 1⟩
def F.MSH_DETOUR_DIR : FieldRef := ⟨0x5, 0x80, 0x0, 1, 2⟩
def F.MSH_DETOUR_NODE : FieldRef := ⟨0x5, 0x80, 0x0, 8, 6⟩
/-- R41, 01_package.md -/
def R.MSH_DETOUR : RegDef := ⟨"MSH_DETOUR", 0x5, 0, 1023, 0x80, 0x0, 1, [
    ⟨F.MSH_DETOUR_ACTIVE, .ro, 0x0, .none⟩,
    ⟨F.MSH_DETOUR_DIR, .ro, 0x0, .none⟩,
    ⟨F.MSH_DETOUR_NODE, .ro, 0x0, .none⟩]⟩

def F.TC_CTRL_TT_POLICY : FieldRef := ⟨0x0, 0x40, 0x0, 0, 1⟩
def F.TC_CTRL_SLIP_TRACE : FieldRef := ⟨0x0, 0x40, 0x0, 1, 1⟩
def F.TC_CTRL_SLIP_THRESH : FieldRef := ⟨0x0, 0x40, 0x0, 8, 8⟩
/-- R109, 03_tensor_core.md -/
def R.TC_CTRL : RegDef := ⟨"TC_CTRL", 0x0, 0, 1023, 0x40, 0x0, 1, [
    ⟨F.TC_CTRL_TT_POLICY, .rw, 0x0, .none⟩,
    ⟨F.TC_CTRL_SLIP_TRACE, .rw, 0x1, .none⟩,
    ⟨F.TC_CTRL_SLIP_THRESH, .rw, 0x0, .none⟩]⟩

def F.TC_STATE_INFLIGHT : FieldRef := ⟨0x0, 0x48, 0x0, 0, 4⟩
def F.TC_STATE_HOLD_CAUSE : FieldRef := ⟨0x0, 0x48, 0x0, 4, 3⟩
def F.TC_STATE_RESIDENT : FieldRef := ⟨0x0, 0x48, 0x0, 16, 16⟩
/-- R109, 03_tensor_core.md -/
def R.TC_STATE : RegDef := ⟨"TC_STATE", 0x0, 0, 1023, 0x48, 0x0, 1, [
    ⟨F.TC_STATE_INFLIGHT, .ro, 0x0, .none⟩,
    ⟨F.TC_STATE_HOLD_CAUSE, .ro, 0x0, .none⟩,
    ⟨F.TC_STATE_RESIDENT, .ro, 0x0, .none⟩]⟩

def F.TC_ABSURD_SAT_LIMIT : FieldRef := ⟨0x0, 0x50, 0x0, 0, 32⟩
def F.TC_ABSURD_EXP_LO : FieldRef := ⟨0x0, 0x50, 0x0, 32, 8⟩
def F.TC_ABSURD_EXP_HI : FieldRef := ⟨0x0, 0x50, 0x0, 40, 8⟩
def F.TC_ABSURD_FLAG : FieldRef := ⟨0x0, 0x50, 0x0, 63, 1⟩
/-- R109, 03_tensor_core.md -/
def R.TC_ABSURD : RegDef := ⟨"TC_ABSURD", 0x0, 0, 1023, 0x50, 0x0, 1, [
    ⟨F.TC_ABSURD_SAT_LIMIT, .rw, 0x400, .none⟩,
    ⟨F.TC_ABSURD_EXP_LO, .rw, 0x88, .none⟩,
    ⟨F.TC_ABSURD_EXP_HI, .rw, 0x18, .none⟩,
    ⟨F.TC_ABSURD_FLAG, .ro, 0x0, .none⟩]⟩

def F.TC_SAT_CNT_COUNT : FieldRef := ⟨0x0, 0x58, 0x0, 0, 48⟩
/-- R109, 03_tensor_core.md -/
def R.TC_SAT_CNT : RegDef := ⟨"TC_SAT_CNT", 0x0, 0, 1023, 0x58, 0x0, 1, [
    ⟨F.TC_SAT_CNT_COUNT, .ro, 0x0, .none⟩]⟩

def F.TC_POISON_CNT_COUNT : FieldRef := ⟨0x0, 0x60, 0x0, 0, 48⟩
/-- R109, 03_tensor_core.md -/
def R.TC_POISON_CNT : RegDef := ⟨"TC_POISON_CNT", 0x0, 0, 1023, 0x60, 0x0, 1, [
    ⟨F.TC_POISON_CNT_COUNT, .rc, 0x0, .none⟩]⟩

def F.TC_TT_COUNT_COUNT : FieldRef := ⟨0x0, 0x68, 0x0, 0, 48⟩
/-- R109, 03_tensor_core.md -/
def R.TC_TT_COUNT : RegDef := ⟨"TC_TT_COUNT", 0x0, 0, 1023, 0x68, 0x0, 1, [
    ⟨F.TC_TT_COUNT_COUNT, .rc, 0x0, .none⟩]⟩

def F.TC_TT_MANIFEST_ADDR : FieldRef := ⟨0x0, 0x70, 0x0, 0, 64⟩
/-- R109, 03_tensor_core.md -/
def R.TC_TT_MANIFEST : RegDef := ⟨"TC_TT_MANIFEST", 0x0, 0, 1023, 0x70, 0x0, 1, [
    ⟨F.TC_TT_MANIFEST_ADDR, .ro, 0x0, .none⟩]⟩

def F.TC_TT_INFO_KIND : FieldRef := ⟨0x0, 0x78, 0x0, 0, 3⟩
def F.TC_TT_INFO_OPERAND : FieldRef := ⟨0x0, 0x78, 0x0, 3, 2⟩
def F.TC_TT_INFO_WINDOW : FieldRef := ⟨0x0, 0x78, 0x0, 5, 3⟩
def F.TC_TT_INFO_OBJECT : FieldRef := ⟨0x0, 0x78, 0x0, 8, 2⟩
def F.TC_TT_INFO_OFFSET : FieldRef := ⟨0x0, 0x78, 0x0, 16, 24⟩
def F.TC_TT_INFO_VALID : FieldRef := ⟨0x0, 0x78, 0x0, 63, 1⟩
/-- R109, 03_tensor_core.md -/
def R.TC_TT_INFO : RegDef := ⟨"TC_TT_INFO", 0x0, 0, 1023, 0x78, 0x0, 1, [
    ⟨F.TC_TT_INFO_KIND, .ro, 0x0, .none⟩,
    ⟨F.TC_TT_INFO_OPERAND, .ro, 0x0, .none⟩,
    ⟨F.TC_TT_INFO_WINDOW, .ro, 0x0, .none⟩,
    ⟨F.TC_TT_INFO_OBJECT, .ro, 0x0, .none⟩,
    ⟨F.TC_TT_INFO_OFFSET, .ro, 0x0, .none⟩,
    ⟨F.TC_TT_INFO_VALID, .w1c, 0x0, .none⟩]⟩

def F.TC_TT_LINE_ADDR : FieldRef := ⟨0x0, 0x80, 0x0, 0, 64⟩
/-- R109, 03_tensor_core.md -/
def R.TC_TT_LINE : RegDef := ⟨"TC_TT_LINE", 0x0, 0, 1023, 0x80, 0x0, 1, [
    ⟨F.TC_TT_LINE_ADDR, .ro, 0x0, .none⟩]⟩

def F.TC_SLIP_COUNT_COUNT : FieldRef := ⟨0x0, 0x88, 0x0, 0, 48⟩
/-- R109, 03_tensor_core.md -/
def R.TC_SLIP_COUNT : RegDef := ⟨"TC_SLIP_COUNT", 0x0, 0, 1023, 0x88, 0x0, 1, [
    ⟨F.TC_SLIP_COUNT_COUNT, .rc, 0x0, .none⟩]⟩

def F.TC_SLIP_MANIFEST_ADDR : FieldRef := ⟨0x0, 0x90, 0x0, 0, 64⟩
/-- R109, 03_tensor_core.md -/
def R.TC_SLIP_MANIFEST : RegDef := ⟨"TC_SLIP_MANIFEST", 0x0, 0, 1023, 0x90, 0x0, 1, [
    ⟨F.TC_SLIP_MANIFEST_ADDR, .ro, 0x0, .none⟩]⟩

def F.TC_SLIP_INFO_DECLARED : FieldRef := ⟨0x0, 0x98, 0x0, 0, 24⟩
def F.TC_SLIP_INFO_ACTUAL : FieldRef := ⟨0x0, 0x98, 0x0, 24, 24⟩
def F.TC_SLIP_INFO_HELD : FieldRef := ⟨0x0, 0x98, 0x0, 48, 15⟩
def F.TC_SLIP_INFO_VALID : FieldRef := ⟨0x0, 0x98, 0x0, 63, 1⟩
/-- R109, 03_tensor_core.md -/
def R.TC_SLIP_INFO : RegDef := ⟨"TC_SLIP_INFO", 0x0, 0, 1023, 0x98, 0x0, 1, [
    ⟨F.TC_SLIP_INFO_DECLARED, .ro, 0x0, .none⟩,
    ⟨F.TC_SLIP_INFO_ACTUAL, .ro, 0x0, .none⟩,
    ⟨F.TC_SLIP_INFO_HELD, .ro, 0x0, .none⟩,
    ⟨F.TC_SLIP_INFO_VALID, .w1c, 0x0, .none⟩]⟩

def F.TC_HOLD_WEIGHT_COUNT : FieldRef := ⟨0x0, 0xa0, 0x0, 0, 48⟩
/-- R109, 03_tensor_core.md -/
def R.TC_HOLD_WEIGHT : RegDef := ⟨"TC_HOLD_WEIGHT", 0x0, 0, 1023, 0xa0, 0x0, 1, [
    ⟨F.TC_HOLD_WEIGHT_COUNT, .rc, 0x0, .none⟩]⟩

def F.TC_HOLD_BANK_COUNT : FieldRef := ⟨0x0, 0xa8, 0x0, 0, 48⟩
/-- R109, 03_tensor_core.md -/
def R.TC_HOLD_BANK : RegDef := ⟨"TC_HOLD_BANK", 0x0, 0, 1023, 0xa8, 0x0, 1, [
    ⟨F.TC_HOLD_BANK_COUNT, .rc, 0x0, .none⟩]⟩

def F.TC_HOLD_PORT_COUNT : FieldRef := ⟨0x0, 0xb0, 0x0, 0, 48⟩
/-- R109, 03_tensor_core.md -/
def R.TC_HOLD_PORT : RegDef := ⟨"TC_HOLD_PORT", 0x0, 0, 1023, 0xb0, 0x0, 1, [
    ⟨F.TC_HOLD_PORT_COUNT, .rc, 0x0, .none⟩]⟩

def F.TC_HOLD_ISSUE_COUNT : FieldRef := ⟨0x0, 0xb8, 0x0, 0, 48⟩
/-- R109, 03_tensor_core.md -/
def R.TC_HOLD_ISSUE : RegDef := ⟨"TC_HOLD_ISSUE", 0x0, 0, 1023, 0xb8, 0x0, 1, [
    ⟨F.TC_HOLD_ISSUE_COUNT, .rc, 0x0, .none⟩]⟩

def F.WIN_BASE_BASE64 : FieldRef := ⟨0x1, 0x40, 0x20, 0, 18⟩
def F.WIN_BASE_MODE : FieldRef := ⟨0x1, 0x40, 0x20, 24, 1⟩
/-- R111, 03_tensor_core.md -/
def R.WIN_BASE : RegDef := ⟨"WIN_BASE", 0x1, 0, 1023, 0x40, 0x20, 8, [
    ⟨F.WIN_BASE_BASE64, .rw, 0x0, .none⟩,
    ⟨F.WIN_BASE_MODE, .rw, 0x0, .none⟩]⟩

def F.WIN_LEN_LEN64 : FieldRef := ⟨0x1, 0x48, 0x20, 0, 19⟩
/-- R111, 03_tensor_core.md -/
def R.WIN_LEN : RegDef := ⟨"WIN_LEN", 0x1, 0, 1023, 0x48, 0x20, 8, [
    ⟨F.WIN_LEN_LEN64, .rw, 0x40000, .none⟩]⟩

def F.WIN_STRIDE_STRIDE64 : FieldRef := ⟨0x1, 0x50, 0x20, 0, 19⟩
/-- R111, 03_tensor_core.md -/
def R.WIN_STRIDE : RegDef := ⟨"WIN_STRIDE", 0x1, 0, 1023, 0x50, 0x20, 8, [
    ⟨F.WIN_STRIDE_STRIDE64, .rw, 0x0, .none⟩]⟩

def F.WIN_HEAD_HEAD64 : FieldRef := ⟨0x1, 0x58, 0x20, 0, 19⟩
/-- R111, 03_tensor_core.md -/
def R.WIN_HEAD : RegDef := ⟨"WIN_HEAD", 0x1, 0, 1023, 0x58, 0x20, 8, [
    ⟨F.WIN_HEAD_HEAD64, .rw, 0x0, .none⟩]⟩

def F.PIL_GROUP_LEADER : FieldRef := ⟨0x2, 0x40, 0x0, 0, 6⟩
def F.PIL_GROUP_MEMBER : FieldRef := ⟨0x2, 0x40, 0x0, 6, 1⟩
def F.PIL_GROUP_INDEX : FieldRef := ⟨0x2, 0x40, 0x0, 8, 4⟩
def F.PIL_GROUP_SIZE : FieldRef := ⟨0x2, 0x40, 0x0, 12, 5⟩
def F.PIL_GROUP_ALIGN : FieldRef := ⟨0x2, 0x40, 0x0, 24, 8⟩
/-- R150, 04_manifests_pilots.md -/
def R.PIL_GROUP : RegDef := ⟨"PIL_GROUP", 0x2, 0, 1023, 0x40, 0x0, 1, [
    ⟨F.PIL_GROUP_LEADER, .rw, 0x0, .none⟩,
    ⟨F.PIL_GROUP_MEMBER, .rw, 0x0, .none⟩,
    ⟨F.PIL_GROUP_INDEX, .rw, 0x0, .none⟩,
    ⟨F.PIL_GROUP_SIZE, .rw, 0x1, .none⟩,
    ⟨F.PIL_GROUP_ALIGN, .rw, 0x20, .none⟩]⟩

def F.PIL_PREFETCH_COUNT : FieldRef := ⟨0x2, 0x48, 0x0, 0, 48⟩
/-- R150, 04_manifests_pilots.md -/
def R.PIL_PREFETCH : RegDef := ⟨"PIL_PREFETCH", 0x2, 0, 1023, 0x48, 0x0, 1, [
    ⟨F.PIL_PREFETCH_COUNT, .rc, 0x0, .none⟩]⟩

def F.PIL_DECODED_COUNT : FieldRef := ⟨0x2, 0x50, 0x0, 0, 48⟩
/-- R150, 04_manifests_pilots.md -/
def R.PIL_DECODED : RegDef := ⟨"PIL_DECODED", 0x2, 0, 1023, 0x50, 0x0, 1, [
    ⟨F.PIL_DECODED_COUNT, .rc, 0x0, .none⟩]⟩

def F.PIL_STORE_USED : FieldRef := ⟨0x2, 0x58, 0x0, 0, 13⟩
/-- R150, 04_manifests_pilots.md -/
def R.PIL_STORE : RegDef := ⟨"PIL_STORE", 0x2, 0, 1023, 0x58, 0x0, 1, [
    ⟨F.PIL_STORE_USED, .ro, 0x0, .none⟩]⟩

def F.PIL_POOL_FREE : FieldRef := ⟨0x2, 0x60, 0x0, 0, 12⟩
/-- R150, 04_manifests_pilots.md -/
def R.PIL_POOL : RegDef := ⟨"PIL_POOL", 0x2, 0, 1023, 0x60, 0x0, 1, [
    ⟨F.PIL_POOL_FREE, .ro, 0x800, .none⟩]⟩

def F.PIL_POLLED_COUNT : FieldRef := ⟨0x2, 0x68, 0x0, 0, 48⟩
/-- R150, 04_manifests_pilots.md -/
def R.PIL_POLLED : RegDef := ⟨"PIL_POLLED", 0x2, 0, 1023, 0x68, 0x0, 1, [
    ⟨F.PIL_POLLED_COUNT, .rc, 0x0, .none⟩]⟩

def F.PIL_GROUP_LATE_COUNT : FieldRef := ⟨0x2, 0x70, 0x0, 0, 48⟩
/-- R150, 04_manifests_pilots.md -/
def R.PIL_GROUP_LATE : RegDef := ⟨"PIL_GROUP_LATE", 0x2, 0, 1023, 0x70, 0x0, 1, [
    ⟨F.PIL_GROUP_LATE_COUNT, .rc, 0x0, .none⟩]⟩

def F.STR_PSEL_STREAM : FieldRef := ⟨0x3, 0x40, 0x0, 0, 4⟩
/-- R152, 04_manifests_pilots.md -/
def R.STR_PSEL : RegDef := ⟨"STR_PSEL", 0x3, 0, 1023, 0x40, 0x0, 1, [
    ⟨F.STR_PSEL_STREAM, .rw, 0x0, .none⟩]⟩

def F.STR_PARAM_VALUE : FieldRef := ⟨0x3, 0x80, 0x8, 0, 64⟩
/-- R152, 04_manifests_pilots.md -/
def R.STR_PARAM : RegDef := ⟨"STR_PARAM", 0x3, 0, 1023, 0x80, 0x8, 16, [
    ⟨F.STR_PARAM_VALUE, .rw, 0x0, .none⟩]⟩

def F.STR_PSTRIDE_STRIDE : FieldRef := ⟨0x3, 0x100, 0x8, 0, 64⟩
/-- R152, 04_manifests_pilots.md -/
def R.STR_PSTRIDE : RegDef := ⟨"STR_PSTRIDE", 0x3, 0, 1023, 0x100, 0x8, 16, [
    ⟨F.STR_PSTRIDE_STRIDE, .rw, 0x0, .none⟩]⟩

def F.STR_CTRL_START : FieldRef := ⟨0x3, 0x200, 0x80, 0, 1⟩
def F.STR_CTRL_STOP : FieldRef := ⟨0x3, 0x200, 0x80, 1, 1⟩
def F.STR_CTRL_CANCEL : FieldRef := ⟨0x3, 0x200, 0x80, 2, 1⟩
def F.STR_CTRL_RESUME : FieldRef := ⟨0x3, 0x200, 0x80, 3, 1⟩
def F.STR_CTRL_REWIND : FieldRef := ⟨0x3, 0x200, 0x80, 4, 1⟩
/-- R152, 04_manifests_pilots.md -/
def R.STR_CTRL : RegDef := ⟨"STR_CTRL", 0x3, 0, 1023, 0x200, 0x80, 16, [
    ⟨F.STR_CTRL_START, .wo, 0x0, .none⟩,
    ⟨F.STR_CTRL_STOP, .wo, 0x0, .none⟩,
    ⟨F.STR_CTRL_CANCEL, .wo, 0x0, .none⟩,
    ⟨F.STR_CTRL_RESUME, .wo, 0x0, .none⟩,
    ⟨F.STR_CTRL_REWIND, .wo, 0x0, .none⟩]⟩

def F.STR_CFG_CTX : FieldRef := ⟨0x3, 0x208, 0x80, 0, 6⟩
def F.STR_CFG_MODE : FieldRef := ⟨0x3, 0x208, 0x80, 6, 1⟩
def F.STR_CFG_RUNAHEAD : FieldRef := ⟨0x3, 0x208, 0x80, 7, 10⟩
def F.STR_CFG_GATE_EN : FieldRef := ⟨0x3, 0x208, 0x80, 17, 1⟩
/-- R152, 04_manifests_pilots.md -/
def R.STR_CFG : RegDef := ⟨"STR_CFG", 0x3, 0, 1023, 0x208, 0x80, 16, [
    ⟨F.STR_CFG_CTX, .rw, 0x0, .none⟩,
    ⟨F.STR_CFG_MODE, .rw, 0x0, .none⟩,
    ⟨F.STR_CFG_RUNAHEAD, .rw, 0x200, .range 1 512⟩,
    ⟨F.STR_CFG_GATE_EN, .rw, 0x0, .none⟩]⟩

def F.STR_RING_BASE_BASE : FieldRef := ⟨0x3, 0x210, 0x80, 7, 57⟩
/-- R152, 04_manifests_pilots.md -/
def R.STR_RING_BASE : RegDef := ⟨"STR_RING_BASE", 0x3, 0, 1023, 0x210, 0x80, 16, [
    ⟨F.STR_RING_BASE_BASE, .rw, 0x0, .none⟩]⟩

def F.STR_RING_LEN_LEN : FieldRef := ⟨0x3, 0x218, 0x80, 0, 16⟩
def F.STR_RING_LEN_REPLAYS : FieldRef := ⟨0x3, 0x218, 0x80, 16, 32⟩
/-- R152, 04_manifests_pilots.md -/
def R.STR_RING_LEN : RegDef := ⟨"STR_RING_LEN", 0x3, 0, 1023, 0x218, 0x80, 16, [
    ⟨F.STR_RING_LEN_LEN, .rw, 0x1, .range 1 32768⟩,
    ⟨F.STR_RING_LEN_REPLAYS, .rw, 0x0, .none⟩]⟩

def F.STR_TAIL_TAIL : FieldRef := ⟨0x3, 0x220, 0x80, 0, 16⟩
/-- R152, 04_manifests_pilots.md -/
def R.STR_TAIL : RegDef := ⟨"STR_TAIL", 0x3, 0, 1023, 0x220, 0x80, 16, [
    ⟨F.STR_TAIL_TAIL, .rw, 0x0, .none⟩]⟩

def F.STR_POS_ISSUE : FieldRef := ⟨0x3, 0x228, 0x80, 0, 16⟩
def F.STR_POS_RETIRE : FieldRef := ⟨0x3, 0x228, 0x80, 16, 16⟩
def F.STR_POS_REPLAY : FieldRef := ⟨0x3, 0x228, 0x80, 32, 32⟩
/-- R152, 04_manifests_pilots.md -/
def R.STR_POS : RegDef := ⟨"STR_POS", 0x3, 0, 1023, 0x228, 0x80, 16, [
    ⟨F.STR_POS_ISSUE, .ro, 0x0, .none⟩,
    ⟨F.STR_POS_RETIRE, .ro, 0x0, .none⟩,
    ⟨F.STR_POS_REPLAY, .ro, 0x0, .none⟩]⟩

def F.STR_STATUS_STATE : FieldRef := ⟨0x3, 0x230, 0x80, 0, 3⟩
def F.STR_STATUS_WAITS : FieldRef := ⟨0x3, 0x230, 0x80, 3, 4⟩
def F.STR_STATUS_NB : FieldRef := ⟨0x3, 0x230, 0x80, 7, 1⟩
def F.STR_STATUS_GATE : FieldRef := ⟨0x3, 0x230, 0x80, 8, 1⟩
/-- R152, 04_manifests_pilots.md -/
def R.STR_STATUS : RegDef := ⟨"STR_STATUS", 0x3, 0, 1023, 0x230, 0x80, 16, [
    ⟨F.STR_STATUS_STATE, .ro, 0x0, .none⟩,
    ⟨F.STR_STATUS_WAITS, .ro, 0x0, .none⟩,
    ⟨F.STR_STATUS_NB, .ro, 0x0, .none⟩,
    ⟨F.STR_STATUS_GATE, .ro, 0x0, .none⟩]⟩

def F.STR_RETIRED_COUNT : FieldRef := ⟨0x3, 0x238, 0x80, 0, 48⟩
/-- R152, 04_manifests_pilots.md -/
def R.STR_RETIRED : RegDef := ⟨"STR_RETIRED", 0x3, 0, 1023, 0x238, 0x80, 16, [
    ⟨F.STR_RETIRED_COUNT, .ro, 0x0, .none⟩]⟩

def F.STR_LAST_RETIRE_TIDE : FieldRef := ⟨0x3, 0x240, 0x80, 0, 64⟩
/-- R152, 04_manifests_pilots.md -/
def R.STR_LAST_RETIRE : RegDef := ⟨"STR_LAST_RETIRE", 0x3, 0, 1023, 0x240, 0x80, 16, [
    ⟨F.STR_LAST_RETIRE_TIDE, .ro, 0x0, .none⟩]⟩

def F.STR_GATE_BOLLARD : FieldRef := ⟨0x3, 0x248, 0x80, 0, 14⟩
def F.STR_GATE_STRIDE : FieldRef := ⟨0x3, 0x248, 0x80, 16, 16⟩
def F.STR_GATE_TARGET : FieldRef := ⟨0x3, 0x248, 0x80, 32, 32⟩
/-- R152, 04_manifests_pilots.md -/
def R.STR_GATE : RegDef := ⟨"STR_GATE", 0x3, 0, 1023, 0x248, 0x80, 16, [
    ⟨F.STR_GATE_BOLLARD, .rw, 0x0, .none⟩,
    ⟨F.STR_GATE_STRIDE, .rw, 0x1, .range 1 65535⟩,
    ⟨F.STR_GATE_TARGET, .rw, 0x1, .none⟩]⟩

def F.STR_CREC_BASE_BASE : FieldRef := ⟨0x3, 0x250, 0x80, 4, 60⟩
/-- R152, 04_manifests_pilots.md -/
def R.STR_CREC_BASE : RegDef := ⟨"STR_CREC_BASE", 0x3, 0, 1023, 0x250, 0x80, 16, [
    ⟨F.STR_CREC_BASE_BASE, .rw, 0x0, .none⟩]⟩

def F.STR_CREC_LEN_LEN : FieldRef := ⟨0x3, 0x258, 0x80, 0, 16⟩
def F.STR_CREC_LEN_WIDX : FieldRef := ⟨0x3, 0x258, 0x80, 32, 16⟩
/-- R152, 04_manifests_pilots.md -/
def R.STR_CREC_LEN : RegDef := ⟨"STR_CREC_LEN", 0x3, 0, 1023, 0x258, 0x80, 16, [
    ⟨F.STR_CREC_LEN_LEN, .rw, 0x0, .none⟩,
    ⟨F.STR_CREC_LEN_WIDX, .ro, 0x0, .none⟩]⟩

def F.STR_BADOP_REASON : FieldRef := ⟨0x3, 0x260, 0x80, 0, 3⟩
def F.STR_BADOP_SLOT : FieldRef := ⟨0x3, 0x260, 0x80, 3, 2⟩
def F.STR_BADOP_VALID : FieldRef := ⟨0x3, 0x260, 0x80, 63, 1⟩
/-- R152, 04_manifests_pilots.md -/
def R.STR_BADOP : RegDef := ⟨"STR_BADOP", 0x3, 0, 1023, 0x260, 0x80, 16, [
    ⟨F.STR_BADOP_REASON, .ro, 0x0, .none⟩,
    ⟨F.STR_BADOP_SLOT, .ro, 0x0, .none⟩,
    ⟨F.STR_BADOP_VALID, .w1c, 0x0, .none⟩]⟩

def F.STR_BADOP_ADDR_ADDR : FieldRef := ⟨0x3, 0x268, 0x80, 0, 64⟩
/-- R152, 04_manifests_pilots.md -/
def R.STR_BADOP_ADDR : RegDef := ⟨"STR_BADOP_ADDR", 0x3, 0, 1023, 0x268, 0x80, 16, [
    ⟨F.STR_BADOP_ADDR_ADDR, .ro, 0x0, .none⟩]⟩

def F.STR_RACE_COUNT : FieldRef := ⟨0x3, 0x270, 0x80, 0, 48⟩
/-- R152, 04_manifests_pilots.md -/
def R.STR_RACE : RegDef := ⟨"STR_RACE", 0x3, 0, 1023, 0x270, 0x80, 16, [
    ⟨F.STR_RACE_COUNT, .rc, 0x0, .none⟩]⟩

def F.STR_TIMEOUT_COUNT : FieldRef := ⟨0x3, 0x278, 0x80, 0, 48⟩
/-- R152, 04_manifests_pilots.md -/
def R.STR_TIMEOUT : RegDef := ⟨"STR_TIMEOUT", 0x3, 0, 1023, 0x278, 0x80, 16, [
    ⟨F.STR_TIMEOUT_COUNT, .rc, 0x0, .none⟩]⟩

def F.BOL_LAST_OVF_BOLLARD : FieldRef := ⟨0x4, 0x40, 0x0, 0, 8⟩
def F.BOL_LAST_OVF_CTX : FieldRef := ⟨0x4, 0x40, 0x0, 8, 6⟩
def F.BOL_LAST_OVF_VALID : FieldRef := ⟨0x4, 0x40, 0x0, 63, 1⟩
/-- R154, 04_manifests_pilots.md -/
def R.BOL_LAST_OVF : RegDef := ⟨"BOL_LAST_OVF", 0x4, 0, 1023, 0x40, 0x0, 1, [
    ⟨F.BOL_LAST_OVF_BOLLARD, .ro, 0x0, .none⟩,
    ⟨F.BOL_LAST_OVF_CTX, .ro, 0x0, .none⟩,
    ⟨F.BOL_LAST_OVF_VALID, .w1c, 0x0, .none⟩]⟩

def F.BOL_DROP_COUNT : FieldRef := ⟨0x4, 0x48, 0x0, 0, 48⟩
/-- R154, 04_manifests_pilots.md -/
def R.BOL_DROP : RegDef := ⟨"BOL_DROP", 0x4, 0, 1023, 0x48, 0x0, 1, [
    ⟨F.BOL_DROP_COUNT, .rc, 0x0, .none⟩]⟩

def F.BOL_SIGNALS_COUNT : FieldRef := ⟨0x4, 0x50, 0x0, 0, 48⟩
/-- R154, 04_manifests_pilots.md -/
def R.BOL_SIGNALS : RegDef := ⟨"BOL_SIGNALS", 0x4, 0, 1023, 0x50, 0x0, 1, [
    ⟨F.BOL_SIGNALS_COUNT, .rc, 0x0, .none⟩]⟩

def F.BOL_COUNT_COUNT : FieldRef := ⟨0x4, 0x800, 0x8, 0, 32⟩
def F.BOL_COUNT_OWNER : FieldRef := ⟨0x4, 0x800, 0x8, 32, 6⟩
def F.BOL_COUNT_ERR : FieldRef := ⟨0x4, 0x800, 0x8, 38, 1⟩
def F.BOL_COUNT_WAITERS : FieldRef := ⟨0x4, 0x800, 0x8, 40, 8⟩
/-- R154, 04_manifests_pilots.md -/
def R.BOL_COUNT : RegDef := ⟨"BOL_COUNT", 0x4, 0, 1023, 0x800, 0x8, 256, [
    ⟨F.BOL_COUNT_COUNT, .rw, 0x0, .none⟩,
    ⟨F.BOL_COUNT_OWNER, .rw, 0x0, .none⟩,
    ⟨F.BOL_COUNT_ERR, .w1c, 0x0, .none⟩,
    ⟨F.BOL_COUNT_WAITERS, .ro, 0x0, .none⟩]⟩

def F.TID_NOW_TICKS : FieldRef := ⟨0x15, 0x40, 0x0, 0, 64⟩
/-- R180, 05_tide_tolls.md -/
def R.TID_NOW : RegDef := ⟨"TID_NOW", 0x15, 0, 1023, 0x40, 0x0, 1, [
    ⟨F.TID_NOW_TICKS, .ro, 0x0, .none⟩]⟩

def F.TID_STATUS_STATE : FieldRef := ⟨0x15, 0x48, 0x0, 0, 2⟩
def F.TID_STATUS_SLACK : FieldRef := ⟨0x15, 0x48, 0x0, 2, 1⟩
def F.TID_STATUS_SLEWING : FieldRef := ⟨0x15, 0x48, 0x0, 3, 1⟩
def F.TID_STATUS_HOPS : FieldRef := ⟨0x15, 0x48, 0x0, 4, 9⟩
/-- R180, 05_tide_tolls.md -/
def R.TID_STATUS : RegDef := ⟨"TID_STATUS", 0x15, 0, 1023, 0x48, 0x0, 1, [
    ⟨F.TID_STATUS_STATE, .ro, 0x0, .none⟩,
    ⟨F.TID_STATUS_SLACK, .ro, 0x1, .none⟩,
    ⟨F.TID_STATUS_SLEWING, .ro, 0x0, .none⟩,
    ⟨F.TID_STATUS_HOPS, .ro, 0x1ff, .none⟩]⟩

def F.TID_CFG_IN_EN : FieldRef := ⟨0x15, 0x50, 0x0, 0, 1⟩
def F.TID_CFG_UP_EN : FieldRef := ⟨0x15, 0x50, 0x0, 1, 1⟩
def F.TID_CFG_UP_PORT : FieldRef := ⟨0x15, 0x50, 0x0, 2, 6⟩
def F.TID_CFG_QUALIFY_MS : FieldRef := ⟨0x15, 0x50, 0x0, 8, 8⟩
def F.TID_CFG_STEP_LIMIT_US : FieldRef := ⟨0x15, 0x50, 0x0, 16, 16⟩
/-- R180, 05_tide_tolls.md -/
def R.TID_CFG : RegDef := ⟨"TID_CFG", 0x15, 0, 1023, 0x50, 0x0, 1, [
    ⟨F.TID_CFG_IN_EN, .rw, 0x1, .none⟩,
    ⟨F.TID_CFG_UP_EN, .rw, 0x0, .none⟩,
    ⟨F.TID_CFG_UP_PORT, .rw, 0x0, .range 0 47⟩,
    ⟨F.TID_CFG_QUALIFY_MS, .rw, 0xa, .range 3 255⟩,
    ⟨F.TID_CFG_STEP_LIMIT_US, .rw, 0x64, .range 1 65535⟩]⟩

def F.TID_IN_DELAY_NS : FieldRef := ⟨0x15, 0x58, 0x0, 0, 16⟩
/-- R180, 05_tide_tolls.md -/
def R.TID_IN_DELAY : RegDef := ⟨"TID_IN_DELAY", 0x15, 0, 1023, 0x58, 0x0, 1, [
    ⟨F.TID_IN_DELAY_NS, .rw, 0x0, .none⟩]⟩

def F.TID_LINK_DELAY_NS : FieldRef := ⟨0x15, 0x60, 0x0, 0, 16⟩
/-- R180, 05_tide_tolls.md -/
def R.TID_LINK_DELAY : RegDef := ⟨"TID_LINK_DELAY", 0x15, 0, 1023, 0x60, 0x0, 1, [
    ⟨F.TID_LINK_DELAY_NS, .ro, 0x0, .none⟩]⟩

def F.TID_OFFSET_DELTA : FieldRef := ⟨0x15, 0x68, 0x0, 0, 64⟩
/-- R180, 05_tide_tolls.md -/
def R.TID_OFFSET : RegDef := ⟨"TID_OFFSET", 0x15, 0, 1023, 0x68, 0x0, 1, [
    ⟨F.TID_OFFSET_DELTA, .ro, 0x0, .none⟩]⟩

def F.TID_XING_LEN_US : FieldRef := ⟨0x15, 0x70, 0x0, 0, 11⟩
/-- R180, 05_tide_tolls.md -/
def R.TID_XING : RegDef := ⟨"TID_XING", 0x15, 0, 1023, 0x70, 0x0, 1, [
    ⟨F.TID_XING_LEN_US, .rw, 0x32, .range 1 1024⟩]⟩

def F.TID_XING_BASE_BASE : FieldRef := ⟨0x15, 0x78, 0x0, 0, 64⟩
/-- R180, 05_tide_tolls.md -/
def R.TID_XING_BASE : RegDef := ⟨"TID_XING_BASE", 0x15, 0, 1023, 0x78, 0x0, 1, [
    ⟨F.TID_XING_BASE_BASE, .rw, 0x0, .none⟩]⟩

def F.TID_XNUM_NUMBER : FieldRef := ⟨0x15, 0x80, 0x0, 0, 64⟩
/-- R180, 05_tide_tolls.md -/
def R.TID_XNUM : RegDef := ⟨"TID_XNUM", 0x15, 0, 1023, 0x80, 0x0, 1, [
    ⟨F.TID_XNUM_NUMBER, .ro, 0x0, .none⟩]⟩

def F.TID_STEPS_COUNT : FieldRef := ⟨0x15, 0x88, 0x0, 0, 48⟩
/-- R180, 05_tide_tolls.md -/
def R.TID_STEPS : RegDef := ⟨"TID_STEPS", 0x15, 0, 1023, 0x88, 0x0, 1, [
    ⟨F.TID_STEPS_COUNT, .rc, 0x0, .none⟩]⟩

def F.TOL_ISSUE_TOLL : FieldRef := ⟨0x16, 0x40, 0x0, 0, 32⟩
/-- R182, 05_tide_tolls.md -/
def R.TOL_ISSUE : RegDef := ⟨"TOL_ISSUE", 0x16, 0, 63, 0x40, 0x0, 1, [
    ⟨F.TOL_ISSUE_TOLL, .rw, 0xffffffff, .none⟩]⟩

def F.TOL_HBM_TOLL : FieldRef := ⟨0x16, 0x48, 0x0, 0, 32⟩
/-- R182, 05_tide_tolls.md -/
def R.TOL_HBM : RegDef := ⟨"TOL_HBM", 0x16, 0, 63, 0x48, 0x0, 1, [
    ⟨F.TOL_HBM_TOLL, .rw, 0xffffffff, .none⟩]⟩

def F.TOL_BULK_TOLL : FieldRef := ⟨0x16, 0x50, 0x0, 0, 32⟩
/-- R182, 05_tide_tolls.md -/
def R.TOL_BULK : RegDef := ⟨"TOL_BULK", 0x16, 0, 63, 0x50, 0x0, 1, [
    ⟨F.TOL_BULK_TOLL, .rw, 0xffffffff, .none⟩]⟩

def F.TOL_MESH_TOLL : FieldRef := ⟨0x16, 0x58, 0x0, 0, 32⟩
/-- R182, 05_tide_tolls.md -/
def R.TOL_MESH : RegDef := ⟨"TOL_MESH", 0x16, 0, 63, 0x58, 0x0, 1, [
    ⟨F.TOL_MESH_TOLL, .rw, 0xffffffff, .none⟩]⟩

def F.TOL_VERATH_TOLL : FieldRef := ⟨0x16, 0x60, 0x0, 0, 32⟩
/-- R182, 05_tide_tolls.md -/
def R.TOL_VERATH : RegDef := ⟨"TOL_VERATH", 0x16, 0, 63, 0x60, 0x0, 1, [
    ⟨F.TOL_VERATH_TOLL, .rw, 0xffffffff, .none⟩]⟩

def F.TOL_CKPT_TOLL : FieldRef := ⟨0x16, 0x68, 0x0, 0, 32⟩
/-- R182, 05_tide_tolls.md -/
def R.TOL_CKPT : RegDef := ⟨"TOL_CKPT", 0x16, 0, 63, 0x68, 0x0, 1, [
    ⟨F.TOL_CKPT_TOLL, .rw, 0xffffffff, .none⟩]⟩

def F.TOL_ENERGY_TOLL : FieldRef := ⟨0x16, 0x70, 0x0, 0, 32⟩
/-- R182, 05_tide_tolls.md -/
def R.TOL_ENERGY : RegDef := ⟨"TOL_ENERGY", 0x16, 0, 63, 0x70, 0x0, 1, [
    ⟨F.TOL_ENERGY_TOLL, .rw, 0xffffffff, .none⟩]⟩

def F.TOL_CFG_EXEMPT : FieldRef := ⟨0x16, 0x78, 0x0, 0, 1⟩
/-- R182, 05_tide_tolls.md -/
def R.TOL_CFG : RegDef := ⟨"TOL_CFG", 0x16, 0, 63, 0x78, 0x0, 1, [
    ⟨F.TOL_CFG_EXEMPT, .rw, 0x0, .none⟩]⟩

def F.TOL_HELD_RESOURCES : FieldRef := ⟨0x16, 0x80, 0x0, 0, 7⟩
/-- R182, 05_tide_tolls.md -/
def R.TOL_HELD : RegDef := ⟨"TOL_HELD", 0x16, 0, 63, 0x80, 0x0, 1, [
    ⟨F.TOL_HELD_RESOURCES, .ro, 0x0, .none⟩]⟩

def F.TOL_HELD_XINGS_COUNT : FieldRef := ⟨0x16, 0x88, 0x0, 0, 48⟩
/-- R182, 05_tide_tolls.md -/
def R.TOL_HELD_XINGS : RegDef := ⟨"TOL_HELD_XINGS", 0x16, 0, 63, 0x88, 0x0, 1, [
    ⟨F.TOL_HELD_XINGS_COUNT, .rc, 0x0, .none⟩]⟩

def F.TOL_PEEK_SEL_RESOURCE : FieldRef := ⟨0x16, 0x90, 0x0, 0, 3⟩
def F.TOL_PEEK_SEL_INSTANCE : FieldRef := ⟨0x16, 0x90, 0x0, 8, 6⟩
/-- R182, 05_tide_tolls.md -/
def R.TOL_PEEK_SEL : RegDef := ⟨"TOL_PEEK_SEL", 0x16, 0, 63, 0x90, 0x0, 1, [
    ⟨F.TOL_PEEK_SEL_RESOURCE, .rw, 0x0, .none⟩,
    ⟨F.TOL_PEEK_SEL_INSTANCE, .rw, 0x0, .none⟩]⟩

def F.TOL_PEEK_REMAIN : FieldRef := ⟨0x16, 0x98, 0x0, 0, 64⟩
/-- R182, 05_tide_tolls.md -/
def R.TOL_PEEK : RegDef := ⟨"TOL_PEEK", 0x16, 0, 63, 0x98, 0x0, 1, [
    ⟨F.TOL_PEEK_REMAIN, .ro, 0x0, .none⟩]⟩

def F.TOL_THROTTLE_ISSUE_FRAC : FieldRef := ⟨0x16, 0x40, 0x0, 0, 9⟩
def F.TOL_THROTTLE_ENERGY_FRAC : FieldRef := ⟨0x16, 0x40, 0x0, 16, 9⟩
/-- R182, 05_tide_tolls.md -/
def R.TOL_THROTTLE : RegDef := ⟨"TOL_THROTTLE", 0x16, 64, 64, 0x40, 0x0, 1, [
    ⟨F.TOL_THROTTLE_ISSUE_FRAC, .rw, 0x100, .range 1 256⟩,
    ⟨F.TOL_THROTTLE_ENERGY_FRAC, .rw, 0x100, .range 1 256⟩]⟩

def F.TOL_CTXMAP_CLASS0 : FieldRef := ⟨0x16, 0x48, 0x8, 0, 6⟩
def F.TOL_CTXMAP_CLASS1 : FieldRef := ⟨0x16, 0x48, 0x8, 8, 6⟩
def F.TOL_CTXMAP_CLASS2 : FieldRef := ⟨0x16, 0x48, 0x8, 16, 6⟩
def F.TOL_CTXMAP_CLASS3 : FieldRef := ⟨0x16, 0x48, 0x8, 24, 6⟩
def F.TOL_CTXMAP_CLASS4 : FieldRef := ⟨0x16, 0x48, 0x8, 32, 6⟩
def F.TOL_CTXMAP_CLASS5 : FieldRef := ⟨0x16, 0x48, 0x8, 40, 6⟩
def F.TOL_CTXMAP_CLASS6 : FieldRef := ⟨0x16, 0x48, 0x8, 48, 6⟩
def F.TOL_CTXMAP_CLASS7 : FieldRef := ⟨0x16, 0x48, 0x8, 56, 6⟩
/-- R182, 05_tide_tolls.md -/
def R.TOL_CTXMAP : RegDef := ⟨"TOL_CTXMAP", 0x16, 64, 64, 0x48, 0x8, 8, [
    ⟨F.TOL_CTXMAP_CLASS0, .rw, 0x0, .range 0 59⟩,
    ⟨F.TOL_CTXMAP_CLASS1, .rw, 0x0, .range 0 59⟩,
    ⟨F.TOL_CTXMAP_CLASS2, .rw, 0x0, .range 0 59⟩,
    ⟨F.TOL_CTXMAP_CLASS3, .rw, 0x0, .range 0 59⟩,
    ⟨F.TOL_CTXMAP_CLASS4, .rw, 0x0, .range 0 59⟩,
    ⟨F.TOL_CTXMAP_CLASS5, .rw, 0x0, .range 0 59⟩,
    ⟨F.TOL_CTXMAP_CLASS6, .rw, 0x0, .range 0 59⟩,
    ⟨F.TOL_CTXMAP_CLASS7, .rw, 0x0, .range 0 59⟩]⟩

def F.FRY_CTRL_ENABLE : FieldRef := ⟨0x9, 0x40, 0x0, 0, 1⟩
def F.FRY_CTRL_FLUSH : FieldRef := ⟨0x9, 0x40, 0x0, 1, 1⟩
/-- R227, 06_pipeline.md -/
def R.FRY_CTRL : RegDef := ⟨"FRY_CTRL", 0x9, 0, 1023, 0x40, 0x0, 1, [
    ⟨F.FRY_CTRL_ENABLE, .rw, 0x0, .none⟩,
    ⟨F.FRY_CTRL_FLUSH, .wo, 0x0, .none⟩]⟩

def F.FRY_CFG_CTX : FieldRef := ⟨0x9, 0x48, 0x0, 0, 6⟩
def F.FRY_CFG_KIND : FieldRef := ⟨0x9, 0x48, 0x0, 6, 2⟩
def F.FRY_CFG_MESH : FieldRef := ⟨0x9, 0x48, 0x0, 8, 1⟩
def F.FRY_CFG_SLICED : FieldRef := ⟨0x9, 0x48, 0x0, 9, 1⟩
def F.FRY_CFG_STAGE : FieldRef := ⟨0x9, 0x48, 0x0, 10, 4⟩
def F.FRY_CFG_SRC_STAGE : FieldRef := ⟨0x9, 0x48, 0x0, 16, 12⟩
def F.FRY_CFG_DEST_STAGE : FieldRef := ⟨0x9, 0x48, 0x0, 32, 12⟩
/-- R227, 06_pipeline.md -/
def R.FRY_CFG : RegDef := ⟨"FRY_CFG", 0x9, 0, 1023, 0x48, 0x0, 1, [
    ⟨F.FRY_CFG_CTX, .rw, 0x0, .none⟩,
    ⟨F.FRY_CFG_KIND, .rw, 0x0, .enum 2 0⟩,
    ⟨F.FRY_CFG_MESH, .rw, 0x0, .none⟩,
    ⟨F.FRY_CFG_SLICED, .rw, 0x0, .none⟩,
    ⟨F.FRY_CFG_STAGE, .rw, 0x0, .none⟩,
    ⟨F.FRY_CFG_SRC_STAGE, .rw, 0x0, .none⟩,
    ⟨F.FRY_CFG_DEST_STAGE, .rw, 0x0, .none⟩]⟩

def F.FRY_DEST_NODE : FieldRef := ⟨0x9, 0x50, 0x0, 0, 16⟩
def F.FRY_DEST_LANDING : FieldRef := ⟨0x9, 0x50, 0x0, 16, 6⟩
def F.FRY_DEST_RGEN : FieldRef := ⟨0x9, 0x50, 0x0, 32, 12⟩
/-- R227, 06_pipeline.md -/
def R.FRY_DEST : RegDef := ⟨"FRY_DEST", 0x9, 0, 1023, 0x50, 0x0, 1, [
    ⟨F.FRY_DEST_NODE, .rw, 0x0, .none⟩,
    ⟨F.FRY_DEST_LANDING, .rw, 0x0, .none⟩,
    ⟨F.FRY_DEST_RGEN, .rw, 0x0, .none⟩]⟩

def F.FRY_PORTS_MASK : FieldRef := ⟨0x9, 0x58, 0x0, 0, 48⟩
/-- R227, 06_pipeline.md -/
def R.FRY_PORTS : RegDef := ⟨"FRY_PORTS", 0x9, 0, 1023, 0x58, 0x0, 1, [
    ⟨F.FRY_PORTS_MASK, .rw, 0x0, .none⟩]⟩

def F.FRY_TICKET_BOLLARD : FieldRef := ⟨0x9, 0x60, 0x0, 0, 14⟩
def F.FRY_TICKET_INCREMENT : FieldRef := ⟨0x9, 0x60, 0x0, 16, 16⟩
/-- R227, 06_pipeline.md -/
def R.FRY_TICKET : RegDef := ⟨"FRY_TICKET", 0x9, 0, 1023, 0x60, 0x0, 1, [
    ⟨F.FRY_TICKET_BOLLARD, .rw, 0x0, .none⟩,
    ⟨F.FRY_TICKET_INCREMENT, .rw, 0x1, .none⟩]⟩

def F.FRY_CREDIT_FIRST : FieldRef := ⟨0x9, 0x68, 0x0, 0, 6⟩
def F.FRY_CREDIT_COUNT : FieldRef := ⟨0x9, 0x68, 0x0, 8, 7⟩
def F.FRY_CREDIT_AVAIL : FieldRef := ⟨0x9, 0x68, 0x0, 16, 7⟩
/-- R227, 06_pipeline.md -/
def R.FRY_CREDIT : RegDef := ⟨"FRY_CREDIT", 0x9, 0, 1023, 0x68, 0x0, 1, [
    ⟨F.FRY_CREDIT_FIRST, .rw, 0x0, .none⟩,
    ⟨F.FRY_CREDIT_COUNT, .rw, 0x0, .none⟩,
    ⟨F.FRY_CREDIT_AVAIL, .ro, 0x0, .none⟩]⟩

def F.FRY_STATUS_STATE : FieldRef := ⟨0x9, 0x70, 0x0, 0, 3⟩
def F.FRY_STATUS_QUEUED : FieldRef := ⟨0x9, 0x70, 0x0, 3, 4⟩
def F.FRY_STATUS_XFER_SEQ : FieldRef := ⟨0x9, 0x70, 0x0, 16, 16⟩
/-- R227, 06_pipeline.md -/
def R.FRY_STATUS : RegDef := ⟨"FRY_STATUS", 0x9, 0, 1023, 0x70, 0x0, 1, [
    ⟨F.FRY_STATUS_STATE, .ro, 0x0, .none⟩,
    ⟨F.FRY_STATUS_QUEUED, .ro, 0x0, .none⟩,
    ⟨F.FRY_STATUS_XFER_SEQ, .ro, 0x0, .none⟩]⟩

def F.FRY_SENT_COUNT : FieldRef := ⟨0x9, 0x78, 0x0, 0, 48⟩
/-- R227, 06_pipeline.md -/
def R.FRY_SENT : RegDef := ⟨"FRY_SENT", 0x9, 0, 1023, 0x78, 0x0, 1, [
    ⟨F.FRY_SENT_COUNT, .rc, 0x0, .none⟩]⟩

def F.FRY_ERR_COUNT : FieldRef := ⟨0x9, 0x80, 0x0, 0, 48⟩
/-- R227, 06_pipeline.md -/
def R.FRY_ERR : RegDef := ⟨"FRY_ERR", 0x9, 0, 1023, 0x80, 0x0, 1, [
    ⟨F.FRY_ERR_COUNT, .rc, 0x0, .none⟩]⟩

def F.LND_CTRL_ENABLE : FieldRef := ⟨0xa, 0x40, 0x0, 0, 1⟩
def F.LND_CTRL_DRAIN : FieldRef := ⟨0xa, 0x40, 0x0, 1, 1⟩
/-- R229, 06_pipeline.md -/
def R.LND_CTRL : RegDef := ⟨"LND_CTRL", 0xa, 0, 1023, 0x40, 0x0, 1, [
    ⟨F.LND_CTRL_ENABLE, .rw, 0x0, .none⟩,
    ⟨F.LND_CTRL_DRAIN, .wo, 0x0, .none⟩]⟩

def F.LND_CFG_ENTRIES : FieldRef := ⟨0xa, 0x48, 0x0, 0, 7⟩
def F.LND_CFG_LAYOUT : FieldRef := ⟨0xa, 0x48, 0x0, 7, 1⟩
def F.LND_CFG_CTX : FieldRef := ⟨0xa, 0x48, 0x0, 8, 6⟩
def F.LND_CFG_DWIN : FieldRef := ⟨0xa, 0x48, 0x0, 14, 3⟩
def F.LND_CFG_SWIN : FieldRef := ⟨0xa, 0x48, 0x0, 17, 3⟩
/-- R229, 06_pipeline.md -/
def R.LND_CFG : RegDef := ⟨"LND_CFG", 0xa, 0, 1023, 0x48, 0x0, 1, [
    ⟨F.LND_CFG_ENTRIES, .rw, 0x1, .range 1 64⟩,
    ⟨F.LND_CFG_LAYOUT, .rw, 0x0, .none⟩,
    ⟨F.LND_CFG_CTX, .rw, 0x0, .none⟩,
    ⟨F.LND_CFG_DWIN, .rw, 0x0, .none⟩,
    ⟨F.LND_CFG_SWIN, .rw, 0x0, .none⟩]⟩

def F.LND_BOL_FBOL : FieldRef := ⟨0xa, 0x50, 0x0, 0, 14⟩
def F.LND_BOL_BBOL : FieldRef := ⟨0xa, 0x50, 0x0, 16, 14⟩
def F.LND_BOL_GBOL : FieldRef := ⟨0xa, 0x50, 0x0, 32, 14⟩
/-- R229, 06_pipeline.md -/
def R.LND_BOL : RegDef := ⟨"LND_BOL", 0xa, 0, 1023, 0x50, 0x0, 1, [
    ⟨F.LND_BOL_FBOL, .rw, 0x0, .none⟩,
    ⟨F.LND_BOL_BBOL, .rw, 0x0, .none⟩,
    ⟨F.LND_BOL_GBOL, .rw, 0x0, .none⟩]⟩

def F.LND_BUF_ADDR : FieldRef := ⟨0xa, 0x58, 0x0, 6, 58⟩
/-- R229, 06_pipeline.md -/
def R.LND_BUF : RegDef := ⟨"LND_BUF", 0xa, 0, 1023, 0x58, 0x0, 1, [
    ⟨F.LND_BUF_ADDR, .rw, 0x0, .none⟩]⟩

def F.LND_SLOT_BYTES : FieldRef := ⟨0xa, 0x60, 0x0, 6, 26⟩
/-- R229, 06_pipeline.md -/
def R.LND_SLOT : RegDef := ⟨"LND_SLOT", 0xa, 0, 1023, 0x60, 0x0, 1, [
    ⟨F.LND_SLOT_BYTES, .rw, 0x0, .none⟩]⟩

def F.LND_WOFF_DATA : FieldRef := ⟨0xa, 0x68, 0x0, 0, 32⟩
def F.LND_WOFF_SCALE : FieldRef := ⟨0xa, 0x68, 0x0, 32, 32⟩
/-- R229, 06_pipeline.md -/
def R.LND_WOFF : RegDef := ⟨"LND_WOFF", 0xa, 0, 1023, 0x68, 0x0, 1, [
    ⟨F.LND_WOFF_DATA, .rw, 0x0, .none⟩,
    ⟨F.LND_WOFF_SCALE, .rw, 0x0, .none⟩]⟩

def F.LND_STATUS_FREE : FieldRef := ⟨0xa, 0x70, 0x0, 0, 7⟩
def F.LND_STATUS_FILLING : FieldRef := ⟨0xa, 0x70, 0x0, 8, 7⟩
def F.LND_STATUS_READY : FieldRef := ⟨0xa, 0x70, 0x0, 16, 7⟩
def F.LND_STATUS_TAKEN : FieldRef := ⟨0xa, 0x70, 0x0, 24, 7⟩
/-- R229, 06_pipeline.md -/
def R.LND_STATUS : RegDef := ⟨"LND_STATUS", 0xa, 0, 1023, 0x70, 0x0, 1, [
    ⟨F.LND_STATUS_FREE, .ro, 0x1, .none⟩,
    ⟨F.LND_STATUS_FILLING, .ro, 0x0, .none⟩,
    ⟨F.LND_STATUS_READY, .ro, 0x0, .none⟩,
    ⟨F.LND_STATUS_TAKEN, .ro, 0x0, .none⟩]⟩

def F.LND_LAST_FWD_MB : FieldRef := ⟨0xa, 0x78, 0x0, 0, 24⟩
def F.LND_LAST_BWD_MB : FieldRef := ⟨0xa, 0x78, 0x0, 24, 24⟩
/-- R229, 06_pipeline.md -/
def R.LND_LAST : RegDef := ⟨"LND_LAST", 0xa, 0, 1023, 0x78, 0x0, 1, [
    ⟨F.LND_LAST_FWD_MB, .ro, 0x0, .none⟩,
    ⟨F.LND_LAST_BWD_MB, .ro, 0x0, .none⟩]⟩

def F.LND_DROP_COUNT : FieldRef := ⟨0xa, 0x80, 0x0, 0, 48⟩
/-- R229, 06_pipeline.md -/
def R.LND_DROP : RegDef := ⟨"LND_DROP", 0xa, 0, 1023, 0x80, 0x0, 1, [
    ⟨F.LND_DROP_COUNT, .rc, 0x0, .none⟩]⟩

def F.LND_ERR_COUNT : FieldRef := ⟨0xa, 0x88, 0x0, 0, 48⟩
/-- R229, 06_pipeline.md -/
def R.LND_ERR : RegDef := ⟨"LND_ERR", 0xa, 0, 1023, 0x88, 0x0, 1, [
    ⟨F.LND_ERR_COUNT, .rc, 0x0, .none⟩]⟩

def F.MOR_STATUS_COUNT : FieldRef := ⟨0xb, 0x40, 0x20, 0, 16⟩
def F.MOR_STATUS_LIVE : FieldRef := ⟨0xb, 0x40, 0x20, 16, 1⟩
/-- R231, 06_pipeline.md -/
def R.MOR_STATUS : RegDef := ⟨"MOR_STATUS", 0xb, 0, 1023, 0x40, 0x20, 8, [
    ⟨F.MOR_STATUS_COUNT, .ro, 0x0, .none⟩,
    ⟨F.MOR_STATUS_LIVE, .ro, 0x0, .none⟩]⟩

def F.MOR_CFG_VERSION : FieldRef := ⟨0xb, 0x48, 0x20, 0, 16⟩
def F.MOR_CFG_FORM : FieldRef := ⟨0xb, 0x48, 0x20, 16, 1⟩
def F.MOR_CFG_BASE : FieldRef := ⟨0xb, 0x48, 0x20, 17, 3⟩
def F.MOR_CFG_REL_BOL : FieldRef := ⟨0xb, 0x48, 0x20, 32, 14⟩
/-- R231, 06_pipeline.md -/
def R.MOR_CFG : RegDef := ⟨"MOR_CFG", 0xb, 0, 1023, 0x48, 0x20, 8, [
    ⟨F.MOR_CFG_VERSION, .rw, 0x0, .none⟩,
    ⟨F.MOR_CFG_FORM, .rw, 0x0, .none⟩,
    ⟨F.MOR_CFG_BASE, .rw, 0x0, .none⟩,
    ⟨F.MOR_CFG_REL_BOL, .rw, 0x0, .none⟩]⟩

def F.MOR_AREA_ADDR : FieldRef := ⟨0xb, 0x50, 0x20, 6, 58⟩
/-- R231, 06_pipeline.md -/
def R.MOR_AREA : RegDef := ⟨"MOR_AREA", 0xb, 0, 1023, 0x50, 0x20, 8, [
    ⟨F.MOR_AREA_ADDR, .rw, 0x0, .none⟩]⟩

def F.MOR_CMD_PUBLISH : FieldRef := ⟨0xb, 0x58, 0x20, 0, 1⟩
def F.MOR_CMD_RELEASE : FieldRef := ⟨0xb, 0x58, 0x20, 1, 1⟩
/-- R231, 06_pipeline.md -/
def R.MOR_CMD : RegDef := ⟨"MOR_CMD", 0xb, 0, 1023, 0x58, 0x20, 8, [
    ⟨F.MOR_CMD_PUBLISH, .wo, 0x0, .none⟩,
    ⟨F.MOR_CMD_RELEASE, .wo, 0x0, .none⟩]⟩

def F.MOR_ERR_COUNT : FieldRef := ⟨0xb, 0x140, 0x0, 0, 48⟩
/-- R231, 06_pipeline.md -/
def R.MOR_ERR : RegDef := ⟨"MOR_ERR", 0xb, 0, 1023, 0x140, 0x0, 1, [
    ⟨F.MOR_ERR_COUNT, .rc, 0x0, .none⟩]⟩

def F.DEF_CFG_ENABLE : FieldRef := ⟨0xc, 0x40, 0x0, 0, 1⟩
def F.DEF_CFG_FILL_EN : FieldRef := ⟨0xc, 0x40, 0x0, 1, 1⟩
def F.DEF_CFG_MAIN : FieldRef := ⟨0xc, 0x40, 0x0, 2, 14⟩
def F.DEF_CFG_GSTAGE : FieldRef := ⟨0xc, 0x40, 0x0, 16, 12⟩
def F.DEF_CFG_CTX : FieldRef := ⟨0xc, 0x40, 0x0, 28, 6⟩
/-- R233, 06_pipeline.md -/
def R.DEF_CFG : RegDef := ⟨"DEF_CFG", 0xc, 0, 1023, 0x40, 0x0, 1, [
    ⟨F.DEF_CFG_ENABLE, .rw, 0x0, .none⟩,
    ⟨F.DEF_CFG_FILL_EN, .rw, 0x1, .none⟩,
    ⟨F.DEF_CFG_MAIN, .rw, 0x0, .none⟩,
    ⟨F.DEF_CFG_GSTAGE, .rw, 0x0, .none⟩,
    ⟨F.DEF_CFG_CTX, .rw, 0x0, .none⟩]⟩

def F.DEF_SITES_MASK : FieldRef := ⟨0xc, 0x48, 0x0, 0, 64⟩
/-- R233, 06_pipeline.md -/
def R.DEF_SITES : RegDef := ⟨"DEF_SITES", 0xc, 0, 1023, 0x48, 0x0, 1, [
    ⟨F.DEF_SITES_MASK, .rw, 0x0, .none⟩]⟩

def F.DEF_FILL_MIN_WAIT_CLK : FieldRef := ⟨0xc, 0x50, 0x0, 0, 16⟩
/-- R233, 06_pipeline.md -/
def R.DEF_FILL : RegDef := ⟨"DEF_FILL", 0xc, 0, 1023, 0x50, 0x0, 1, [
    ⟨F.DEF_FILL_MIN_WAIT_CLK, .rw, 0x0, .none⟩]⟩

def F.DEF_STATUS_DEPTH : FieldRef := ⟨0xc, 0x58, 0x0, 0, 6⟩
def F.DEF_STATUS_FILLING : FieldRef := ⟨0xc, 0x58, 0x0, 6, 1⟩
def F.DEF_STATUS_DRAINING : FieldRef := ⟨0xc, 0x58, 0x0, 7, 1⟩
/-- R233, 06_pipeline.md -/
def R.DEF_STATUS : RegDef := ⟨"DEF_STATUS", 0xc, 0, 1023, 0x58, 0x0, 1, [
    ⟨F.DEF_STATUS_DEPTH, .ro, 0x0, .none⟩,
    ⟨F.DEF_STATUS_FILLING, .ro, 0x0, .none⟩,
    ⟨F.DEF_STATUS_DRAINING, .ro, 0x0, .none⟩]⟩

def F.DEF_FILLS_COUNT : FieldRef := ⟨0xc, 0x60, 0x0, 0, 48⟩
/-- R233, 06_pipeline.md -/
def R.DEF_FILLS : RegDef := ⟨"DEF_FILLS", 0xc, 0, 1023, 0x60, 0x0, 1, [
    ⟨F.DEF_FILLS_COUNT, .rc, 0x0, .none⟩]⟩

def F.DEF_FORCED_COUNT : FieldRef := ⟨0xc, 0x68, 0x0, 0, 48⟩
/-- R233, 06_pipeline.md -/
def R.DEF_FORCED : RegDef := ⟨"DEF_FORCED", 0xc, 0, 1023, 0x68, 0x0, 1, [
    ⟨F.DEF_FORCED_COUNT, .rc, 0x0, .none⟩]⟩

def F.PHT_RING_BASE : FieldRef := ⟨0xd, 0x40, 0x0, 5, 59⟩
/-- R235, 06_pipeline.md -/
def R.PHT_RING : RegDef := ⟨"PHT_RING", 0xd, 0, 1023, 0x40, 0x0, 1, [
    ⟨F.PHT_RING_BASE, .rw, 0x0, .none⟩]⟩

def F.PHT_LEN_LEN : FieldRef := ⟨0xd, 0x48, 0x0, 0, 16⟩
def F.PHT_LEN_WIDX : FieldRef := ⟨0xd, 0x48, 0x0, 32, 16⟩
/-- R235, 06_pipeline.md -/
def R.PHT_LEN : RegDef := ⟨"PHT_LEN", 0xd, 0, 1023, 0x48, 0x0, 1, [
    ⟨F.PHT_LEN_LEN, .rw, 0x0, .none⟩,
    ⟨F.PHT_LEN_WIDX, .ro, 0x0, .none⟩]⟩

def F.PHT_CFG_AUTO : FieldRef := ⟨0xd, 0x50, 0x0, 0, 1⟩
/-- R235, 06_pipeline.md -/
def R.PHT_CFG : RegDef := ⟨"PHT_CFG", 0xd, 0, 1023, 0x50, 0x0, 1, [
    ⟨F.PHT_CFG_AUTO, .rw, 0x1, .none⟩]⟩

def F.PON_CTRL_ENABLE : FieldRef := ⟨0xe, 0x40, 0x0, 0, 1⟩
def F.PON_CTRL_RESET : FieldRef := ⟨0xe, 0x40, 0x0, 1, 1⟩
/-- R262, 07_collectives.md -/
def R.PON_CTRL : RegDef := ⟨"PON_CTRL", 0xe, 0, 1023, 0x40, 0x0, 1, [
    ⟨F.PON_CTRL_ENABLE, .rw, 0x0, .none⟩,
    ⟨F.PON_CTRL_RESET, .wo, 0x0, .none⟩]⟩

def F.PON_CFG_OP : FieldRef := ⟨0xe, 0x48, 0x0, 0, 2⟩
def F.PON_CFG_FORMAT : FieldRef := ⟨0xe, 0x48, 0x0, 2, 3⟩
def F.PON_CFG_ORDERED : FieldRef := ⟨0xe, 0x48, 0x0, 5, 1⟩
def F.PON_CFG_PRIO : FieldRef := ⟨0xe, 0x48, 0x0, 6, 4⟩
def F.PON_CFG_CTX : FieldRef := ⟨0xe, 0x48, 0x0, 10, 6⟩
def F.PON_CFG_EXPECT : FieldRef := ⟨0xe, 0x48, 0x0, 16, 12⟩
/-- R262, 07_collectives.md -/
def R.PON_CFG : RegDef := ⟨"PON_CFG", 0xe, 0, 1023, 0x48, 0x0, 1, [
    ⟨F.PON_CFG_OP, .rw, 0x0, .none⟩,
    ⟨F.PON_CFG_FORMAT, .rw, 0x1, .enum 4 1⟩,
    ⟨F.PON_CFG_ORDERED, .rw, 0x0, .none⟩,
    ⟨F.PON_CFG_PRIO, .rw, 0x0, .none⟩,
    ⟨F.PON_CFG_CTX, .rw, 0x0, .none⟩,
    ⟨F.PON_CFG_EXPECT, .rw, 0x1, .range 1 4095⟩]⟩

def F.PON_BUF_ADDR : FieldRef := ⟨0xe, 0x50, 0x0, 6, 58⟩
/-- R262, 07_collectives.md -/
def R.PON_BUF : RegDef := ⟨"PON_BUF", 0xe, 0, 1023, 0x50, 0x0, 1, [
    ⟨F.PON_BUF_ADDR, .rw, 0x0, .none⟩]⟩

def F.PON_ENTRY_BYTES64 : FieldRef := ⟨0xe, 0x58, 0x0, 0, 17⟩
def F.PON_ENTRY_DEPTH : FieldRef := ⟨0xe, 0x58, 0x0, 32, 4⟩
/-- R262, 07_collectives.md -/
def R.PON_ENTRY : RegDef := ⟨"PON_ENTRY", 0xe, 0, 1023, 0x58, 0x0, 1, [
    ⟨F.PON_ENTRY_BYTES64, .rw, 0x1, .range 1 65536⟩,
    ⟨F.PON_ENTRY_DEPTH, .rw, 0x1, .range 1 8⟩]⟩

def F.PON_BOL_BOLLARD : FieldRef := ⟨0xe, 0x60, 0x0, 0, 14⟩
def F.PON_BOL_INCREMENT : FieldRef := ⟨0xe, 0x60, 0x0, 16, 16⟩
def F.PON_BOL_ROUND_BASE : FieldRef := ⟨0xe, 0x60, 0x0, 32, 24⟩
/-- R262, 07_collectives.md -/
def R.PON_BOL : RegDef := ⟨"PON_BOL", 0xe, 0, 1023, 0x60, 0x0, 1, [
    ⟨F.PON_BOL_BOLLARD, .rw, 0x0, .none⟩,
    ⟨F.PON_BOL_INCREMENT, .rw, 0x1, .none⟩,
    ⟨F.PON_BOL_ROUND_BASE, .rw, 0x0, .none⟩]⟩

def F.PON_STATUS_NEXT_ROUND : FieldRef := ⟨0xe, 0x68, 0x0, 0, 24⟩
def F.PON_STATUS_READY : FieldRef := ⟨0xe, 0x68, 0x0, 24, 4⟩
def F.PON_STATUS_COLLECTING : FieldRef := ⟨0xe, 0x68, 0x0, 28, 4⟩
def F.PON_STATUS_APPLIED : FieldRef := ⟨0xe, 0x68, 0x0, 32, 12⟩
/-- R262, 07_collectives.md -/
def R.PON_STATUS : RegDef := ⟨"PON_STATUS", 0xe, 0, 1023, 0x68, 0x0, 1, [
    ⟨F.PON_STATUS_NEXT_ROUND, .ro, 0x0, .none⟩,
    ⟨F.PON_STATUS_READY, .ro, 0x0, .none⟩,
    ⟨F.PON_STATUS_COLLECTING, .ro, 0x0, .none⟩,
    ⟨F.PON_STATUS_APPLIED, .ro, 0x0, .none⟩]⟩

def F.PON_LAST_TAKE_TIDE : FieldRef := ⟨0xe, 0x70, 0x0, 0, 64⟩
/-- R262, 07_collectives.md -/
def R.PON_LAST_TAKE : RegDef := ⟨"PON_LAST_TAKE", 0xe, 0, 1023, 0x70, 0x0, 1, [
    ⟨F.PON_LAST_TAKE_TIDE, .ro, 0x0, .none⟩]⟩

def F.PON_APPLIED_COUNT : FieldRef := ⟨0xe, 0x78, 0x0, 0, 48⟩
/-- R262, 07_collectives.md -/
def R.PON_APPLIED : RegDef := ⟨"PON_APPLIED", 0xe, 0, 1023, 0x78, 0x0, 1, [
    ⟨F.PON_APPLIED_COUNT, .rc, 0x0, .none⟩]⟩

def F.PON_SAT_COUNT : FieldRef := ⟨0xe, 0x80, 0x0, 0, 48⟩
/-- R262, 07_collectives.md -/
def R.PON_SAT : RegDef := ⟨"PON_SAT", 0xe, 0, 1023, 0x80, 0x0, 1, [
    ⟨F.PON_SAT_COUNT, .rc, 0x0, .none⟩]⟩

def F.PON_WRAP_COUNT : FieldRef := ⟨0xe, 0x88, 0x0, 0, 48⟩
/-- R262, 07_collectives.md -/
def R.PON_WRAP : RegDef := ⟨"PON_WRAP", 0xe, 0, 1023, 0x88, 0x0, 1, [
    ⟨F.PON_WRAP_COUNT, .rc, 0x0, .none⟩]⟩

def F.PON_POISON_COUNT : FieldRef := ⟨0xe, 0x90, 0x0, 0, 48⟩
/-- R262, 07_collectives.md -/
def R.PON_POISON : RegDef := ⟨"PON_POISON", 0xe, 0, 1023, 0x90, 0x0, 1, [
    ⟨F.PON_POISON_COUNT, .rc, 0x0, .none⟩]⟩

def F.PON_ERR_COUNT : FieldRef := ⟨0xe, 0x98, 0x0, 0, 48⟩
/-- R262, 07_collectives.md -/
def R.PON_ERR : RegDef := ⟨"PON_ERR", 0xe, 0, 1023, 0x98, 0x0, 1, [
    ⟨F.PON_ERR_COUNT, .rc, 0x0, .none⟩]⟩

def F.PON_JOB_ENABLE : FieldRef := ⟨0xe, 0x40, 0x40, 0, 1⟩
def F.PON_JOB_CTX : FieldRef := ⟨0xe, 0x40, 0x40, 1, 6⟩
def F.PON_JOB_SEQ_POS : FieldRef := ⟨0xe, 0x40, 0x40, 8, 8⟩
def F.PON_JOB_SEQ_SIZE : FieldRef := ⟨0xe, 0x40, 0x40, 16, 9⟩
def F.PON_JOB_JOB : FieldRef := ⟨0xe, 0x40, 0x40, 32, 16⟩
/-- R264, 07_collectives.md -/
def R.PON_JOB : RegDef := ⟨"PON_JOB", 0xe, 432, 432, 0x40, 0x40, 4, [
    ⟨F.PON_JOB_ENABLE, .rw, 0x0, .none⟩,
    ⟨F.PON_JOB_CTX, .rw, 0x0, .none⟩,
    ⟨F.PON_JOB_SEQ_POS, .rw, 0x0, .none⟩,
    ⟨F.PON_JOB_SEQ_SIZE, .rw, 0x1, .range 1 256⟩,
    ⟨F.PON_JOB_JOB, .rw, 0x0, .none⟩]⟩

def F.PON_VETO_TREE_CHILDREN : FieldRef := ⟨0xe, 0x48, 0x40, 0, 48⟩
def F.PON_VETO_TREE_PARENT : FieldRef := ⟨0xe, 0x48, 0x40, 48, 6⟩
def F.PON_VETO_TREE_ROOT : FieldRef := ⟨0xe, 0x48, 0x40, 54, 1⟩
/-- R264, 07_collectives.md -/
def R.PON_VETO_TREE : RegDef := ⟨"PON_VETO_TREE", 0xe, 432, 432, 0x48, 0x40, 4, [
    ⟨F.PON_VETO_TREE_CHILDREN, .rw, 0x0, .none⟩,
    ⟨F.PON_VETO_TREE_PARENT, .rw, 0x0, .range 0 47⟩,
    ⟨F.PON_VETO_TREE_ROOT, .rw, 0x1, .none⟩]⟩

def F.PON_VETO_CFG_MEMBERS : FieldRef := ⟨0xe, 0x50, 0x40, 0, 16⟩
def F.PON_VETO_CFG_WINDOW_US : FieldRef := ⟨0xe, 0x50, 0x40, 16, 16⟩
def F.PON_VETO_CFG_BOLLARD : FieldRef := ⟨0xe, 0x50, 0x40, 32, 14⟩
/-- R264, 07_collectives.md -/
def R.PON_VETO_CFG : RegDef := ⟨"PON_VETO_CFG", 0xe, 432, 432, 0x50, 0x40, 4, [
    ⟨F.PON_VETO_CFG_MEMBERS, .rw, 0x1, .range 1 65535⟩,
    ⟨F.PON_VETO_CFG_WINDOW_US, .rw, 0x7d0, .range 1 65535⟩,
    ⟨F.PON_VETO_CFG_BOLLARD, .rw, 0x0, .none⟩]⟩

def F.PON_VETO_REC_ADDR : FieldRef := ⟨0xe, 0x58, 0x40, 4, 60⟩
/-- R264, 07_collectives.md -/
def R.PON_VETO_REC : RegDef := ⟨"PON_VETO_REC", 0xe, 432, 432, 0x58, 0x40, 4, [
    ⟨F.PON_VETO_REC_ADDR, .rw, 0x0, .none⟩]⟩

def F.PON_VETO_CLOSE_STEP : FieldRef := ⟨0xe, 0x60, 0x40, 0, 32⟩
/-- R264, 07_collectives.md -/
def R.PON_VETO_CLOSE : RegDef := ⟨"PON_VETO_CLOSE", 0xe, 432, 432, 0x60, 0x40, 4, [
    ⟨F.PON_VETO_CLOSE_STEP, .wo, 0x0, .none⟩]⟩

def F.PON_VETO_STATUS_STEP : FieldRef := ⟨0xe, 0x68, 0x40, 0, 32⟩
def F.PON_VETO_STATUS_STATE : FieldRef := ⟨0xe, 0x68, 0x40, 32, 3⟩
def F.PON_VETO_STATUS_LATE : FieldRef := ⟨0xe, 0x68, 0x40, 35, 1⟩
def F.PON_VETO_STATUS_LATE_RESULT : FieldRef := ⟨0xe, 0x68, 0x40, 36, 1⟩
def F.PON_VETO_STATUS_LATE_VETO : FieldRef := ⟨0xe, 0x68, 0x40, 37, 1⟩
def F.PON_VETO_STATUS_AFTER_CLOSE : FieldRef := ⟨0xe, 0x68, 0x40, 38, 1⟩
def F.PON_VETO_STATUS_COUNT_MISMATCH : FieldRef := ⟨0xe, 0x68, 0x40, 39, 1⟩
def F.PON_VETO_STATUS_CHILDREN_IN : FieldRef := ⟨0xe, 0x68, 0x40, 40, 16⟩
/-- R264, 07_collectives.md -/
def R.PON_VETO_STATUS : RegDef := ⟨"PON_VETO_STATUS", 0xe, 432, 432, 0x68, 0x40, 4, [
    ⟨F.PON_VETO_STATUS_STEP, .ro, 0x0, .none⟩,
    ⟨F.PON_VETO_STATUS_STATE, .ro, 0x0, .none⟩,
    ⟨F.PON_VETO_STATUS_LATE, .ro, 0x0, .none⟩,
    ⟨F.PON_VETO_STATUS_LATE_RESULT, .ro, 0x0, .none⟩,
    ⟨F.PON_VETO_STATUS_LATE_VETO, .ro, 0x0, .none⟩,
    ⟨F.PON_VETO_STATUS_AFTER_CLOSE, .ro, 0x0, .none⟩,
    ⟨F.PON_VETO_STATUS_COUNT_MISMATCH, .ro, 0x0, .none⟩,
    ⟨F.PON_VETO_STATUS_CHILDREN_IN, .ro, 0x0, .none⟩]⟩

def F.PON_VETO_CMD_COMMIT : FieldRef := ⟨0xe, 0x70, 0x40, 0, 1⟩
def F.PON_VETO_CMD_DISCARD : FieldRef := ⟨0xe, 0x70, 0x40, 1, 1⟩
/-- R264, 07_collectives.md -/
def R.PON_VETO_CMD : RegDef := ⟨"PON_VETO_CMD", 0xe, 432, 432, 0x70, 0x40, 4, [
    ⟨F.PON_VETO_CMD_COMMIT, .wo, 0x0, .none⟩,
    ⟨F.PON_VETO_CMD_DISCARD, .wo, 0x0, .none⟩]⟩

def F.PON_VETO_HOLDS_COUNT : FieldRef := ⟨0xe, 0x78, 0x40, 0, 48⟩
/-- R264, 07_collectives.md -/
def R.PON_VETO_HOLDS : RegDef := ⟨"PON_VETO_HOLDS", 0xe, 432, 432, 0x78, 0x40, 4, [
    ⟨F.PON_VETO_HOLDS_COUNT, .rc, 0x0, .none⟩]⟩

def F.CTX_SEG_BASE_ENABLE : FieldRef := ⟨0x17, 0x400, 0x20, 0, 1⟩
def F.CTX_SEG_BASE_R : FieldRef := ⟨0x17, 0x400, 0x20, 1, 1⟩
def F.CTX_SEG_BASE_W : FieldRef := ⟨0x17, 0x400, 0x20, 2, 1⟩
def F.CTX_SEG_BASE_A : FieldRef := ⟨0x17, 0x400, 0x20, 3, 1⟩
def F.CTX_SEG_BASE_KIND : FieldRef := ⟨0x17, 0x400, 0x20, 4, 1⟩
def F.CTX_SEG_BASE_BASE : FieldRef := ⟨0x17, 0x400, 0x20, 12, 52⟩
/-- R278, 08_memory.md -/
def R.CTX_SEG_BASE : RegDef := ⟨"CTX_SEG_BASE", 0x17, 0, 1023, 0x400, 0x20, 64, [
    ⟨F.CTX_SEG_BASE_ENABLE, .rw, 0x0, .none⟩,
    ⟨F.CTX_SEG_BASE_R, .rw, 0x0, .none⟩,
    ⟨F.CTX_SEG_BASE_W, .rw, 0x0, .none⟩,
    ⟨F.CTX_SEG_BASE_A, .rw, 0x0, .none⟩,
    ⟨F.CTX_SEG_BASE_KIND, .rw, 0x0, .none⟩,
    ⟨F.CTX_SEG_BASE_BASE, .rw, 0x0, .none⟩]⟩

def F.CTX_SEG_LIMIT_LIMIT : FieldRef := ⟨0x17, 0x408, 0x20, 12, 52⟩
/-- R278, 08_memory.md -/
def R.CTX_SEG_LIMIT : RegDef := ⟨"CTX_SEG_LIMIT", 0x17, 0, 1023, 0x408, 0x20, 64, [
    ⟨F.CTX_SEG_LIMIT_LIMIT, .rw, 0x0, .none⟩]⟩

def F.CTX_SEG_MAP_PART : FieldRef := ⟨0x17, 0x410, 0x20, 0, 4⟩
def F.CTX_SEG_MAP_POFF : FieldRef := ⟨0x17, 0x410, 0x20, 12, 52⟩
/-- R278, 08_memory.md -/
def R.CTX_SEG_MAP : RegDef := ⟨"CTX_SEG_MAP", 0x17, 0, 1023, 0x410, 0x20, 64, [
    ⟨F.CTX_SEG_MAP_PART, .rw, 0x0, .none⟩,
    ⟨F.CTX_SEG_MAP_POFF, .rw, 0x0, .none⟩]⟩

/-- R278, 08_memory.md -/
def R.CTX_SEG_RSV : RegDef := ⟨"CTX_SEG_RSV", 0x17, 0, 1023, 0x418, 0x20, 64, [
    ]⟩

def F.SRM_BANK_STATES : FieldRef := ⟨0x6, 0x40, 0x8, 0, 64⟩
/-- R299, 08_memory.md -/
def R.SRM_BANK : RegDef := ⟨"SRM_BANK", 0x6, 0, 1023, 0x40, 0x8, 8, [
    ⟨F.SRM_BANK_STATES, .rw, 0x0, .none⟩]⟩

def F.SRM_ECC_FIX_ON_READ : FieldRef := ⟨0x6, 0x80, 0x0, 0, 1⟩
/-- R299, 08_memory.md -/
def R.SRM_ECC : RegDef := ⟨"SRM_ECC", 0x6, 0, 1023, 0x80, 0x0, 1, [
    ⟨F.SRM_ECC_FIX_ON_READ, .rw, 0x1, .none⟩]⟩

def F.SRM_SCRUB_EN : FieldRef := ⟨0x6, 0x88, 0x0, 0, 1⟩
def F.SRM_SCRUB_INTERVAL : FieldRef := ⟨0x6, 0x88, 0x0, 8, 24⟩
/-- R299, 08_memory.md -/
def R.SRM_SCRUB : RegDef := ⟨"SRM_SCRUB", 0x6, 0, 1023, 0x88, 0x0, 1, [
    ⟨F.SRM_SCRUB_EN, .rw, 0x1, .none⟩,
    ⟨F.SRM_SCRUB_INTERVAL, .rw, 0x4000, .range 64 16777215⟩]⟩

def F.SRM_CE_COUNT : FieldRef := ⟨0x6, 0x90, 0x0, 0, 48⟩
/-- R299, 08_memory.md -/
def R.SRM_CE : RegDef := ⟨"SRM_CE", 0x6, 0, 1023, 0x90, 0x0, 1, [
    ⟨F.SRM_CE_COUNT, .rc, 0x0, .none⟩]⟩

def F.SRM_UE_COUNT : FieldRef := ⟨0x6, 0x98, 0x0, 0, 48⟩
/-- R299, 08_memory.md -/
def R.SRM_UE : RegDef := ⟨"SRM_UE", 0x6, 0, 1023, 0x98, 0x0, 1, [
    ⟨F.SRM_UE_COUNT, .rc, 0x0, .none⟩]⟩

def F.SRM_UE_ADDR_ADDR : FieldRef := ⟨0x6, 0xa0, 0x0, 0, 64⟩
/-- R299, 08_memory.md -/
def R.SRM_UE_ADDR : RegDef := ⟨"SRM_UE_ADDR", 0x6, 0, 1023, 0xa0, 0x0, 1, [
    ⟨F.SRM_UE_ADDR_ADDR, .ro, 0x0, .none⟩]⟩

def F.SRM_ASLEEP_ADDR_ADDR : FieldRef := ⟨0x6, 0xa8, 0x0, 0, 64⟩
/-- R299, 08_memory.md -/
def R.SRM_ASLEEP_ADDR : RegDef := ⟨"SRM_ASLEEP_ADDR", 0x6, 0, 1023, 0xa8, 0x0, 1, [
    ⟨F.SRM_ASLEEP_ADDR_ADDR, .ro, 0x0, .none⟩]⟩

def F.SRM_SCRUB_PASSES_COUNT : FieldRef := ⟨0x6, 0xb0, 0x0, 0, 48⟩
/-- R299, 08_memory.md -/
def R.SRM_SCRUB_PASSES : RegDef := ⟨"SRM_SCRUB_PASSES", 0x6, 0, 1023, 0xb0, 0x0, 1, [
    ⟨F.SRM_SCRUB_PASSES_COUNT, .ro, 0x0, .none⟩]⟩

def F.SRM_HUBMEM_SIZE : FieldRef := ⟨0x6, 0xc0, 0x0, 0, 4⟩
/-- R299, 08_memory.md -/
def R.SRM_HUBMEM : RegDef := ⟨"SRM_HUBMEM", 0x6, 0, 1023, 0xc0, 0x0, 1, [
    ⟨F.SRM_HUBMEM_SIZE, .rw, 0x0, .range 0 12⟩]⟩

def F.SRM_SECURE_WIPE_BUSY : FieldRef := ⟨0x6, 0xc8, 0x0, 0, 1⟩
def F.SRM_SECURE_WIPES : FieldRef := ⟨0x6, 0xc8, 0x0, 16, 32⟩
/-- R299, 08_memory.md -/
def R.SRM_SECURE : RegDef := ⟨"SRM_SECURE", 0x6, 0, 1023, 0xc8, 0x0, 1, [
    ⟨F.SRM_SECURE_WIPE_BUSY, .ro, 0x0, .none⟩,
    ⟨F.SRM_SECURE_WIPES, .ro, 0x0, .none⟩]⟩

def F.SRM_SECURE_DENY_COUNT : FieldRef := ⟨0x6, 0xd0, 0x0, 0, 48⟩
/-- R299, 08_memory.md -/
def R.SRM_SECURE_DENY : RegDef := ⟨"SRM_SECURE_DENY", 0x6, 0, 1023, 0xd0, 0x0, 1, [
    ⟨F.SRM_SECURE_DENY_COUNT, .rc, 0x0, .none⟩]⟩

def F.HBM_CTRL_OFFLINE : FieldRef := ⟨0x11, 0x40, 0x0, 0, 1⟩
/-- R301, 08_memory.md -/
def R.HBM_CTRL : RegDef := ⟨"HBM_CTRL", 0x11, 0, 1023, 0x40, 0x0, 1, [
    ⟨F.HBM_CTRL_OFFLINE, .rw, 0x0, .none⟩]⟩

def F.HBM_STATUS_OFFLINE_ACK : FieldRef := ⟨0x11, 0x48, 0x0, 0, 1⟩
def F.HBM_STATUS_TEMP : FieldRef := ⟨0x11, 0x48, 0x0, 8, 8⟩
def F.HBM_STATUS_THERM : FieldRef := ⟨0x11, 0x48, 0x0, 16, 2⟩
def F.HBM_STATUS_REFRESH : FieldRef := ⟨0x11, 0x48, 0x0, 18, 2⟩
/-- R301, 08_memory.md -/
def R.HBM_STATUS : RegDef := ⟨"HBM_STATUS", 0x11, 0, 1023, 0x48, 0x0, 1, [
    ⟨F.HBM_STATUS_OFFLINE_ACK, .ro, 0x0, .none⟩,
    ⟨F.HBM_STATUS_TEMP, .ro, 0x0, .none⟩,
    ⟨F.HBM_STATUS_THERM, .ro, 0x0, .none⟩,
    ⟨F.HBM_STATUS_REFRESH, .ro, 0x0, .none⟩]⟩

def F.HBM_THERM_MODE : FieldRef := ⟨0x11, 0x50, 0x0, 0, 2⟩
def F.HBM_THERM_T_LO : FieldRef := ⟨0x11, 0x50, 0x0, 8, 8⟩
def F.HBM_THERM_T_HI : FieldRef := ⟨0x11, 0x50, 0x0, 16, 8⟩
def F.HBM_THERM_T_CRIT : FieldRef := ⟨0x11, 0x50, 0x0, 24, 8⟩
def F.HBM_THERM_FRAC : FieldRef := ⟨0x11, 0x50, 0x0, 32, 9⟩
/-- R301, 08_memory.md -/
def R.HBM_THERM : RegDef := ⟨"HBM_THERM", 0x11, 0, 1023, 0x50, 0x0, 1, [
    ⟨F.HBM_THERM_MODE, .rw, 0x2, .enum 2 2⟩,
    ⟨F.HBM_THERM_T_LO, .rw, 0x50, .none⟩,
    ⟨F.HBM_THERM_T_HI, .rw, 0x55, .range 60 94⟩,
    ⟨F.HBM_THERM_T_CRIT, .rw, 0x69, .range 96 105⟩,
    ⟨F.HBM_THERM_FRAC, .rw, 0x80, .range 1 256⟩]⟩

def F.HBM_LANES_USED : FieldRef := ⟨0x11, 0x58, 0x0, 0, 8⟩
def F.HBM_LANES_LEFT : FieldRef := ⟨0x11, 0x58, 0x0, 8, 8⟩
/-- R301, 08_memory.md -/
def R.HBM_LANES : RegDef := ⟨"HBM_LANES", 0x11, 0, 1023, 0x58, 0x0, 1, [
    ⟨F.HBM_LANES_USED, .ro, 0x0, .none⟩,
    ⟨F.HBM_LANES_LEFT, .ro, 0x0, .none⟩]⟩

def F.HBM_CE_COUNT : FieldRef := ⟨0x11, 0x60, 0x0, 0, 48⟩
/-- R301, 08_memory.md -/
def R.HBM_CE : RegDef := ⟨"HBM_CE", 0x11, 0, 1023, 0x60, 0x0, 1, [
    ⟨F.HBM_CE_COUNT, .rc, 0x0, .none⟩]⟩

def F.HBM_UE_COUNT : FieldRef := ⟨0x11, 0x68, 0x0, 0, 48⟩
/-- R301, 08_memory.md -/
def R.HBM_UE : RegDef := ⟨"HBM_UE", 0x11, 0, 1023, 0x68, 0x0, 1, [
    ⟨F.HBM_UE_COUNT, .rc, 0x0, .none⟩]⟩

def F.HBM_UE_ADDR_ADDR : FieldRef := ⟨0x11, 0x70, 0x0, 0, 64⟩
/-- R301, 08_memory.md -/
def R.HBM_UE_ADDR : RegDef := ⟨"HBM_UE_ADDR", 0x11, 0, 1023, 0x70, 0x0, 1, [
    ⟨F.HBM_UE_ADDR_ADDR, .ro, 0x0, .none⟩]⟩

def F.HBM_RETIRE_REQ_PAGE : FieldRef := ⟨0x11, 0x78, 0x0, 12, 24⟩
def F.HBM_RETIRE_REQ_VALID : FieldRef := ⟨0x11, 0x78, 0x0, 63, 1⟩
/-- R301, 08_memory.md -/
def R.HBM_RETIRE_REQ : RegDef := ⟨"HBM_RETIRE_REQ", 0x11, 0, 1023, 0x78, 0x0, 1, [
    ⟨F.HBM_RETIRE_REQ_PAGE, .rc, 0x0, .none⟩,
    ⟨F.HBM_RETIRE_REQ_VALID, .rc, 0x0, .none⟩]⟩

def F.HBM_RETIRE_SEL_ENTRY : FieldRef := ⟨0x11, 0x80, 0x0, 0, 10⟩
/-- R301, 08_memory.md -/
def R.HBM_RETIRE_SEL : RegDef := ⟨"HBM_RETIRE_SEL", 0x11, 0, 1023, 0x80, 0x0, 1, [
    ⟨F.HBM_RETIRE_SEL_ENTRY, .rw, 0x0, .none⟩]⟩

def F.HBM_RETIRE_PAGE : FieldRef := ⟨0x11, 0x88, 0x0, 0, 24⟩
def F.HBM_RETIRE_REPL : FieldRef := ⟨0x11, 0x88, 0x0, 24, 24⟩
def F.HBM_RETIRE_VALID : FieldRef := ⟨0x11, 0x88, 0x0, 63, 1⟩
/-- R301, 08_memory.md -/
def R.HBM_RETIRE : RegDef := ⟨"HBM_RETIRE", 0x11, 0, 1023, 0x88, 0x0, 1, [
    ⟨F.HBM_RETIRE_PAGE, .rw, 0x0, .range 0 9437183⟩,
    ⟨F.HBM_RETIRE_REPL, .rw, 0x0, .range 0 9437183⟩,
    ⟨F.HBM_RETIRE_VALID, .rw, 0x0, .none⟩]⟩

def F.HBM_RETIRE_CMD_COMMIT : FieldRef := ⟨0x11, 0x90, 0x0, 0, 1⟩
/-- R301, 08_memory.md -/
def R.HBM_RETIRE_CMD : RegDef := ⟨"HBM_RETIRE_CMD", 0x11, 0, 1023, 0x90, 0x0, 1, [
    ⟨F.HBM_RETIRE_CMD_COMMIT, .wo, 0x0, .none⟩]⟩

def F.HBM_PARITY_RETRY_COUNT : FieldRef := ⟨0x11, 0x98, 0x0, 0, 48⟩
/-- R301, 08_memory.md -/
def R.HBM_PARITY_RETRY : RegDef := ⟨"HBM_PARITY_RETRY", 0x11, 0, 1023, 0x98, 0x0, 1, [
    ⟨F.HBM_PARITY_RETRY_COUNT, .rc, 0x0, .none⟩]⟩

def F.HBM_RFM_COUNT : FieldRef := ⟨0x11, 0xa0, 0x0, 0, 48⟩
/-- R301, 08_memory.md -/
def R.HBM_RFM : RegDef := ⟨"HBM_RFM", 0x11, 0, 1023, 0xa0, 0x0, 1, [
    ⟨F.HBM_RFM_COUNT, .rc, 0x0, .none⟩]⟩

def F.HBM_OFFLINE_HITS_COUNT : FieldRef := ⟨0x11, 0xa8, 0x0, 0, 48⟩
/-- R301, 08_memory.md -/
def R.HBM_OFFLINE_HITS : RegDef := ⟨"HBM_OFFLINE_HITS", 0x11, 0, 1023, 0xa8, 0x0, 1, [
    ⟨F.HBM_OFFLINE_HITS_COUNT, .rc, 0x0, .none⟩]⟩

def F.HBM_MARGIN_LANE : FieldRef := ⟨0x11, 0xb0, 0x0, 0, 11⟩
def F.HBM_MARGIN_DELAY : FieldRef := ⟨0x11, 0xb0, 0x0, 16, 6⟩
def F.HBM_MARGIN_VREF : FieldRef := ⟨0x11, 0xb0, 0x0, 24, 6⟩
def F.HBM_MARGIN_SECTORS : FieldRef := ⟨0x11, 0xb0, 0x0, 32, 24⟩
def F.HBM_MARGIN_RUN : FieldRef := ⟨0x11, 0xb0, 0x0, 63, 1⟩
/-- R301, 08_memory.md -/
def R.HBM_MARGIN : RegDef := ⟨"HBM_MARGIN", 0x11, 0, 1023, 0xb0, 0x0, 1, [
    ⟨F.HBM_MARGIN_LANE, .rw, 0x0, .range 0 2047⟩,
    ⟨F.HBM_MARGIN_DELAY, .rw, 0x0, .none⟩,
    ⟨F.HBM_MARGIN_VREF, .rw, 0x0, .none⟩,
    ⟨F.HBM_MARGIN_SECTORS, .rw, 0x1000, .range 1 16384⟩,
    ⟨F.HBM_MARGIN_RUN, .rw, 0x0, .none⟩]⟩

def F.HBM_MARGIN_ERR_COUNT : FieldRef := ⟨0x11, 0xb8, 0x0, 0, 48⟩
/-- R301, 08_memory.md -/
def R.HBM_MARGIN_ERR : RegDef := ⟨"HBM_MARGIN_ERR", 0x11, 0, 1023, 0xb8, 0x0, 1, [
    ⟨F.HBM_MARGIN_ERR_COUNT, .ro, 0x0, .none⟩]⟩

def F.BLK_CFG_ILV : FieldRef := ⟨0x12, 0x50, 0x0, 0, 3⟩
/-- R303, 08_memory.md -/
def R.BLK_CFG : RegDef := ⟨"BLK_CFG", 0x12, 0, 1023, 0x50, 0x0, 1, [
    ⟨F.BLK_CFG_ILV, .rw, 0x0, .range 0 4⟩]⟩

def F.BLK_SCRUB_EN : FieldRef := ⟨0x12, 0x58, 0x0, 0, 1⟩
def F.BLK_SCRUB_INTERVAL : FieldRef := ⟨0x12, 0x58, 0x0, 8, 24⟩
/-- R303, 08_memory.md -/
def R.BLK_SCRUB : RegDef := ⟨"BLK_SCRUB", 0x12, 0, 1023, 0x58, 0x0, 1, [
    ⟨F.BLK_SCRUB_EN, .rw, 0x1, .none⟩,
    ⟨F.BLK_SCRUB_INTERVAL, .rw, 0x1000, .range 256 16777215⟩]⟩

def F.BLK_LINK_CE_COUNT : FieldRef := ⟨0x12, 0x60, 0x0, 0, 48⟩
/-- R303, 08_memory.md -/
def R.BLK_LINK_CE : RegDef := ⟨"BLK_LINK_CE", 0x12, 0, 1023, 0x60, 0x0, 1, [
    ⟨F.BLK_LINK_CE_COUNT, .rc, 0x0, .none⟩]⟩

def F.BLK_CE_COUNT : FieldRef := ⟨0x12, 0x68, 0x0, 0, 48⟩
/-- R303, 08_memory.md -/
def R.BLK_CE : RegDef := ⟨"BLK_CE", 0x12, 0, 1023, 0x68, 0x0, 1, [
    ⟨F.BLK_CE_COUNT, .rc, 0x0, .none⟩]⟩

def F.BLK_UE_COUNT : FieldRef := ⟨0x12, 0x70, 0x0, 0, 48⟩
/-- R303, 08_memory.md -/
def R.BLK_UE : RegDef := ⟨"BLK_UE", 0x12, 0, 1023, 0x70, 0x0, 1, [
    ⟨F.BLK_UE_COUNT, .rc, 0x0, .none⟩]⟩

def F.BLK_UE_ADDR_ADDR : FieldRef := ⟨0x12, 0x78, 0x0, 0, 64⟩
/-- R303, 08_memory.md -/
def R.BLK_UE_ADDR : RegDef := ⟨"BLK_UE_ADDR", 0x12, 0, 1023, 0x78, 0x0, 1, [
    ⟨F.BLK_UE_ADDR_ADDR, .ro, 0x0, .none⟩]⟩

def F.BLK_OFFLINE_HITS_COUNT : FieldRef := ⟨0x12, 0x80, 0x0, 0, 48⟩
/-- R303, 08_memory.md -/
def R.BLK_OFFLINE_HITS : RegDef := ⟨"BLK_OFFLINE_HITS", 0x12, 0, 1023, 0x80, 0x0, 1, [
    ⟨F.BLK_OFFLINE_HITS_COUNT, .rc, 0x0, .none⟩]⟩

def F.PRT_CFG_ENABLE : FieldRef := ⟨0x13, 0x40, 0x0, 0, 1⟩
def F.PRT_CFG_GRANULE : FieldRef := ⟨0x13, 0x40, 0x0, 8, 4⟩
/-- R305, 08_memory.md -/
def R.PRT_CFG : RegDef := ⟨"PRT_CFG", 0x13, 0, 1023, 0x40, 0x0, 1, [
    ⟨F.PRT_CFG_ENABLE, .rw, 0x0, .none⟩,
    ⟨F.PRT_CFG_GRANULE, .rw, 0x0, .range 0 8⟩]⟩

def F.PRT_STACKS_MASK : FieldRef := ⟨0x13, 0x48, 0x0, 0, 24⟩
/-- R305, 08_memory.md -/
def R.PRT_STACKS : RegDef := ⟨"PRT_STACKS", 0x13, 0, 1023, 0x48, 0x0, 1, [
    ⟨F.PRT_STACKS_MASK, .rw, 0x0, .none⟩]⟩

def F.PRT_RANGE_BASE : FieldRef := ⟨0x13, 0x50, 0x0, 0, 16⟩
def F.PRT_RANGE_SIZE : FieldRef := ⟨0x13, 0x50, 0x0, 32, 16⟩
/-- R305, 08_memory.md -/
def R.PRT_RANGE : RegDef := ⟨"PRT_RANGE", 0x13, 0, 1023, 0x50, 0x0, 1, [
    ⟨F.PRT_RANGE_BASE, .rw, 0x0, .range 0 36863⟩,
    ⟨F.PRT_RANGE_SIZE, .rw, 0x0, .none⟩]⟩

def F.PRT_SIZE_BYTES : FieldRef := ⟨0x13, 0x58, 0x0, 0, 64⟩
/-- R305, 08_memory.md -/
def R.PRT_SIZE : RegDef := ⟨"PRT_SIZE", 0x13, 0, 1023, 0x58, 0x0, 1, [
    ⟨F.PRT_SIZE_BYTES, .ro, 0x0, .none⟩]⟩

def F.OPT_CTRL_ENABLE : FieldRef := ⟨0xf, 0x40, 0x0, 0, 1⟩
/-- R334, 09_training_state.md -/
def R.OPT_CTRL : RegDef := ⟨"OPT_CTRL", 0xf, 0, 23, 0x40, 0x0, 1, [
    ⟨F.OPT_CTRL_ENABLE, .rw, 0x1, .none⟩]⟩

def F.OPT_STATUS_QUEUED : FieldRef := ⟨0xf, 0x48, 0x0, 0, 5⟩
def F.OPT_STATUS_ACTIVE : FieldRef := ⟨0xf, 0x48, 0x0, 5, 2⟩
def F.OPT_STATUS_HELD : FieldRef := ⟨0xf, 0x48, 0x0, 7, 1⟩
/-- R334, 09_training_state.md -/
def R.OPT_STATUS : RegDef := ⟨"OPT_STATUS", 0xf, 0, 23, 0x48, 0x0, 1, [
    ⟨F.OPT_STATUS_QUEUED, .ro, 0x0, .none⟩,
    ⟨F.OPT_STATUS_ACTIVE, .ro, 0x0, .none⟩,
    ⟨F.OPT_STATUS_HELD, .ro, 0x0, .none⟩]⟩

def F.OPT_BLOCKS_COUNT : FieldRef := ⟨0xf, 0x50, 0x0, 0, 48⟩
/-- R334, 09_training_state.md -/
def R.OPT_BLOCKS : RegDef := ⟨"OPT_BLOCKS", 0xf, 0, 23, 0x50, 0x0, 1, [
    ⟨F.OPT_BLOCKS_COUNT, .rc, 0x0, .none⟩]⟩

def F.OPT_SAT_COUNT : FieldRef := ⟨0xf, 0x58, 0x0, 0, 48⟩
/-- R334, 09_training_state.md -/
def R.OPT_SAT : RegDef := ⟨"OPT_SAT", 0xf, 0, 23, 0x58, 0x0, 1, [
    ⟨F.OPT_SAT_COUNT, .rc, 0x0, .none⟩]⟩

def F.OPT_POISON_COUNT : FieldRef := ⟨0xf, 0x60, 0x0, 0, 48⟩
/-- R334, 09_training_state.md -/
def R.OPT_POISON : RegDef := ⟨"OPT_POISON", 0xf, 0, 23, 0x60, 0x0, 1, [
    ⟨F.OPT_POISON_COUNT, .rc, 0x0, .none⟩]⟩

def F.OPT_ERR_COUNT : FieldRef := ⟨0xf, 0x68, 0x0, 0, 48⟩
/-- R334, 09_training_state.md -/
def R.OPT_ERR : RegDef := ⟨"OPT_ERR", 0xf, 0, 23, 0x68, 0x0, 1, [
    ⟨F.OPT_ERR_COUNT, .rc, 0x0, .none⟩]⟩

def F.OPT_ERR_ADDR_ADDR : FieldRef := ⟨0xf, 0x70, 0x0, 0, 64⟩
/-- R334, 09_training_state.md -/
def R.OPT_ERR_ADDR : RegDef := ⟨"OPT_ERR_ADDR", 0xf, 0, 23, 0x70, 0x0, 1, [
    ⟨F.OPT_ERR_ADDR_ADDR, .ro, 0x0, .none⟩]⟩

def F.OPT_ERR_INFO_REASON : FieldRef := ⟨0xf, 0x78, 0x0, 0, 4⟩
/-- R334, 09_training_state.md -/
def R.OPT_ERR_INFO : RegDef := ⟨"OPT_ERR_INFO", 0xf, 0, 23, 0x78, 0x0, 1, [
    ⟨F.OPT_ERR_INFO_REASON, .ro, 0x0, .none⟩]⟩

def F.OPT_GSEL_CTX : FieldRef := ⟨0xf, 0x40, 0x0, 0, 6⟩
/-- R335, 09_training_state.md -/
def R.OPT_GSEL : RegDef := ⟨"OPT_GSEL", 0xf, 24, 24, 0x40, 0x0, 1, [
    ⟨F.OPT_GSEL_CTX, .rw, 0x0, .none⟩]⟩

def F.OPT_GVAL_LO_G : FieldRef := ⟨0xf, 0x48, 0x0, 0, 64⟩
/-- R335, 09_training_state.md -/
def R.OPT_GVAL_LO : RegDef := ⟨"OPT_GVAL_LO", 0xf, 24, 24, 0x48, 0x0, 1, [
    ⟨F.OPT_GVAL_LO_G, .ro, 0x0, .none⟩]⟩

def F.OPT_GVAL_HI_G : FieldRef := ⟨0xf, 0x50, 0x0, 0, 32⟩
/-- R335, 09_training_state.md -/
def R.OPT_GVAL_HI : RegDef := ⟨"OPT_GVAL_HI", 0xf, 24, 24, 0x50, 0x0, 1, [
    ⟨F.OPT_GVAL_HI_G, .ro, 0x0, .none⟩]⟩

def F.OPT_GNORM_GN_EXP : FieldRef := ⟨0xf, 0x100, 0x8, 0, 7⟩
def F.OPT_GNORM_FLAG : FieldRef := ⟨0xf, 0x100, 0x8, 63, 1⟩
/-- R335, 09_training_state.md -/
def R.OPT_GNORM : RegDef := ⟨"OPT_GNORM", 0xf, 24, 24, 0x100, 0x8, 64, [
    ⟨F.OPT_GNORM_GN_EXP, .rw, 0x40, .range 0 95⟩,
    ⟨F.OPT_GNORM_FLAG, .ro, 0x0, .none⟩]⟩

def F.CKP_CTRL_START : FieldRef := ⟨0x10, 0x40, 0x0, 0, 1⟩
def F.CKP_CTRL_ABORT : FieldRef := ⟨0x10, 0x40, 0x0, 1, 1⟩
/-- R336, 09_training_state.md -/
def R.CKP_CTRL : RegDef := ⟨"CKP_CTRL", 0x10, 0, 1023, 0x40, 0x0, 1, [
    ⟨F.CKP_CTRL_START, .wo, 0x0, .none⟩,
    ⟨F.CKP_CTRL_ABORT, .wo, 0x0, .none⟩]⟩

def F.CKP_CFG_CHUNK_LOG : FieldRef := ⟨0x10, 0x48, 0x0, 0, 4⟩
def F.CKP_CFG_MODE : FieldRef := ⟨0x10, 0x48, 0x0, 4, 2⟩
/-- R336, 09_training_state.md -/
def R.CKP_CFG : RegDef := ⟨"CKP_CFG", 0x10, 0, 1023, 0x48, 0x0, 1, [
    ⟨F.CKP_CFG_CHUNK_LOG, .rw, 0x4, .range 0 8⟩,
    ⟨F.CKP_CFG_MODE, .rw, 0x0, .enum 2 0⟩]⟩

def F.CKP_LIST_ADDR : FieldRef := ⟨0x10, 0x50, 0x0, 6, 58⟩
/-- R336, 09_training_state.md -/
def R.CKP_LIST : RegDef := ⟨"CKP_LIST", 0x10, 0, 1023, 0x50, 0x0, 1, [
    ⟨F.CKP_LIST_ADDR, .rw, 0x0, .none⟩]⟩

def F.CKP_STAGE_BASE : FieldRef := ⟨0x10, 0x58, 0x0, 12, 52⟩
/-- R336, 09_training_state.md -/
def R.CKP_STAGE : RegDef := ⟨"CKP_STAGE", 0x10, 0, 1023, 0x58, 0x0, 1, [
    ⟨F.CKP_STAGE_BASE, .rw, 0x0, .none⟩]⟩

def F.CKP_STAGE_LEN_LEN : FieldRef := ⟨0x10, 0x60, 0x0, 0, 32⟩
/-- R336, 09_training_state.md -/
def R.CKP_STAGE_LEN : RegDef := ⟨"CKP_STAGE_LEN", 0x10, 0, 1023, 0x60, 0x0, 1, [
    ⟨F.CKP_STAGE_LEN_LEN, .rw, 0x1000, .range 16 1048576⟩]⟩

def F.CKP_STAGE_IDX_PROD : FieldRef := ⟨0x10, 0x68, 0x0, 0, 32⟩
def F.CKP_STAGE_IDX_CONS : FieldRef := ⟨0x10, 0x68, 0x0, 32, 32⟩
/-- R336, 09_training_state.md -/
def R.CKP_STAGE_IDX : RegDef := ⟨"CKP_STAGE_IDX", 0x10, 0, 1023, 0x68, 0x0, 1, [
    ⟨F.CKP_STAGE_IDX_PROD, .ro, 0x0, .none⟩,
    ⟨F.CKP_STAGE_IDX_CONS, .rw, 0x0, .none⟩]⟩

def F.CKP_DST_EN : FieldRef := ⟨0x10, 0x70, 0x0, 0, 1⟩
def F.CKP_DST_PORT : FieldRef := ⟨0x10, 0x70, 0x0, 1, 1⟩
def F.CKP_DST_ADDR : FieldRef := ⟨0x10, 0x70, 0x0, 12, 52⟩
/-- R336, 09_training_state.md -/
def R.CKP_DST : RegDef := ⟨"CKP_DST", 0x10, 0, 1023, 0x70, 0x0, 1, [
    ⟨F.CKP_DST_EN, .rw, 0x0, .none⟩,
    ⟨F.CKP_DST_PORT, .rw, 0x0, .none⟩,
    ⟨F.CKP_DST_ADDR, .rw, 0x0, .none⟩]⟩

def F.CKP_STATUS_STATE : FieldRef := ⟨0x10, 0x78, 0x0, 0, 3⟩
def F.CKP_STATUS_REASON : FieldRef := ⟨0x10, 0x78, 0x0, 4, 4⟩
def F.CKP_STATUS_CHUNKS_LEFT : FieldRef := ⟨0x10, 0x78, 0x0, 16, 32⟩
/-- R336, 09_training_state.md -/
def R.CKP_STATUS : RegDef := ⟨"CKP_STATUS", 0x10, 0, 1023, 0x78, 0x0, 1, [
    ⟨F.CKP_STATUS_STATE, .ro, 0x0, .none⟩,
    ⟨F.CKP_STATUS_REASON, .ro, 0x0, .none⟩,
    ⟨F.CKP_STATUS_CHUNKS_LEFT, .ro, 0x0, .none⟩]⟩

def F.CKP_SAVEAHEAD_COUNT : FieldRef := ⟨0x10, 0x80, 0x0, 0, 48⟩
/-- R336, 09_training_state.md -/
def R.CKP_SAVEAHEAD : RegDef := ⟨"CKP_SAVEAHEAD", 0x10, 0, 1023, 0x80, 0x0, 1, [
    ⟨F.CKP_SAVEAHEAD_COUNT, .rc, 0x0, .none⟩]⟩

def F.CKP_BYTES_IN_COUNT : FieldRef := ⟨0x10, 0x88, 0x0, 0, 48⟩
/-- R336, 09_training_state.md -/
def R.CKP_BYTES_IN : RegDef := ⟨"CKP_BYTES_IN", 0x10, 0, 1023, 0x88, 0x0, 1, [
    ⟨F.CKP_BYTES_IN_COUNT, .ro, 0x0, .none⟩]⟩

def F.CKP_BYTES_OUT_COUNT : FieldRef := ⟨0x10, 0x90, 0x0, 0, 48⟩
/-- R336, 09_training_state.md -/
def R.CKP_BYTES_OUT : RegDef := ⟨"CKP_BYTES_OUT", 0x10, 0, 1023, 0x90, 0x0, 1, [
    ⟨F.CKP_BYTES_OUT_COUNT, .ro, 0x0, .none⟩]⟩

def F.VPT_CTRL_ENABLE : FieldRef := ⟨0x14, 0x40, 0x0, 0, 1⟩
def F.VPT_CTRL_RECONFIG : FieldRef := ⟨0x14, 0x40, 0x0, 1, 1⟩
def F.VPT_CTRL_RETRAIN : FieldRef := ⟨0x14, 0x40, 0x0, 2, 1⟩
/-- R371, 10_verath_links.md -/
def R.VPT_CTRL : RegDef := ⟨"VPT_CTRL", 0x14, 0, 47, 0x40, 0x0, 1, [
    ⟨F.VPT_CTRL_ENABLE, .rw, 0x0, .none⟩,
    ⟨F.VPT_CTRL_RECONFIG, .wo, 0x0, .none⟩,
    ⟨F.VPT_CTRL_RETRAIN, .wo, 0x0, .none⟩]⟩

def F.VPT_CFG_MODE : FieldRef := ⟨0x14, 0x48, 0x0, 0, 2⟩
def F.VPT_CFG_ROLE : FieldRef := ⟨0x14, 0x48, 0x0, 2, 3⟩
def F.VPT_CFG_AUTO_NARROW : FieldRef := ⟨0x14, 0x48, 0x0, 5, 1⟩
def F.VPT_CFG_PMD : FieldRef := ⟨0x14, 0x48, 0x0, 6, 2⟩
def F.VPT_CFG_DOWN_MS : FieldRef := ⟨0x14, 0x48, 0x0, 8, 16⟩
/-- R371, 10_verath_links.md -/
def R.VPT_CFG : RegDef := ⟨"VPT_CFG", 0x14, 0, 47, 0x48, 0x0, 1, [
    ⟨F.VPT_CFG_MODE, .rw, 0x0, .enum 2 0⟩,
    ⟨F.VPT_CFG_ROLE, .rw, 0x0, .enum 3 0⟩,
    ⟨F.VPT_CFG_AUTO_NARROW, .rw, 0x1, .none⟩,
    ⟨F.VPT_CFG_PMD, .rw, 0x0, .enum 1 0⟩,
    ⟨F.VPT_CFG_DOWN_MS, .rw, 0xa, .range 1 1000⟩]⟩

def F.VPT_TARGET_WIDTH : FieldRef := ⟨0x14, 0x50, 0x0, 0, 4⟩
def F.VPT_TARGET_HALF : FieldRef := ⟨0x14, 0x50, 0x0, 4, 1⟩
/-- R371, 10_verath_links.md -/
def R.VPT_TARGET : RegDef := ⟨"VPT_TARGET", 0x14, 0, 47, 0x50, 0x0, 1, [
    ⟨F.VPT_TARGET_WIDTH, .rw, 0x8, .none⟩,
    ⟨F.VPT_TARGET_HALF, .rw, 0x0, .none⟩]⟩

def F.VPT_STATUS_STATE : FieldRef := ⟨0x14, 0x58, 0x0, 0, 3⟩
def F.VPT_STATUS_V1 : FieldRef := ⟨0x14, 0x58, 0x0, 3, 1⟩
def F.VPT_STATUS_WIDTH : FieldRef := ⟨0x14, 0x58, 0x0, 4, 4⟩
def F.VPT_STATUS_HALF : FieldRef := ⟨0x14, 0x58, 0x0, 8, 1⟩
def F.VPT_STATUS_OVERRULED : FieldRef := ⟨0x14, 0x58, 0x0, 9, 1⟩
def F.VPT_STATUS_LANES : FieldRef := ⟨0x14, 0x58, 0x0, 16, 8⟩
def F.VPT_STATUS_LOCK : FieldRef := ⟨0x14, 0x58, 0x0, 24, 8⟩
def F.VPT_STATUS_PARTNER_NODE : FieldRef := ⟨0x14, 0x58, 0x0, 32, 16⟩
def F.VPT_STATUS_PARTNER_PORT : FieldRef := ⟨0x14, 0x58, 0x0, 48, 8⟩
/-- R371, 10_verath_links.md -/
def R.VPT_STATUS : RegDef := ⟨"VPT_STATUS", 0x14, 0, 47, 0x58, 0x0, 1, [
    ⟨F.VPT_STATUS_STATE, .ro, 0x0, .none⟩,
    ⟨F.VPT_STATUS_V1, .ro, 0x0, .none⟩,
    ⟨F.VPT_STATUS_WIDTH, .ro, 0x8, .none⟩,
    ⟨F.VPT_STATUS_HALF, .ro, 0x0, .none⟩,
    ⟨F.VPT_STATUS_OVERRULED, .ro, 0x0, .none⟩,
    ⟨F.VPT_STATUS_LANES, .ro, 0xff, .none⟩,
    ⟨F.VPT_STATUS_LOCK, .ro, 0x0, .none⟩,
    ⟨F.VPT_STATUS_PARTNER_NODE, .ro, 0xffff, .none⟩,
    ⟨F.VPT_STATUS_PARTNER_PORT, .ro, 0x0, .none⟩]⟩

def F.VPT_RTT_NS : FieldRef := ⟨0x14, 0x60, 0x0, 0, 32⟩
/-- R371, 10_verath_links.md -/
def R.VPT_RTT : RegDef := ⟨"VPT_RTT", 0x14, 0, 47, 0x60, 0x0, 1, [
    ⟨F.VPT_RTT_NS, .ro, 0x0, .none⟩]⟩

def F.VPT_ACK_HOLD_NS : FieldRef := ⟨0x14, 0x68, 0x0, 0, 16⟩
def F.VPT_ACK_REPLAY_TO_NS : FieldRef := ⟨0x14, 0x68, 0x0, 16, 16⟩
/-- R371, 10_verath_links.md -/
def R.VPT_ACK : RegDef := ⟨"VPT_ACK", 0x14, 0, 47, 0x68, 0x0, 1, [
    ⟨F.VPT_ACK_HOLD_NS, .rw, 0x100, .range 32 512⟩,
    ⟨F.VPT_ACK_REPLAY_TO_NS, .rw, 0xfa0, .range 3000 65535⟩]⟩

def F.VPT_SEQ_TX_NEXT : FieldRef := ⟨0x14, 0x70, 0x0, 0, 16⟩
def F.VPT_SEQ_ACKED : FieldRef := ⟨0x14, 0x70, 0x0, 16, 16⟩
def F.VPT_SEQ_RX_EXPECT : FieldRef := ⟨0x14, 0x70, 0x0, 32, 16⟩
def F.VPT_SEQ_UNACKED : FieldRef := ⟨0x14, 0x70, 0x0, 48, 12⟩
/-- R371, 10_verath_links.md -/
def R.VPT_SEQ : RegDef := ⟨"VPT_SEQ", 0x14, 0, 47, 0x70, 0x0, 1, [
    ⟨F.VPT_SEQ_TX_NEXT, .ro, 0x0, .none⟩,
    ⟨F.VPT_SEQ_ACKED, .ro, 0x0, .none⟩,
    ⟨F.VPT_SEQ_RX_EXPECT, .ro, 0x0, .none⟩,
    ⟨F.VPT_SEQ_UNACKED, .ro, 0x0, .none⟩]⟩

def F.VPT_FEC_CORR_COUNT : FieldRef := ⟨0x14, 0x78, 0x0, 0, 48⟩
/-- R371, 10_verath_links.md -/
def R.VPT_FEC_CORR : RegDef := ⟨"VPT_FEC_CORR", 0x14, 0, 47, 0x78, 0x0, 1, [
    ⟨F.VPT_FEC_CORR_COUNT, .rc, 0x0, .none⟩]⟩

def F.VPT_FEC_UNCORR_COUNT : FieldRef := ⟨0x14, 0x80, 0x0, 0, 48⟩
/-- R371, 10_verath_links.md -/
def R.VPT_FEC_UNCORR : RegDef := ⟨"VPT_FEC_UNCORR", 0x14, 0, 47, 0x80, 0x0, 1, [
    ⟨F.VPT_FEC_UNCORR_COUNT, .rc, 0x0, .none⟩]⟩

def F.VPT_CRC_ERR_COUNT : FieldRef := ⟨0x14, 0x88, 0x0, 0, 48⟩
/-- R371, 10_verath_links.md -/
def R.VPT_CRC_ERR : RegDef := ⟨"VPT_CRC_ERR", 0x14, 0, 47, 0x88, 0x0, 1, [
    ⟨F.VPT_CRC_ERR_COUNT, .rc, 0x0, .none⟩]⟩

def F.VPT_REPLAY_COUNT : FieldRef := ⟨0x14, 0x90, 0x0, 0, 48⟩
/-- R371, 10_verath_links.md -/
def R.VPT_REPLAY : RegDef := ⟨"VPT_REPLAY", 0x14, 0, 47, 0x90, 0x0, 1, [
    ⟨F.VPT_REPLAY_COUNT, .rc, 0x0, .none⟩]⟩

def F.VPT_NAK_COUNT : FieldRef := ⟨0x14, 0x98, 0x0, 0, 48⟩
/-- R371, 10_verath_links.md -/
def R.VPT_NAK : RegDef := ⟨"VPT_NAK", 0x14, 0, 47, 0x98, 0x0, 1, [
    ⟨F.VPT_NAK_COUNT, .rc, 0x0, .none⟩]⟩

def F.VPT_REPLAY_TO_COUNT : FieldRef := ⟨0x14, 0xa0, 0x0, 0, 48⟩
/-- R371, 10_verath_links.md -/
def R.VPT_REPLAY_TO : RegDef := ⟨"VPT_REPLAY_TO", 0x14, 0, 47, 0xa0, 0x0, 1, [
    ⟨F.VPT_REPLAY_TO_COUNT, .rc, 0x0, .none⟩]⟩

def F.VPT_STALL_NS : FieldRef := ⟨0x14, 0xa8, 0x0, 0, 48⟩
/-- R371, 10_verath_links.md -/
def R.VPT_STALL : RegDef := ⟨"VPT_STALL", 0x14, 0, 47, 0xa8, 0x0, 1, [
    ⟨F.VPT_STALL_NS, .rc, 0x0, .none⟩]⟩

def F.VPT_NOROUTE_COUNT : FieldRef := ⟨0x14, 0xb0, 0x0, 0, 48⟩
/-- R371, 10_verath_links.md -/
def R.VPT_NOROUTE : RegDef := ⟨"VPT_NOROUTE", 0x14, 0, 47, 0xb0, 0x0, 1, [
    ⟨F.VPT_NOROUTE_COUNT, .rc, 0x0, .none⟩]⟩

def F.VPT_TTL_DROP_COUNT : FieldRef := ⟨0x14, 0xb8, 0x0, 0, 48⟩
/-- R371, 10_verath_links.md -/
def R.VPT_TTL_DROP : RegDef := ⟨"VPT_TTL_DROP", 0x14, 0, 47, 0xb8, 0x0, 1, [
    ⟨F.VPT_TTL_DROP_COUNT, .rc, 0x0, .none⟩]⟩

def F.VPT_LOST_COUNT : FieldRef := ⟨0x14, 0xc0, 0x0, 0, 48⟩
/-- R371, 10_verath_links.md -/
def R.VPT_LOST : RegDef := ⟨"VPT_LOST", 0x14, 0, 47, 0xc0, 0x0, 1, [
    ⟨F.VPT_LOST_COUNT, .rc, 0x0, .none⟩]⟩

def F.VPT_DOWNS_COUNT : FieldRef := ⟨0x14, 0xc8, 0x0, 0, 48⟩
/-- R371, 10_verath_links.md -/
def R.VPT_DOWNS : RegDef := ⟨"VPT_DOWNS", 0x14, 0, 47, 0xc8, 0x0, 1, [
    ⟨F.VPT_DOWNS_COUNT, .rc, 0x0, .none⟩]⟩

def F.VPT_ROUTE_KEY_NODE : FieldRef := ⟨0x14, 0x400, 0x10, 0, 16⟩
def F.VPT_ROUTE_KEY_MASK : FieldRef := ⟨0x14, 0x400, 0x10, 16, 16⟩
def F.VPT_ROUTE_KEY_VALID : FieldRef := ⟨0x14, 0x400, 0x10, 63, 1⟩
/-- R371, 10_verath_links.md -/
def R.VPT_ROUTE_KEY : RegDef := ⟨"VPT_ROUTE_KEY", 0x14, 0, 47, 0x400, 0x10, 64, [
    ⟨F.VPT_ROUTE_KEY_NODE, .rw, 0x0, .none⟩,
    ⟨F.VPT_ROUTE_KEY_MASK, .rw, 0xffff, .none⟩,
    ⟨F.VPT_ROUTE_KEY_VALID, .rw, 0x0, .none⟩]⟩

def F.VPT_ROUTE_OUT_PORTS : FieldRef := ⟨0x14, 0x408, 0x10, 0, 48⟩
/-- R371, 10_verath_links.md -/
def R.VPT_ROUTE_OUT : RegDef := ⟨"VPT_ROUTE_OUT", 0x14, 0, 47, 0x408, 0x10, 64, [
    ⟨F.VPT_ROUTE_OUT_PORTS, .rw, 0x0, .none⟩]⟩

def F.VPT_NODE_NODE : FieldRef := ⟨0x14, 0x40, 0x0, 0, 16⟩
/-- R372, 10_verath_links.md -/
def R.VPT_NODE : RegDef := ⟨"VPT_NODE", 0x14, 48, 48, 0x40, 0x0, 1, [
    ⟨F.VPT_NODE_NODE, .rw, 0xffff, .none⟩]⟩

def F.VPT_TRANSIT_CLASS : FieldRef := ⟨0x14, 0x48, 0x0, 0, 6⟩
def F.VPT_TRANSIT_TTL : FieldRef := ⟨0x14, 0x48, 0x0, 8, 8⟩
/-- R372, 10_verath_links.md -/
def R.VPT_TRANSIT : RegDef := ⟨"VPT_TRANSIT", 0x14, 48, 48, 0x48, 0x0, 1, [
    ⟨F.VPT_TRANSIT_CLASS, .rw, 0x3f, .none⟩,
    ⟨F.VPT_TRANSIT_TTL, .rw, 0x10, .range 1 255⟩]⟩

def F.VPT_CENSUS_CMD_START : FieldRef := ⟨0x14, 0x50, 0x0, 0, 1⟩
/-- R372, 10_verath_links.md -/
def R.VPT_CENSUS_CMD : RegDef := ⟨"VPT_CENSUS_CMD", 0x14, 48, 48, 0x50, 0x0, 1, [
    ⟨F.VPT_CENSUS_CMD_START, .wo, 0x0, .none⟩]⟩

def F.VPT_CENSUS_CFG_TIMEOUT_MS : FieldRef := ⟨0x14, 0x58, 0x0, 0, 16⟩
def F.VPT_CENSUS_CFG_MAX_RESTARTS : FieldRef := ⟨0x14, 0x58, 0x0, 16, 8⟩
/-- R372, 10_verath_links.md -/
def R.VPT_CENSUS_CFG : RegDef := ⟨"VPT_CENSUS_CFG", 0x14, 48, 48, 0x58, 0x0, 1, [
    ⟨F.VPT_CENSUS_CFG_TIMEOUT_MS, .rw, 0x64, .range 1 65535⟩,
    ⟨F.VPT_CENSUS_CFG_MAX_RESTARTS, .rw, 0x10, .range 1 255⟩]⟩

def F.VPT_CENSUS_EPOCH : FieldRef := ⟨0x14, 0x60, 0x0, 0, 32⟩
def F.VPT_CENSUS_STATE : FieldRef := ⟨0x14, 0x60, 0x0, 32, 2⟩
def F.VPT_CENSUS_RESTARTS : FieldRef := ⟨0x14, 0x60, 0x0, 40, 8⟩
def F.VPT_CENSUS_COUNT : FieldRef := ⟨0x14, 0x60, 0x0, 48, 16⟩
/-- R372, 10_verath_links.md -/
def R.VPT_CENSUS : RegDef := ⟨"VPT_CENSUS", 0x14, 48, 48, 0x60, 0x0, 1, [
    ⟨F.VPT_CENSUS_EPOCH, .ro, 0x0, .none⟩,
    ⟨F.VPT_CENSUS_STATE, .ro, 0x0, .none⟩,
    ⟨F.VPT_CENSUS_RESTARTS, .ro, 0x0, .none⟩,
    ⟨F.VPT_CENSUS_COUNT, .ro, 0x0, .none⟩]⟩

def F.VPT_CENSUS_BUF_ADDR : FieldRef := ⟨0x14, 0x68, 0x0, 9, 55⟩
/-- R372, 10_verath_links.md -/
def R.VPT_CENSUS_BUF : RegDef := ⟨"VPT_CENSUS_BUF", 0x14, 48, 48, 0x68, 0x0, 1, [
    ⟨F.VPT_CENSUS_BUF_ADDR, .rw, 0x0, .none⟩]⟩

def F.VPT_CENSUS_LEN_SLOTS : FieldRef := ⟨0x14, 0x70, 0x0, 0, 17⟩
/-- R372, 10_verath_links.md -/
def R.VPT_CENSUS_LEN : RegDef := ⟨"VPT_CENSUS_LEN", 0x14, 48, 48, 0x70, 0x0, 1, [
    ⟨F.VPT_CENSUS_LEN_SLOTS, .rw, 0x0, .none⟩]⟩

def F.CPX_FREQ_MHZ100 : FieldRef := ⟨0x1a, 0x40, 0x0, 0, 6⟩
def F.CPX_FREQ_CURRENT : FieldRef := ⟨0x1a, 0x40, 0x0, 8, 6⟩
/-- R396, 11_processor_dies.md -/
def R.CPX_FREQ : RegDef := ⟨"CPX_FREQ", 0x1a, 0, 3, 0x40, 0x0, 1, [
    ⟨F.CPX_FREQ_MHZ100, .rw, 0x24, .range 12 36⟩,
    ⟨F.CPX_FREQ_CURRENT, .ro, 0x24, .none⟩]⟩

def F.CPX_CLASS_CLASS : FieldRef := ⟨0x1a, 0x48, 0x0, 0, 6⟩
/-- R396, 11_processor_dies.md -/
def R.CPX_CLASS : RegDef := ⟨"CPX_CLASS", 0x1a, 0, 3, 0x48, 0x0, 1, [
    ⟨F.CPX_CLASS_CLASS, .rw, 0x3f, .none⟩]⟩

def F.CPX_CTRL_FLUSH : FieldRef := ⟨0x1a, 0x50, 0x0, 0, 1⟩
/-- R396, 11_processor_dies.md -/
def R.CPX_CTRL : RegDef := ⟨"CPX_CTRL", 0x1a, 0, 3, 0x50, 0x0, 1, [
    ⟨F.CPX_CTRL_FLUSH, .wo, 0x0, .none⟩]⟩

def F.CPX_STATUS_DIRTY : FieldRef := ⟨0x1a, 0x58, 0x0, 0, 1⟩
def F.CPX_STATUS_FLUSHING : FieldRef := ⟨0x1a, 0x58, 0x0, 1, 1⟩
/-- R396, 11_processor_dies.md -/
def R.CPX_STATUS : RegDef := ⟨"CPX_STATUS", 0x1a, 0, 3, 0x58, 0x0, 1, [
    ⟨F.CPX_STATUS_DIRTY, .ro, 0x0, .none⟩,
    ⟨F.CPX_STATUS_FLUSHING, .ro, 0x0, .none⟩]⟩

def F.CPX_L2_CE_COUNT : FieldRef := ⟨0x1a, 0x60, 0x0, 0, 48⟩
/-- R396, 11_processor_dies.md -/
def R.CPX_L2_CE : RegDef := ⟨"CPX_L2_CE", 0x1a, 0, 3, 0x60, 0x0, 1, [
    ⟨F.CPX_L2_CE_COUNT, .rc, 0x0, .none⟩]⟩

def F.CPX_L2_UE_COUNT : FieldRef := ⟨0x1a, 0x68, 0x0, 0, 48⟩
/-- R396, 11_processor_dies.md -/
def R.CPX_L2_UE : RegDef := ⟨"CPX_L2_UE", 0x1a, 0, 3, 0x68, 0x0, 1, [
    ⟨F.CPX_L2_UE_COUNT, .rc, 0x0, .none⟩]⟩

def F.CPX_MODE_HOSTMODE : FieldRef := ⟨0x1a, 0x40, 0x0, 0, 1⟩
/-- R396, 11_processor_dies.md -/
def R.CPX_MODE : RegDef := ⟨"CPX_MODE", 0x1a, 4, 4, 0x40, 0x0, 1, [
    ⟨F.CPX_MODE_HOSTMODE, .ro, 0x0, .none⟩]⟩

def F.CPX_COHWIN_BASE_GIB : FieldRef := ⟨0x1a, 0x48, 0x0, 0, 11⟩
def F.CPX_COHWIN_LIMIT_GIB : FieldRef := ⟨0x1a, 0x48, 0x0, 16, 12⟩
/-- R396, 11_processor_dies.md -/
def R.CPX_COHWIN : RegDef := ⟨"CPX_COHWIN", 0x1a, 4, 4, 0x48, 0x0, 1, [
    ⟨F.CPX_COHWIN_BASE_GIB, .rw, 0x0, .range 0 2047⟩,
    ⟨F.CPX_COHWIN_LIMIT_GIB, .rw, 0x100, .none⟩]⟩

def F.CPX_APERTURE_BASE : FieldRef := ⟨0x1a, 0x50, 0x0, 36, 28⟩
/-- R396, 11_processor_dies.md -/
def R.CPX_APERTURE : RegDef := ⟨"CPX_APERTURE", 0x1a, 4, 4, 0x50, 0x0, 1, [
    ⟨F.CPX_APERTURE_BASE, .rw, 0x40, .none⟩]⟩

def F.CPX_DIR_RACE_COUNT : FieldRef := ⟨0x1a, 0x58, 0x0, 0, 48⟩
/-- R396, 11_processor_dies.md -/
def R.CPX_DIR_RACE : RegDef := ⟨"CPX_DIR_RACE", 0x1a, 4, 4, 0x58, 0x0, 1, [
    ⟨F.CPX_DIR_RACE_COUNT, .rc, 0x0, .none⟩]⟩

def F.CPX_HWERR_ADDR : FieldRef := ⟨0x1a, 0x60, 0x0, 0, 64⟩
/-- R396, 11_processor_dies.md -/
def R.CPX_HWERR : RegDef := ⟨"CPX_HWERR", 0x1a, 4, 4, 0x60, 0x0, 1, [
    ⟨F.CPX_HWERR_ADDR, .ro, 0x0, .none⟩]⟩

def F.CPX_EVROUTE_HART : FieldRef := ⟨0x1a, 0x400, 0x8, 0, 7⟩
def F.CPX_EVROUTE_HOST : FieldRef := ⟨0x1a, 0x400, 0x8, 7, 1⟩
def F.CPX_EVROUTE_EIID : FieldRef := ⟨0x1a, 0x400, 0x8, 8, 8⟩
def F.CPX_EVROUTE_ENABLE : FieldRef := ⟨0x1a, 0x400, 0x8, 63, 1⟩
/-- R396, 11_processor_dies.md -/
def R.CPX_EVROUTE : RegDef := ⟨"CPX_EVROUTE", 0x1a, 4, 4, 0x400, 0x8, 64, [
    ⟨F.CPX_EVROUTE_HART, .rw, 0x0, .range 0 95⟩,
    ⟨F.CPX_EVROUTE_HOST, .rw, 0x0, .none⟩,
    ⟨F.CPX_EVROUTE_EIID, .rw, 0x1, .range 1 255⟩,
    ⟨F.CPX_EVROUTE_ENABLE, .rw, 0x0, .none⟩]⟩

def F.CTX_CTRL_ARM : FieldRef := ⟨0x17, 0x40, 0x0, 0, 1⟩
def F.CTX_CTRL_TEARDOWN : FieldRef := ⟨0x17, 0x40, 0x0, 1, 1⟩
/-- R424, 12_contexts_recovery.md -/
def R.CTX_CTRL : RegDef := ⟨"CTX_CTRL", 0x17, 0, 1023, 0x40, 0x0, 1, [
    ⟨F.CTX_CTRL_ARM, .wo, 0x0, .none⟩,
    ⟨F.CTX_CTRL_TEARDOWN, .wo, 0x0, .none⟩]⟩

def F.CTX_STATE_STATE : FieldRef := ⟨0x17, 0x48, 0x0, 0, 2⟩
def F.CTX_STATE_KEY_SET : FieldRef := ⟨0x17, 0x48, 0x0, 2, 1⟩
def F.CTX_STATE_GEN : FieldRef := ⟨0x17, 0x48, 0x0, 16, 12⟩
/-- R424, 12_contexts_recovery.md -/
def R.CTX_STATE : RegDef := ⟨"CTX_STATE", 0x17, 0, 1023, 0x48, 0x0, 1, [
    ⟨F.CTX_STATE_STATE, .ro, 0x0, .none⟩,
    ⟨F.CTX_STATE_KEY_SET, .ro, 0x0, .none⟩,
    ⟨F.CTX_STATE_GEN, .ro, 0x0, .none⟩]⟩

def F.CTX_CFG_PRIO : FieldRef := ⟨0x17, 0x50, 0x0, 0, 3⟩
def F.CTX_CFG_GUARD_US : FieldRef := ⟨0x17, 0x50, 0x0, 16, 16⟩
/-- R424, 12_contexts_recovery.md -/
def R.CTX_CFG : RegDef := ⟨"CTX_CFG", 0x17, 0, 1023, 0x50, 0x0, 1, [
    ⟨F.CTX_CFG_PRIO, .rw, 0x0, .none⟩,
    ⟨F.CTX_CFG_GUARD_US, .rw, 0x3e8, .range 1000 65535⟩]⟩

def F.CTX_KEY_LO_KEY : FieldRef := ⟨0x17, 0x58, 0x0, 0, 64⟩
/-- R424, 12_contexts_recovery.md -/
def R.CTX_KEY_LO : RegDef := ⟨"CTX_KEY_LO", 0x17, 0, 1023, 0x58, 0x0, 1, [
    ⟨F.CTX_KEY_LO_KEY, .wo, 0x0, .none⟩]⟩

def F.CTX_KEY_HI_KEY : FieldRef := ⟨0x17, 0x60, 0x0, 0, 64⟩
/-- R424, 12_contexts_recovery.md -/
def R.CTX_KEY_HI : RegDef := ⟨"CTX_KEY_HI", 0x17, 0, 1023, 0x60, 0x0, 1, [
    ⟨F.CTX_KEY_HI_KEY, .wo, 0x0, .none⟩]⟩

def F.CTX_FAULT_CLASS : FieldRef := ⟨0x17, 0x68, 0x0, 0, 3⟩
def F.CTX_FAULT_MULTI : FieldRef := ⟨0x17, 0x68, 0x0, 3, 1⟩
def F.CTX_FAULT_BLOCK : FieldRef := ⟨0x17, 0x68, 0x0, 16, 6⟩
def F.CTX_FAULT_INSTANCE : FieldRef := ⟨0x17, 0x68, 0x0, 22, 10⟩
def F.CTX_FAULT_VALID : FieldRef := ⟨0x17, 0x68, 0x0, 63, 1⟩
/-- R424, 12_contexts_recovery.md -/
def R.CTX_FAULT : RegDef := ⟨"CTX_FAULT", 0x17, 0, 1023, 0x68, 0x0, 1, [
    ⟨F.CTX_FAULT_CLASS, .ro, 0x0, .none⟩,
    ⟨F.CTX_FAULT_MULTI, .ro, 0x0, .none⟩,
    ⟨F.CTX_FAULT_BLOCK, .ro, 0x0, .none⟩,
    ⟨F.CTX_FAULT_INSTANCE, .ro, 0x0, .none⟩,
    ⟨F.CTX_FAULT_VALID, .w1c, 0x0, .none⟩]⟩

def F.CTX_FAULT_ADDR_ADDR : FieldRef := ⟨0x17, 0x70, 0x0, 0, 64⟩
/-- R424, 12_contexts_recovery.md -/
def R.CTX_FAULT_ADDR : RegDef := ⟨"CTX_FAULT_ADDR", 0x17, 0, 1023, 0x70, 0x0, 1, [
    ⟨F.CTX_FAULT_ADDR_ADDR, .ro, 0x0, .none⟩]⟩

def F.CTX_FAULT_MANIFEST_ADDR : FieldRef := ⟨0x17, 0x78, 0x0, 0, 64⟩
/-- R424, 12_contexts_recovery.md -/
def R.CTX_FAULT_MANIFEST : RegDef := ⟨"CTX_FAULT_MANIFEST", 0x17, 0, 1023, 0x78, 0x0, 1, [
    ⟨F.CTX_FAULT_MANIFEST_ADDR, .ro, 0x0, .none⟩]⟩

def F.CTX_FAULT_TIDE_TIDE : FieldRef := ⟨0x17, 0x80, 0x0, 0, 64⟩
/-- R424, 12_contexts_recovery.md -/
def R.CTX_FAULT_TIDE : RegDef := ⟨"CTX_FAULT_TIDE", 0x17, 0, 1023, 0x80, 0x0, 1, [
    ⟨F.CTX_FAULT_TIDE_TIDE, .ro, 0x0, .none⟩]⟩

def F.CTX_TEARDOWNS_COUNT : FieldRef := ⟨0x17, 0x88, 0x0, 0, 48⟩
/-- R424, 12_contexts_recovery.md -/
def R.CTX_TEARDOWNS : RegDef := ⟨"CTX_TEARDOWNS", 0x17, 0, 1023, 0x88, 0x0, 1, [
    ⟨F.CTX_TEARDOWNS_COUNT, .rc, 0x0, .none⟩]⟩

def F.CTX_TEARDOWN_NS_NS : FieldRef := ⟨0x17, 0x90, 0x0, 0, 32⟩
/-- R424, 12_contexts_recovery.md -/
def R.CTX_TEARDOWN_NS : RegDef := ⟨"CTX_TEARDOWN_NS", 0x17, 0, 1023, 0x90, 0x0, 1, [
    ⟨F.CTX_TEARDOWN_NS_NS, .ro, 0x0, .none⟩]⟩

def F.CTX_STALE_COUNT : FieldRef := ⟨0x17, 0x98, 0x0, 0, 48⟩
/-- R424, 12_contexts_recovery.md -/
def R.CTX_STALE : RegDef := ⟨"CTX_STALE", 0x17, 0, 1023, 0x98, 0x0, 1, [
    ⟨F.CTX_STALE_COUNT, .rc, 0x0, .none⟩]⟩

def F.CTX_LAST_RETIRE_TIDE : FieldRef := ⟨0x17, 0xa0, 0x0, 0, 64⟩
/-- R424, 12_contexts_recovery.md -/
def R.CTX_LAST_RETIRE : RegDef := ⟨"CTX_LAST_RETIRE", 0x17, 0, 1023, 0xa0, 0x0, 1, [
    ⟨F.CTX_LAST_RETIRE_TIDE, .ro, 0x0, .none⟩]⟩

def F.CTX_RETIRED_COUNT : FieldRef := ⟨0x17, 0xa8, 0x0, 0, 48⟩
/-- R424, 12_contexts_recovery.md -/
def R.CTX_RETIRED : RegDef := ⟨"CTX_RETIRED", 0x17, 0, 1023, 0xa8, 0x0, 1, [
    ⟨F.CTX_RETIRED_COUNT, .ro, 0x0, .none⟩]⟩

def F.CTX_ERREC_BASE_ADDR : FieldRef := ⟨0x17, 0xb0, 0x0, 6, 58⟩
/-- R424, 12_contexts_recovery.md -/
def R.CTX_ERREC_BASE : RegDef := ⟨"CTX_ERREC_BASE", 0x17, 0, 1023, 0xb0, 0x0, 1, [
    ⟨F.CTX_ERREC_BASE_ADDR, .rw, 0x0, .none⟩]⟩

def F.CTX_ERREC_LEN_LEN : FieldRef := ⟨0x17, 0xb8, 0x0, 0, 16⟩
def F.CTX_ERREC_LEN_WIDX : FieldRef := ⟨0x17, 0xb8, 0x0, 32, 16⟩
/-- R424, 12_contexts_recovery.md -/
def R.CTX_ERREC_LEN : RegDef := ⟨"CTX_ERREC_LEN", 0x17, 0, 1023, 0xb8, 0x0, 1, [
    ⟨F.CTX_ERREC_LEN_LEN, .rw, 0x0, .none⟩,
    ⟨F.CTX_ERREC_LEN_WIDX, .ro, 0x0, .none⟩]⟩

def F.CTX_ERRECS_COUNT : FieldRef := ⟨0x17, 0xc0, 0x0, 0, 48⟩
/-- R424, 12_contexts_recovery.md -/
def R.CTX_ERRECS : RegDef := ⟨"CTX_ERRECS", 0x17, 0, 1023, 0xc0, 0x0, 1, [
    ⟨F.CTX_ERRECS_COUNT, .rc, 0x0, .none⟩]⟩

def F.RST_CTRL_COMPUTE : FieldRef := ⟨0x18, 0x40, 0x0, 0, 1⟩
def F.RST_CTRL_MODULE : FieldRef := ⟨0x18, 0x40, 0x0, 1, 1⟩
/-- R426, 12_contexts_recovery.md -/
def R.RST_CTRL : RegDef := ⟨"RST_CTRL", 0x18, 0, 1023, 0x40, 0x0, 1, [
    ⟨F.RST_CTRL_COMPUTE, .wo, 0x0, .none⟩,
    ⟨F.RST_CTRL_MODULE, .wo, 0x0, .none⟩]⟩

def F.RST_TARGET_MASK : FieldRef := ⟨0x18, 0x48, 0x0, 0, 64⟩
/-- R426, 12_contexts_recovery.md -/
def R.RST_TARGET : RegDef := ⟨"RST_TARGET", 0x18, 0, 1023, 0x48, 0x0, 1, [
    ⟨F.RST_TARGET_MASK, .rw, 0x0, .none⟩]⟩

def F.RST_CFG_SCRUB : FieldRef := ⟨0x18, 0x50, 0x0, 0, 1⟩
def F.RST_CFG_DUMP_EN : FieldRef := ⟨0x18, 0x50, 0x0, 1, 1⟩
/-- R426, 12_contexts_recovery.md -/
def R.RST_CFG : RegDef := ⟨"RST_CFG", 0x18, 0, 1023, 0x50, 0x0, 1, [
    ⟨F.RST_CFG_SCRUB, .rw, 0x0, .none⟩,
    ⟨F.RST_CFG_DUMP_EN, .rw, 0x1, .none⟩]⟩

def F.RST_DUMP_AREA_ADDR : FieldRef := ⟨0x18, 0x58, 0x0, 20, 44⟩
/-- R426, 12_contexts_recovery.md -/
def R.RST_DUMP_AREA : RegDef := ⟨"RST_DUMP_AREA", 0x18, 0, 1023, 0x58, 0x0, 1, [
    ⟨F.RST_DUMP_AREA_ADDR, .rw, 0x0, .none⟩]⟩

def F.RST_CAUSE_DOMAIN : FieldRef := ⟨0x18, 0x60, 0x0, 0, 4⟩
def F.RST_CAUSE_CODE : FieldRef := ⟨0x18, 0x60, 0x0, 4, 8⟩
def F.RST_CAUSE_DUMP_OK : FieldRef := ⟨0x18, 0x60, 0x0, 12, 1⟩
/-- R426, 12_contexts_recovery.md -/
def R.RST_CAUSE : RegDef := ⟨"RST_CAUSE", 0x18, 0, 1023, 0x60, 0x0, 1, [
    ⟨F.RST_CAUSE_DOMAIN, .ro, 0x3, .none⟩,
    ⟨F.RST_CAUSE_CODE, .ro, 0x0, .none⟩,
    ⟨F.RST_CAUSE_DUMP_OK, .ro, 0x0, .none⟩]⟩

def F.RST_CAUSE_SITES_MASK : FieldRef := ⟨0x18, 0x68, 0x0, 0, 64⟩
/-- R426, 12_contexts_recovery.md -/
def R.RST_CAUSE_SITES : RegDef := ⟨"RST_CAUSE_SITES", 0x18, 0, 1023, 0x68, 0x0, 1, [
    ⟨F.RST_CAUSE_SITES_MASK, .ro, 0x0, .none⟩]⟩

def F.RST_CAUSE_TIDE_TIDE : FieldRef := ⟨0x18, 0x70, 0x0, 0, 64⟩
/-- R426, 12_contexts_recovery.md -/
def R.RST_CAUSE_TIDE : RegDef := ⟨"RST_CAUSE_TIDE", 0x18, 0, 1023, 0x70, 0x0, 1, [
    ⟨F.RST_CAUSE_TIDE_TIDE, .ro, 0x0, .none⟩]⟩

def F.RST_ESC_SITE_LIMIT : FieldRef := ⟨0x18, 0x80, 0x0, 0, 8⟩
def F.RST_ESC_SITE_WINDOW_S : FieldRef := ⟨0x18, 0x80, 0x0, 16, 32⟩
/-- R426, 12_contexts_recovery.md -/
def R.RST_ESC_SITE : RegDef := ⟨"RST_ESC_SITE", 0x18, 0, 1023, 0x80, 0x0, 1, [
    ⟨F.RST_ESC_SITE_LIMIT, .rw, 0x4, .range 1 255⟩,
    ⟨F.RST_ESC_SITE_WINDOW_S, .rw, 0x258, .range 1 4294967295⟩]⟩

def F.RST_ESC_MOD_LIMIT : FieldRef := ⟨0x18, 0x88, 0x0, 0, 8⟩
def F.RST_ESC_MOD_WINDOW_S : FieldRef := ⟨0x18, 0x88, 0x0, 16, 32⟩
/-- R426, 12_contexts_recovery.md -/
def R.RST_ESC_MOD : RegDef := ⟨"RST_ESC_MOD", 0x18, 0, 1023, 0x88, 0x0, 1, [
    ⟨F.RST_ESC_MOD_LIMIT, .rw, 0x3, .range 1 255⟩,
    ⟨F.RST_ESC_MOD_WINDOW_S, .rw, 0xe10, .range 1 4294967295⟩]⟩

def F.RST_AGE_SECONDS : FieldRef := ⟨0x18, 0x90, 0x0, 0, 48⟩
/-- R426, 12_contexts_recovery.md -/
def R.RST_AGE : RegDef := ⟨"RST_AGE", 0x18, 0, 1023, 0x90, 0x0, 1, [
    ⟨F.RST_AGE_SECONDS, .ro, 0x0, .none⟩]⟩

def F.RST_MAPPED_MASK : FieldRef := ⟨0x18, 0x98, 0x0, 0, 64⟩
/-- R426, 12_contexts_recovery.md -/
def R.RST_MAPPED : RegDef := ⟨"RST_MAPPED", 0x18, 0, 1023, 0x98, 0x0, 1, [
    ⟨F.RST_MAPPED_MASK, .ro, 0x0, .none⟩]⟩

def F.RST_SITES_COUNT : FieldRef := ⟨0x18, 0xa0, 0x0, 0, 7⟩
/-- R426, 12_contexts_recovery.md -/
def R.RST_SITES : RegDef := ⟨"RST_SITES", 0x18, 0, 1023, 0xa0, 0x0, 1, [
    ⟨F.RST_SITES_COUNT, .ro, 0x3c, .none⟩]⟩

def F.RST_SEL_SITE : FieldRef := ⟨0x18, 0xa8, 0x0, 0, 6⟩
/-- R426, 12_contexts_recovery.md -/
def R.RST_SEL : RegDef := ⟨"RST_SEL", 0x18, 0, 1023, 0xa8, 0x0, 1, [
    ⟨F.RST_SEL_SITE, .rw, 0x0, .none⟩]⟩

def F.RST_SITE_INFO_IN_WINDOW : FieldRef := ⟨0x18, 0xb0, 0x0, 0, 8⟩
def F.RST_SITE_INFO_MAPPED : FieldRef := ⟨0x18, 0xb0, 0x0, 8, 1⟩
def F.RST_SITE_INFO_REASON : FieldRef := ⟨0x18, 0xb0, 0x0, 9, 2⟩
/-- R426, 12_contexts_recovery.md -/
def R.RST_SITE_INFO : RegDef := ⟨"RST_SITE_INFO", 0x18, 0, 1023, 0xb0, 0x0, 1, [
    ⟨F.RST_SITE_INFO_IN_WINDOW, .ro, 0x0, .none⟩,
    ⟨F.RST_SITE_INFO_MAPPED, .ro, 0x0, .none⟩,
    ⟨F.RST_SITE_INFO_REASON, .ro, 0x0, .none⟩]⟩

def F.RST_MOD_INFO_IN_WINDOW : FieldRef := ⟨0x18, 0xb8, 0x0, 0, 8⟩
def F.RST_MOD_INFO_OOS : FieldRef := ⟨0x18, 0xb8, 0x0, 8, 1⟩
/-- R426, 12_contexts_recovery.md -/
def R.RST_MOD_INFO : RegDef := ⟨"RST_MOD_INFO", 0x18, 0, 1023, 0xb8, 0x0, 1, [
    ⟨F.RST_MOD_INFO_IN_WINDOW, .ro, 0x0, .none⟩,
    ⟨F.RST_MOD_INFO_OOS, .ro, 0x0, .none⟩]⟩

def F.RST_UNMAP_SITE : FieldRef := ⟨0x18, 0xc0, 0x0, 0, 6⟩
def F.RST_UNMAP_GO : FieldRef := ⟨0x18, 0xc0, 0x0, 8, 1⟩
/-- R426, 12_contexts_recovery.md -/
def R.RST_UNMAP : RegDef := ⟨"RST_UNMAP", 0x18, 0, 1023, 0xc0, 0x0, 1, [
    ⟨F.RST_UNMAP_SITE, .wo, 0x0, .none⟩,
    ⟨F.RST_UNMAP_GO, .wo, 0x0, .none⟩]⟩

def F.RST_OOS_ACK_CODE : FieldRef := ⟨0x18, 0xc8, 0x0, 0, 32⟩
/-- R426, 12_contexts_recovery.md -/
def R.RST_OOS_ACK : RegDef := ⟨"RST_OOS_ACK", 0x18, 0, 1023, 0xc8, 0x0, 1, [
    ⟨F.RST_OOS_ACK_CODE, .wo, 0x0, .none⟩]⟩

def F.RST_DUMPWIN_OFFSET : FieldRef := ⟨0x18, 0x100, 0x8, 0, 12⟩
def F.RST_DUMPWIN_EN : FieldRef := ⟨0x18, 0x100, 0x8, 63, 1⟩
/-- R426, 12_contexts_recovery.md -/
def R.RST_DUMPWIN : RegDef := ⟨"RST_DUMPWIN", 0x18, 0, 1023, 0x100, 0x8, 16, [
    ⟨F.RST_DUMPWIN_OFFSET, .rw, 0x0, .none⟩,
    ⟨F.RST_DUMPWIN_EN, .rw, 0x0, .none⟩]⟩

def F.TRC_CFG_EN : FieldRef := ⟨0x7, 0x40, 0x0, 0, 1⟩
def F.TRC_CFG_STOP : FieldRef := ⟨0x7, 0x40, 0x0, 1, 1⟩
def F.TRC_CFG_KIND_EN : FieldRef := ⟨0x7, 0x40, 0x0, 8, 16⟩
/-- R428, 12_contexts_recovery.md -/
def R.TRC_CFG : RegDef := ⟨"TRC_CFG", 0x7, 0, 1023, 0x40, 0x0, 1, [
    ⟨F.TRC_CFG_EN, .rw, 0x1, .none⟩,
    ⟨F.TRC_CFG_STOP, .rw, 0x0, .none⟩,
    ⟨F.TRC_CFG_KIND_EN, .rw, 0xffff, .none⟩]⟩

def F.TRC_WIDX_WIDX : FieldRef := ⟨0x7, 0x48, 0x0, 0, 11⟩
def F.TRC_WIDX_WRAPPED : FieldRef := ⟨0x7, 0x48, 0x0, 11, 1⟩
/-- R428, 12_contexts_recovery.md -/
def R.TRC_WIDX : RegDef := ⟨"TRC_WIDX", 0x7, 0, 1023, 0x48, 0x0, 1, [
    ⟨F.TRC_WIDX_WIDX, .ro, 0x0, .none⟩,
    ⟨F.TRC_WIDX_WRAPPED, .ro, 0x0, .none⟩]⟩

def F.TRC_LOST_COUNT : FieldRef := ⟨0x7, 0x50, 0x0, 0, 48⟩
/-- R428, 12_contexts_recovery.md -/
def R.TRC_LOST : RegDef := ⟨"TRC_LOST", 0x7, 0, 1023, 0x50, 0x0, 1, [
    ⟨F.TRC_LOST_COUNT, .rc, 0x0, .none⟩]⟩

def F.TRC_RSEL_INDEX : FieldRef := ⟨0x7, 0x58, 0x0, 0, 11⟩
/-- R428, 12_contexts_recovery.md -/
def R.TRC_RSEL : RegDef := ⟨"TRC_RSEL", 0x7, 0, 1023, 0x58, 0x0, 1, [
    ⟨F.TRC_RSEL_INDEX, .rw, 0x0, .none⟩]⟩

def F.TRC_RDATA_DATA : FieldRef := ⟨0x7, 0x60, 0x8, 0, 64⟩
/-- R428, 12_contexts_recovery.md -/
def R.TRC_RDATA : RegDef := ⟨"TRC_RDATA", 0x7, 0, 1023, 0x60, 0x8, 4, [
    ⟨F.TRC_RDATA_DATA, .ro, 0x0, .none⟩]⟩

def F.PWR_CFG_EN : FieldRef := ⟨0x19, 0x40, 0x0, 0, 1⟩
def F.PWR_CFG_BALLAST_EN : FieldRef := ⟨0x19, 0x40, 0x0, 1, 1⟩
def F.PWR_CFG_ALIGN_N : FieldRef := ⟨0x19, 0x40, 0x0, 8, 8⟩
/-- R446, 13_power_facility.md -/
def R.PWR_CFG : RegDef := ⟨"PWR_CFG", 0x19, 0, 1023, 0x40, 0x0, 1, [
    ⟨F.PWR_CFG_EN, .rw, 0x1, .none⟩,
    ⟨F.PWR_CFG_BALLAST_EN, .rw, 0x1, .none⟩,
    ⟨F.PWR_CFG_ALIGN_N, .rw, 0x1, .range 1 255⟩]⟩

def F.PWR_SLEW_UP_W_MS : FieldRef := ⟨0x19, 0x48, 0x0, 0, 16⟩
def F.PWR_SLEW_DN_W_MS : FieldRef := ⟨0x19, 0x48, 0x0, 16, 16⟩
/-- R446, 13_power_facility.md -/
def R.PWR_SLEW : RegDef := ⟨"PWR_SLEW", 0x19, 0, 1023, 0x48, 0x0, 1, [
    ⟨F.PWR_SLEW_UP_W_MS, .rw, 0x7d0, .range 100 16500⟩,
    ⟨F.PWR_SLEW_DN_W_MS, .rw, 0x3e8, .range 100 16500⟩]⟩

def F.PWR_LIMIT_CAP_W : FieldRef := ⟨0x19, 0x50, 0x0, 0, 16⟩
def F.PWR_LIMIT_STATIC_W : FieldRef := ⟨0x19, 0x50, 0x0, 16, 16⟩
def F.PWR_LIMIT_FRAC_MIN : FieldRef := ⟨0x19, 0x50, 0x0, 32, 9⟩
/-- R446, 13_power_facility.md -/
def R.PWR_LIMIT : RegDef := ⟨"PWR_LIMIT", 0x19, 0, 1023, 0x50, 0x0, 1, [
    ⟨F.PWR_LIMIT_CAP_W, .rw, 0x3a98, .range 1000 15000⟩,
    ⟨F.PWR_LIMIT_STATIC_W, .rw, 0x1194, .none⟩,
    ⟨F.PWR_LIMIT_FRAC_MIN, .rw, 0x10, .range 1 256⟩]⟩

def F.PWR_FLOOR_DROP_W : FieldRef := ⟨0x19, 0x58, 0x0, 0, 16⟩
def F.PWR_FLOOR_FLOOR_FRAC : FieldRef := ⟨0x19, 0x58, 0x0, 16, 8⟩
def F.PWR_FLOOR_HOLD_US : FieldRef := ⟨0x19, 0x58, 0x0, 32, 16⟩
/-- R446, 13_power_facility.md -/
def R.PWR_FLOOR : RegDef := ⟨"PWR_FLOOR", 0x19, 0, 1023, 0x58, 0x0, 1, [
    ⟨F.PWR_FLOOR_DROP_W, .rw, 0x1f4, .none⟩,
    ⟨F.PWR_FLOOR_FLOOR_FRAC, .rw, 0xf3, .none⟩,
    ⟨F.PWR_FLOOR_HOLD_US, .rw, 0x3e8, .none⟩]⟩

def F.PWR_BALLAST_MAX_W : FieldRef := ⟨0x19, 0x60, 0x0, 0, 16⟩
def F.PWR_BALLAST_SITE_LEAK_W : FieldRef := ⟨0x19, 0x60, 0x0, 16, 16⟩
/-- R446, 13_power_facility.md -/
def R.PWR_BALLAST : RegDef := ⟨"PWR_BALLAST", 0x19, 0, 1023, 0x60, 0x0, 1, [
    ⟨F.PWR_BALLAST_MAX_W, .rw, 0x1770, .range 0 8000⟩,
    ⟨F.PWR_BALLAST_SITE_LEAK_W, .rw, 0x14, .range 1 200⟩]⟩

def F.PWR_THERM_TJ_TARGET : FieldRef := ⟨0x19, 0x68, 0x0, 0, 8⟩
def F.PWR_THERM_TJ_TRIP : FieldRef := ⟨0x19, 0x68, 0x0, 8, 8⟩
def F.PWR_THERM_THETA_MK_W : FieldRef := ⟨0x19, 0x68, 0x0, 16, 16⟩
def F.PWR_THERM_TAU_US : FieldRef := ⟨0x19, 0x68, 0x0, 32, 16⟩
def F.PWR_THERM_HORIZON_US : FieldRef := ⟨0x19, 0x68, 0x0, 48, 16⟩
/-- R446, 13_power_facility.md -/
def R.PWR_THERM : RegDef := ⟨"PWR_THERM", 0x19, 0, 1023, 0x68, 0x0, 1, [
    ⟨F.PWR_THERM_TJ_TARGET, .rw, 0x5f, .range 60 105⟩,
    ⟨F.PWR_THERM_TJ_TRIP, .rw, 0x6e, .none⟩,
    ⟨F.PWR_THERM_THETA_MK_W, .rw, 0xe6, .none⟩,
    ⟨F.PWR_THERM_TAU_US, .rw, 0x4e20, .range 1000 65535⟩,
    ⟨F.PWR_THERM_HORIZON_US, .rw, 0x1388, .none⟩]⟩

def F.PWR_THERM_STEP_STEP_W : FieldRef := ⟨0x19, 0x70, 0x0, 0, 16⟩
/-- R446, 13_power_facility.md -/
def R.PWR_THERM_STEP : RegDef := ⟨"PWR_THERM_STEP", 0x19, 0, 1023, 0x70, 0x0, 1, [
    ⟨F.PWR_THERM_STEP_STEP_W, .rw, 0xc8, .range 10 5000⟩]⟩

def F.PWR_WAKE_US : FieldRef := ⟨0x19, 0x78, 0x0, 0, 32⟩
def F.PWR_WAKE_DEEP_OK : FieldRef := ⟨0x19, 0x78, 0x0, 32, 1⟩
/-- R446, 13_power_facility.md -/
def R.PWR_WAKE : RegDef := ⟨"PWR_WAKE", 0x19, 0, 1023, 0x78, 0x0, 1, [
    ⟨F.PWR_WAKE_US, .rw, 0x1, .none⟩,
    ⟨F.PWR_WAKE_DEEP_OK, .rw, 0x0, .none⟩]⟩

def F.PWR_STATE_STATE : FieldRef := ⟨0x19, 0x80, 0x0, 0, 2⟩
def F.PWR_STATE_TARGET : FieldRef := ⟨0x19, 0x80, 0x0, 2, 2⟩
def F.PWR_STATE_TRANSITION : FieldRef := ⟨0x19, 0x80, 0x0, 4, 1⟩
/-- R446, 13_power_facility.md -/
def R.PWR_STATE : RegDef := ⟨"PWR_STATE", 0x19, 0, 1023, 0x80, 0x0, 1, [
    ⟨F.PWR_STATE_STATE, .ro, 0x0, .none⟩,
    ⟨F.PWR_STATE_TARGET, .ro, 0x0, .none⟩,
    ⟨F.PWR_STATE_TRANSITION, .ro, 0x0, .none⟩]⟩

def F.PWR_QUIET_US : FieldRef := ⟨0x19, 0x88, 0x0, 0, 16⟩
/-- R446, 13_power_facility.md -/
def R.PWR_QUIET : RegDef := ⟨"PWR_QUIET", 0x19, 0, 1023, 0x88, 0x0, 1, [
    ⟨F.PWR_QUIET_US, .rw, 0x64, .range 10 65535⟩]⟩

def F.PWR_MEAS_INPUT_W : FieldRef := ⟨0x19, 0x90, 0x0, 0, 16⟩
def F.PWR_MEAS_BALLAST_W : FieldRef := ⟨0x19, 0x90, 0x0, 16, 16⟩
def F.PWR_MEAS_TARGET_W : FieldRef := ⟨0x19, 0x90, 0x0, 32, 16⟩
def F.PWR_MEAS_PRED_TJ : FieldRef := ⟨0x19, 0x90, 0x0, 48, 16⟩
/-- R446, 13_power_facility.md -/
def R.PWR_MEAS : RegDef := ⟨"PWR_MEAS", 0x19, 0, 1023, 0x90, 0x0, 1, [
    ⟨F.PWR_MEAS_INPUT_W, .ro, 0x0, .none⟩,
    ⟨F.PWR_MEAS_BALLAST_W, .ro, 0x0, .none⟩,
    ⟨F.PWR_MEAS_TARGET_W, .ro, 0x0, .none⟩,
    ⟨F.PWR_MEAS_PRED_TJ, .ro, 0x0, .none⟩]⟩

def F.PWR_TRACE_SAVE_ADDR : FieldRef := ⟨0x19, 0x98, 0x0, 22, 42⟩
/-- R446, 13_power_facility.md -/
def R.PWR_TRACE_SAVE : RegDef := ⟨"PWR_TRACE_SAVE", 0x19, 0, 1023, 0x98, 0x0, 1, [
    ⟨F.PWR_TRACE_SAVE_ADDR, .rw, 0x0, .none⟩]⟩

def F.PWR_EXITLAT_NAP_US : FieldRef := ⟨0x19, 0xa0, 0x0, 0, 32⟩
def F.PWR_EXITLAT_DEEP_US : FieldRef := ⟨0x19, 0xa0, 0x0, 32, 32⟩
/-- R446, 13_power_facility.md -/
def R.PWR_EXITLAT : RegDef := ⟨"PWR_EXITLAT", 0x19, 0, 1023, 0xa0, 0x0, 1, [
    ⟨F.PWR_EXITLAT_NAP_US, .ro, 0x28c, .none⟩,
    ⟨F.PWR_EXITLAT_DEEP_US, .ro, 0xa5c, .none⟩]⟩

def F.PWR_ECOEF_CORE_PJ : FieldRef := ⟨0x19, 0xa8, 0x0, 0, 16⟩
def F.PWR_ECOEF_HBM_PJ : FieldRef := ⟨0x19, 0xa8, 0x0, 16, 16⟩
def F.PWR_ECOEF_BULK_PJ : FieldRef := ⟨0x19, 0xa8, 0x0, 32, 16⟩
def F.PWR_ECOEF_FLIT_PJ : FieldRef := ⟨0x19, 0xa8, 0x0, 48, 16⟩
/-- R446, 13_power_facility.md -/
def R.PWR_ECOEF : RegDef := ⟨"PWR_ECOEF", 0x19, 0, 1023, 0xa8, 0x0, 1, [
    ⟨F.PWR_ECOEF_CORE_PJ, .rw, 0x1216, .none⟩,
    ⟨F.PWR_ECOEF_HBM_PJ, .rw, 0x44c, .none⟩,
    ⟨F.PWR_ECOEF_BULK_PJ, .rw, 0xb54, .none⟩,
    ⟨F.PWR_ECOEF_FLIT_PJ, .rw, 0x5208, .none⟩]⟩

def F.PWR_ECOEF2_MESH_PJ : FieldRef := ⟨0x19, 0xb0, 0x0, 0, 16⟩
/-- R446, 13_power_facility.md -/
def R.PWR_ECOEF2 : RegDef := ⟨"PWR_ECOEF2", 0x19, 0, 1023, 0xb0, 0x0, 1, [
    ⟨F.PWR_ECOEF2_MESH_PJ, .rw, 0x12c, .none⟩]⟩

def F.PWR_SLEW_VIOL_COUNT : FieldRef := ⟨0x19, 0xb8, 0x0, 0, 48⟩
/-- R446, 13_power_facility.md -/
def R.PWR_SLEW_VIOL : RegDef := ⟨"PWR_SLEW_VIOL", 0x19, 0, 1023, 0xb8, 0x0, 1, [
    ⟨F.PWR_SLEW_VIOL_COUNT, .rc, 0x0, .none⟩]⟩

def F.PWR_BALLAST_MJ_COUNT : FieldRef := ⟨0x19, 0xc0, 0x0, 0, 48⟩
/-- R446, 13_power_facility.md -/
def R.PWR_BALLAST_MJ : RegDef := ⟨"PWR_BALLAST_MJ", 0x19, 0, 1023, 0xc0, 0x0, 1, [
    ⟨F.PWR_BALLAST_MJ_COUNT, .rc, 0x0, .none⟩]⟩

def F.MON_TEMP_T : FieldRef := ⟨0x8, 0x40, 0x8, 0, 16⟩
/-- R447, 13_power_facility.md -/
def R.MON_TEMP : RegDef := ⟨"MON_TEMP", 0x8, 0, 63, 0x40, 0x8, 16, [
    ⟨F.MON_TEMP_T, .ro, 0x0, .none⟩]⟩

def F.MON_STEMP_T : FieldRef := ⟨0x8, 0xc0, 0x8, 0, 16⟩
/-- R447, 13_power_facility.md -/
def R.MON_STEMP : RegDef := ⟨"MON_STEMP", 0x8, 0, 63, 0xc0, 0x8, 4, [
    ⟨F.MON_STEMP_T, .ro, 0x0, .none⟩]⟩

def F.MON_TMAX_T : FieldRef := ⟨0x8, 0xe0, 0x0, 0, 16⟩
def F.MON_TMAX_SENSOR : FieldRef := ⟨0x8, 0xe0, 0x0, 16, 5⟩
/-- R447, 13_power_facility.md -/
def R.MON_TMAX : RegDef := ⟨"MON_TMAX", 0x8, 0, 63, 0xe0, 0x0, 1, [
    ⟨F.MON_TMAX_T, .ro, 0x0, .none⟩,
    ⟨F.MON_TMAX_SENSOR, .ro, 0x0, .none⟩]⟩

def F.MON_DROOP_MV : FieldRef := ⟨0x8, 0xe8, 0x0, 0, 8⟩
/-- R447, 13_power_facility.md -/
def R.MON_DROOP : RegDef := ⟨"MON_DROOP", 0x8, 0, 63, 0xe8, 0x0, 1, [
    ⟨F.MON_DROOP_MV, .rw, 0x32, .range 10 200⟩]⟩

def F.MON_DROOP_CNT_COUNT : FieldRef := ⟨0x8, 0xf0, 0x0, 0, 48⟩
/-- R447, 13_power_facility.md -/
def R.MON_DROOP_CNT : RegDef := ⟨"MON_DROOP_CNT", 0x8, 0, 63, 0xf0, 0x0, 1, [
    ⟨F.MON_DROOP_CNT_COUNT, .rc, 0x0, .none⟩]⟩

def F.MON_PROC_COUNT : FieldRef := ⟨0x8, 0xf8, 0x8, 0, 32⟩
/-- R447, 13_power_facility.md -/
def R.MON_PROC : RegDef := ⟨"MON_PROC", 0x8, 0, 63, 0xf8, 0x8, 4, [
    ⟨F.MON_PROC_COUNT, .ro, 0x0, .none⟩]⟩

def F.MON_VIN_MV : FieldRef := ⟨0x8, 0x40, 0x0, 0, 16⟩
/-- R447, 13_power_facility.md -/
def R.MON_VIN : RegDef := ⟨"MON_VIN", 0x8, 64, 64, 0x40, 0x0, 1, [
    ⟨F.MON_VIN_MV, .ro, 0x0, .none⟩]⟩

def F.MON_IIN_A10M : FieldRef := ⟨0x8, 0x48, 0x0, 0, 16⟩
/-- R447, 13_power_facility.md -/
def R.MON_IIN : RegDef := ⟨"MON_IIN", 0x8, 64, 64, 0x48, 0x0, 1, [
    ⟨F.MON_IIN_A10M, .ro, 0x0, .none⟩]⟩

def F.MON_PIN_W : FieldRef := ⟨0x8, 0x50, 0x0, 0, 16⟩
/-- R447, 13_power_facility.md -/
def R.MON_PIN : RegDef := ⟨"MON_PIN", 0x8, 64, 64, 0x50, 0x0, 1, [
    ⟨F.MON_PIN_W, .ro, 0x0, .none⟩]⟩

def F.MON_TIN_T : FieldRef := ⟨0x8, 0x58, 0x0, 0, 16⟩
/-- R447, 13_power_facility.md -/
def R.MON_TIN : RegDef := ⟨"MON_TIN", 0x8, 64, 64, 0x58, 0x0, 1, [
    ⟨F.MON_TIN_T, .ro, 0x0, .none⟩]⟩

def F.MON_TOUT_T : FieldRef := ⟨0x8, 0x60, 0x0, 0, 16⟩
/-- R447, 13_power_facility.md -/
def R.MON_TOUT : RegDef := ⟨"MON_TOUT", 0x8, 64, 64, 0x60, 0x0, 1, [
    ⟨F.MON_TOUT_T, .ro, 0x0, .none⟩]⟩

def F.MON_FLOW_CLPM : FieldRef := ⟨0x8, 0x68, 0x0, 0, 16⟩
/-- R447, 13_power_facility.md -/
def R.MON_FLOW : RegDef := ⟨"MON_FLOW", 0x8, 64, 64, 0x68, 0x0, 1, [
    ⟨F.MON_FLOW_CLPM, .ro, 0x0, .none⟩]⟩

def F.MON_PEAK_W : FieldRef := ⟨0x8, 0x70, 0x0, 0, 16⟩
/-- R447, 13_power_facility.md -/
def R.MON_PEAK : RegDef := ⟨"MON_PEAK", 0x8, 64, 64, 0x70, 0x0, 1, [
    ⟨F.MON_PEAK_W, .rc, 0x0, .none⟩]⟩

def F.PCI_CTRL_RETRAIN : FieldRef := ⟨0x1b, 0x40, 0x0, 0, 1⟩
def F.PCI_CTRL_HOT_RESET : FieldRef := ⟨0x1b, 0x40, 0x0, 1, 1⟩
/-- R466, 14_register_map.md -/
def R.PCI_CTRL : RegDef := ⟨"PCI_CTRL", 0x1b, 0, 1023, 0x40, 0x0, 1, [
    ⟨F.PCI_CTRL_RETRAIN, .wo, 0x0, .none⟩,
    ⟨F.PCI_CTRL_HOT_RESET, .wo, 0x0, .none⟩]⟩

def F.PCI_CFG_MAX_SPEED : FieldRef := ⟨0x1b, 0x48, 0x0, 0, 3⟩
def F.PCI_CFG_MAX_WIDTH : FieldRef := ⟨0x1b, 0x48, 0x0, 4, 5⟩
def F.PCI_CFG_L0P_EN : FieldRef := ⟨0x1b, 0x48, 0x0, 9, 1⟩
/-- R466, 14_register_map.md -/
def R.PCI_CFG : RegDef := ⟨"PCI_CFG", 0x1b, 0, 1023, 0x48, 0x0, 1, [
    ⟨F.PCI_CFG_MAX_SPEED, .rw, 0x6, .none⟩,
    ⟨F.PCI_CFG_MAX_WIDTH, .rw, 0x10, .none⟩,
    ⟨F.PCI_CFG_L0P_EN, .rw, 0x1, .none⟩]⟩

def F.PCI_STATUS_LINK_UP : FieldRef := ⟨0x1b, 0x50, 0x0, 0, 1⟩
def F.PCI_STATUS_SPEED : FieldRef := ⟨0x1b, 0x50, 0x0, 1, 3⟩
def F.PCI_STATUS_WIDTH : FieldRef := ⟨0x1b, 0x50, 0x0, 4, 5⟩
def F.PCI_STATUS_ROOT : FieldRef := ⟨0x1b, 0x50, 0x0, 9, 1⟩
def F.PCI_STATUS_FLIT : FieldRef := ⟨0x1b, 0x50, 0x0, 10, 1⟩
/-- R466, 14_register_map.md -/
def R.PCI_STATUS : RegDef := ⟨"PCI_STATUS", 0x1b, 0, 1023, 0x50, 0x0, 1, [
    ⟨F.PCI_STATUS_LINK_UP, .ro, 0x0, .none⟩,
    ⟨F.PCI_STATUS_SPEED, .ro, 0x0, .none⟩,
    ⟨F.PCI_STATUS_WIDTH, .ro, 0x0, .none⟩,
    ⟨F.PCI_STATUS_ROOT, .ro, 0x0, .none⟩,
    ⟨F.PCI_STATUS_FLIT, .ro, 0x0, .none⟩]⟩

def F.PCI_CE_COUNT : FieldRef := ⟨0x1b, 0x58, 0x0, 0, 48⟩
/-- R466, 14_register_map.md -/
def R.PCI_CE : RegDef := ⟨"PCI_CE", 0x1b, 0, 1023, 0x58, 0x0, 1, [
    ⟨F.PCI_CE_COUNT, .rc, 0x0, .none⟩]⟩

def F.PCI_UE_COUNT : FieldRef := ⟨0x1b, 0x60, 0x0, 0, 48⟩
/-- R466, 14_register_map.md -/
def R.PCI_UE : RegDef := ⟨"PCI_UE", 0x1b, 0, 1023, 0x60, 0x0, 1, [
    ⟨F.PCI_UE_COUNT, .rc, 0x0, .none⟩]⟩

def F.PCI_RECOVERY_COUNT : FieldRef := ⟨0x1b, 0x68, 0x0, 0, 48⟩
/-- R466, 14_register_map.md -/
def R.PCI_RECOVERY : RegDef := ⟨"PCI_RECOVERY", 0x1b, 0, 1023, 0x68, 0x0, 1, [
    ⟨F.PCI_RECOVERY_COUNT, .rc, 0x0, .none⟩]⟩

def F.PCI_ABORTS_COUNT : FieldRef := ⟨0x1b, 0x70, 0x0, 0, 48⟩
/-- R466, 14_register_map.md -/
def R.PCI_ABORTS : RegDef := ⟨"PCI_ABORTS", 0x1b, 0, 1023, 0x70, 0x0, 1, [
    ⟨F.PCI_ABORTS_COUNT, .rc, 0x0, .none⟩]⟩

def F.FUS_IDENT_PART : FieldRef := ⟨0x1e, 0x40, 0x0, 0, 16⟩
def F.FUS_IDENT_STEPPING : FieldRef := ⟨0x1e, 0x40, 0x0, 16, 8⟩
def F.FUS_IDENT_FAMILY : FieldRef := ⟨0x1e, 0x40, 0x0, 24, 8⟩
/-- R468, 14_register_map.md -/
def R.FUS_IDENT : RegDef := ⟨"FUS_IDENT", 0x1e, 0, 1023, 0x40, 0x0, 1, [
    ⟨F.FUS_IDENT_PART, .ro, 0x6048, .none⟩,
    ⟨F.FUS_IDENT_STEPPING, .ro, 0x0, .none⟩,
    ⟨F.FUS_IDENT_FAMILY, .ro, 0x1, .none⟩]⟩

def F.FUS_SERIAL_SERIAL : FieldRef := ⟨0x1e, 0x48, 0x0, 0, 48⟩
/-- R468, 14_register_map.md -/
def R.FUS_SERIAL : RegDef := ⟨"FUS_SERIAL", 0x1e, 0, 1023, 0x48, 0x0, 1, [
    ⟨F.FUS_SERIAL_SERIAL, .ro, 0x0, .none⟩]⟩

def F.FUS_SITES_GOOD : FieldRef := ⟨0x1e, 0x50, 0x0, 0, 64⟩
/-- R468, 14_register_map.md -/
def R.FUS_SITES : RegDef := ⟨"FUS_SITES", 0x1e, 0, 1023, 0x50, 0x0, 1, [
    ⟨F.FUS_SITES_GOOD, .ro, 0x0, .none⟩]⟩

def F.SEC_BOOT_STEP : FieldRef := ⟨0x1c, 0x40, 0x0, 0, 4⟩
def F.SEC_BOOT_IMAGE : FieldRef := ⟨0x1c, 0x40, 0x0, 4, 1⟩
def F.SEC_BOOT_FALLBACK : FieldRef := ⟨0x1c, 0x40, 0x0, 5, 1⟩
def F.SEC_BOOT_VERSION : FieldRef := ⟨0x1c, 0x40, 0x0, 32, 32⟩
/-- R486, 15_bringup_security.md -/
def R.SEC_BOOT : RegDef := ⟨"SEC_BOOT", 0x1c, 0, 1023, 0x40, 0x0, 1, [
    ⟨F.SEC_BOOT_STEP, .ro, 0x1, .none⟩,
    ⟨F.SEC_BOOT_IMAGE, .ro, 0x0, .none⟩,
    ⟨F.SEC_BOOT_FALLBACK, .ro, 0x0, .none⟩,
    ⟨F.SEC_BOOT_VERSION, .ro, 0x0, .none⟩]⟩

def F.SEC_TAMPER_EN_SOURCES : FieldRef := ⟨0x1c, 0x48, 0x0, 0, 4⟩
/-- R486, 15_bringup_security.md -/
def R.SEC_TAMPER_EN : RegDef := ⟨"SEC_TAMPER_EN", 0x1c, 0, 1023, 0x48, 0x0, 1, [
    ⟨F.SEC_TAMPER_EN_SOURCES, .rw, 0xf, .none⟩]⟩

def F.SEC_TAMPER_SOURCES : FieldRef := ⟨0x1c, 0x50, 0x0, 0, 4⟩
/-- R486, 15_bringup_security.md -/
def R.SEC_TAMPER : RegDef := ⟨"SEC_TAMPER", 0x1c, 0, 1023, 0x50, 0x0, 1, [
    ⟨F.SEC_TAMPER_SOURCES, .w1c, 0x0, .none⟩]⟩

def F.SEC_TAMPER_TIDE_TIDE : FieldRef := ⟨0x1c, 0x58, 0x0, 0, 64⟩
/-- R486, 15_bringup_security.md -/
def R.SEC_TAMPER_TIDE : RegDef := ⟨"SEC_TAMPER_TIDE", 0x1c, 0, 1023, 0x58, 0x0, 1, [
    ⟨F.SEC_TAMPER_TIDE_TIDE, .ro, 0x0, .none⟩]⟩

def F.SEC_TAMPER_CNT_COUNT : FieldRef := ⟨0x1c, 0x60, 0x0, 0, 48⟩
/-- R486, 15_bringup_security.md -/
def R.SEC_TAMPER_CNT : RegDef := ⟨"SEC_TAMPER_CNT", 0x1c, 0, 1023, 0x60, 0x0, 1, [
    ⟨F.SEC_TAMPER_CNT_COUNT, .ro, 0x0, .none⟩]⟩

def F.SEC_FWUP_ADDR_ADDR : FieldRef := ⟨0x1c, 0x68, 0x0, 12, 52⟩
/-- R486, 15_bringup_security.md -/
def R.SEC_FWUP_ADDR : RegDef := ⟨"SEC_FWUP_ADDR", 0x1c, 0, 1023, 0x68, 0x0, 1, [
    ⟨F.SEC_FWUP_ADDR_ADDR, .rw, 0x0, .none⟩]⟩

def F.SEC_FWUP_LEN_BYTES : FieldRef := ⟨0x1c, 0x70, 0x0, 0, 27⟩
/-- R486, 15_bringup_security.md -/
def R.SEC_FWUP_LEN : RegDef := ⟨"SEC_FWUP_LEN", 0x1c, 0, 1023, 0x70, 0x0, 1, [
    ⟨F.SEC_FWUP_LEN_BYTES, .rw, 0x0, .range 4096 67108864⟩]⟩

def F.SEC_FWUP_CMD_START : FieldRef := ⟨0x1c, 0x78, 0x0, 0, 1⟩
/-- R486, 15_bringup_security.md -/
def R.SEC_FWUP_CMD : RegDef := ⟨"SEC_FWUP_CMD", 0x1c, 0, 1023, 0x78, 0x0, 1, [
    ⟨F.SEC_FWUP_CMD_START, .wo, 0x0, .none⟩]⟩

def F.SEC_FWUP_STATUS_STATE : FieldRef := ⟨0x1c, 0x80, 0x0, 0, 2⟩
def F.SEC_FWUP_STATUS_REASON : FieldRef := ⟨0x1c, 0x80, 0x0, 4, 4⟩
def F.SEC_FWUP_STATUS_TARGET : FieldRef := ⟨0x1c, 0x80, 0x0, 8, 1⟩
/-- R486, 15_bringup_security.md -/
def R.SEC_FWUP_STATUS : RegDef := ⟨"SEC_FWUP_STATUS", 0x1c, 0, 1023, 0x80, 0x0, 1, [
    ⟨F.SEC_FWUP_STATUS_STATE, .ro, 0x0, .none⟩,
    ⟨F.SEC_FWUP_STATUS_REASON, .ro, 0x0, .none⟩,
    ⟨F.SEC_FWUP_STATUS_TARGET, .ro, 0x0, .none⟩]⟩

def F.LCS_STATE_STATE : FieldRef := ⟨0x1d, 0x40, 0x0, 0, 3⟩
def F.LCS_STATE_BUSY : FieldRef := ⟨0x1d, 0x40, 0x0, 3, 1⟩
/-- R487, 15_bringup_security.md -/
def R.LCS_STATE : RegDef := ⟨"LCS_STATE", 0x1d, 0, 1023, 0x40, 0x0, 1, [
    ⟨F.LCS_STATE_STATE, .ro, 0x0, .none⟩,
    ⟨F.LCS_STATE_BUSY, .ro, 0x0, .none⟩]⟩

def F.LCS_NONCE_NONCE : FieldRef := ⟨0x1d, 0x48, 0x0, 0, 64⟩
/-- R487, 15_bringup_security.md -/
def R.LCS_NONCE : RegDef := ⟨"LCS_NONCE", 0x1d, 0, 1023, 0x48, 0x0, 1, [
    ⟨F.LCS_NONCE_NONCE, .ro, 0x0, .none⟩]⟩

def F.LCS_TOKEN_ADDR : FieldRef := ⟨0x1d, 0x50, 0x0, 8, 56⟩
/-- R487, 15_bringup_security.md -/
def R.LCS_TOKEN : RegDef := ⟨"LCS_TOKEN", 0x1d, 0, 1023, 0x50, 0x0, 1, [
    ⟨F.LCS_TOKEN_ADDR, .rw, 0x0, .none⟩]⟩

def F.LCS_CMD_TARGET : FieldRef := ⟨0x1d, 0x58, 0x0, 0, 3⟩
def F.LCS_CMD_GO : FieldRef := ⟨0x1d, 0x58, 0x0, 8, 1⟩
/-- R487, 15_bringup_security.md -/
def R.LCS_CMD : RegDef := ⟨"LCS_CMD", 0x1d, 0, 1023, 0x58, 0x0, 1, [
    ⟨F.LCS_CMD_TARGET, .wo, 0x0, .enum 5 0⟩,
    ⟨F.LCS_CMD_GO, .wo, 0x0, .none⟩]⟩

def F.LCS_RESULT_CODE : FieldRef := ⟨0x1d, 0x60, 0x0, 0, 4⟩
/-- R487, 15_bringup_security.md -/
def R.LCS_RESULT : RegDef := ⟨"LCS_RESULT", 0x1d, 0, 1023, 0x60, 0x0, 1, [
    ⟨F.LCS_RESULT_CODE, .ro, 0x0, .none⟩]⟩

def F.FUS_LOCK_DEBUG_LOCK : FieldRef := ⟨0x1e, 0x100, 0x0, 0, 1⟩
/-- R488, 15_bringup_security.md -/
def R.FUS_LOCK : RegDef := ⟨"FUS_LOCK", 0x1e, 0, 1023, 0x100, 0x0, 1, [
    ⟨F.FUS_LOCK_DEBUG_LOCK, .ro, 0x0, .none⟩]⟩

def F.FUS_ROLLBACK_MIN : FieldRef := ⟨0x1e, 0x108, 0x0, 0, 7⟩
/-- R488, 15_bringup_security.md -/
def R.FUS_ROLLBACK : RegDef := ⟨"FUS_ROLLBACK", 0x1e, 0, 1023, 0x108, 0x0, 1, [
    ⟨F.FUS_ROLLBACK_MIN, .ro, 0x0, .none⟩]⟩

def F.FUS_KEYSET_PROGRAMMED : FieldRef := ⟨0x1e, 0x110, 0x0, 0, 3⟩
/-- R488, 15_bringup_security.md -/
def R.FUS_KEYSET : RegDef := ⟨"FUS_KEYSET", 0x1e, 0, 1023, 0x110, 0x0, 1, [
    ⟨F.FUS_KEYSET_PROGRAMMED, .ro, 0x0, .none⟩]⟩

def F.FUS_PROG_DEBUG_LOCK : FieldRef := ⟨0x1e, 0x118, 0x0, 0, 1⟩
def F.FUS_PROG_ROLLBACK_SET : FieldRef := ⟨0x1e, 0x118, 0x0, 1, 1⟩
def F.FUS_PROG_KEY_HASH : FieldRef := ⟨0x1e, 0x118, 0x0, 2, 1⟩
def F.FUS_PROG_KEY_SEL : FieldRef := ⟨0x1e, 0x118, 0x0, 4, 2⟩
/-- R488, 15_bringup_security.md -/
def R.FUS_PROG : RegDef := ⟨"FUS_PROG", 0x1e, 0, 1023, 0x118, 0x0, 1, [
    ⟨F.FUS_PROG_DEBUG_LOCK, .wo, 0x0, .none⟩,
    ⟨F.FUS_PROG_ROLLBACK_SET, .wo, 0x0, .none⟩,
    ⟨F.FUS_PROG_KEY_HASH, .wo, 0x0, .none⟩,
    ⟨F.FUS_PROG_KEY_SEL, .wo, 0x0, .none⟩]⟩

def F.FUS_HASH_SRC_ADDR : FieldRef := ⟨0x1e, 0x120, 0x0, 6, 58⟩
/-- R488, 15_bringup_security.md -/
def R.FUS_HASH_SRC : RegDef := ⟨"FUS_HASH_SRC", 0x1e, 0, 1023, 0x120, 0x0, 1, [
    ⟨F.FUS_HASH_SRC_ADDR, .rw, 0x0, .none⟩]⟩

def F.FUS_PROG_STATUS_BUSY : FieldRef := ⟨0x1e, 0x128, 0x0, 0, 1⟩
def F.FUS_PROG_STATUS_RESULT : FieldRef := ⟨0x1e, 0x128, 0x0, 1, 3⟩
/-- R488, 15_bringup_security.md -/
def R.FUS_PROG_STATUS : RegDef := ⟨"FUS_PROG_STATUS", 0x1e, 0, 1023, 0x128, 0x0, 1, [
    ⟨F.FUS_PROG_STATUS_BUSY, .ro, 0x0, .none⟩,
    ⟨F.FUS_PROG_STATUS_RESULT, .ro, 0x0, .none⟩]⟩

def F.LOG_STATUS_READY : FieldRef := ⟨0x1f, 0x40, 0x0, 0, 1⟩
def F.LOG_STATUS_SCANNED : FieldRef := ⟨0x1f, 0x40, 0x0, 1, 1⟩
def F.LOG_STATUS_GC : FieldRef := ⟨0x1f, 0x40, 0x0, 2, 1⟩
def F.LOG_STATUS_FREE : FieldRef := ⟨0x1f, 0x40, 0x0, 4, 10⟩
/-- R489, 15_bringup_security.md -/
def R.LOG_STATUS : RegDef := ⟨"LOG_STATUS", 0x1f, 0, 1023, 0x40, 0x0, 1, [
    ⟨F.LOG_STATUS_READY, .ro, 0x0, .none⟩,
    ⟨F.LOG_STATUS_SCANNED, .ro, 0x0, .none⟩,
    ⟨F.LOG_STATUS_GC, .ro, 0x0, .none⟩,
    ⟨F.LOG_STATUS_FREE, .ro, 0x0, .none⟩]⟩

def F.LOG_SEQ_SEQ : FieldRef := ⟨0x1f, 0x48, 0x0, 0, 64⟩
/-- R489, 15_bringup_security.md -/
def R.LOG_SEQ : RegDef := ⟨"LOG_SEQ", 0x1f, 0, 1023, 0x48, 0x0, 1, [
    ⟨F.LOG_SEQ_SEQ, .ro, 0x0, .none⟩]⟩

def F.LOG_WEAR_MAX : FieldRef := ⟨0x1f, 0x50, 0x0, 0, 32⟩
def F.LOG_WEAR_MIN : FieldRef := ⟨0x1f, 0x50, 0x0, 32, 32⟩
/-- R489, 15_bringup_security.md -/
def R.LOG_WEAR : RegDef := ⟨"LOG_WEAR", 0x1f, 0, 1023, 0x50, 0x0, 1, [
    ⟨F.LOG_WEAR_MAX, .ro, 0x0, .none⟩,
    ⟨F.LOG_WEAR_MIN, .ro, 0x0, .none⟩]⟩

def F.LOG_CMD_GC : FieldRef := ⟨0x1f, 0x58, 0x0, 0, 1⟩
def F.LOG_CMD_EXPORT : FieldRef := ⟨0x1f, 0x58, 0x0, 1, 1⟩
/-- R489, 15_bringup_security.md -/
def R.LOG_CMD : RegDef := ⟨"LOG_CMD", 0x1f, 0, 1023, 0x58, 0x0, 1, [
    ⟨F.LOG_CMD_GC, .wo, 0x0, .none⟩,
    ⟨F.LOG_CMD_EXPORT, .wo, 0x0, .none⟩]⟩

def F.LOG_EXPORT_ADDR : FieldRef := ⟨0x1f, 0x60, 0x0, 12, 52⟩
/-- R489, 15_bringup_security.md -/
def R.LOG_EXPORT : RegDef := ⟨"LOG_EXPORT", 0x1f, 0, 1023, 0x60, 0x0, 1, [
    ⟨F.LOG_EXPORT_ADDR, .rw, 0x0, .none⟩]⟩

def F.LOG_EXPORT_LEN_LIMIT : FieldRef := ⟨0x1f, 0x68, 0x0, 0, 32⟩
def F.LOG_EXPORT_LEN_BYTES : FieldRef := ⟨0x1f, 0x68, 0x0, 32, 32⟩
/-- R489, 15_bringup_security.md -/
def R.LOG_EXPORT_LEN : RegDef := ⟨"LOG_EXPORT_LEN", 0x1f, 0, 1023, 0x68, 0x0, 1, [
    ⟨F.LOG_EXPORT_LEN_LIMIT, .rw, 0x100000, .range 4096 67108864⟩,
    ⟨F.LOG_EXPORT_LEN_BYTES, .ro, 0x0, .none⟩]⟩

def F.LOG_CRC_ERR_COUNT : FieldRef := ⟨0x1f, 0x70, 0x0, 0, 48⟩
/-- R489, 15_bringup_security.md -/
def R.LOG_CRC_ERR : RegDef := ⟨"LOG_CRC_ERR", 0x1f, 0, 1023, 0x70, 0x0, 1, [
    ⟨F.LOG_CRC_ERR_COUNT, .rc, 0x0, .none⟩]⟩

def F.LOG_DROPPED_COUNT : FieldRef := ⟨0x1f, 0x78, 0x0, 0, 48⟩
/-- R489, 15_bringup_security.md -/
def R.LOG_DROPPED : RegDef := ⟨"LOG_DROPPED", 0x1f, 0, 1023, 0x78, 0x0, 1, [
    ⟨F.LOG_DROPPED_COUNT, .rc, 0x0, .none⟩]⟩

def F.WIN_STEP_STEP : FieldRef := ⟨0x1, 0x140, 0x0, 0, 8⟩
/-- R112, 03_tensor_core.md -/
def R.WIN_STEP : RegDef := ⟨"WIN_STEP", 0x1, 0, 1023, 0x140, 0x0, 1, [
    ⟨F.WIN_STEP_STEP, .wo, 0x0, .none⟩]⟩

def F.BLK_CTRL_OFFLINE : FieldRef := ⟨0x12, 0x40, 0x0, 0, 1⟩
/-- R303, 08_memory.md -/
def R.BLK_CTRL : RegDef := ⟨"BLK_CTRL", 0x12, 0, 1023, 0x40, 0x0, 1, [
    ⟨F.BLK_CTRL_OFFLINE, .rw, 0x0, .none⟩]⟩

def F.BLK_STATUS_OFFLINE_ACK : FieldRef := ⟨0x12, 0x48, 0x0, 0, 1⟩
def F.BLK_STATUS_TEMP : FieldRef := ⟨0x12, 0x48, 0x0, 8, 8⟩
/-- R303, 08_memory.md -/
def R.BLK_STATUS : RegDef := ⟨"BLK_STATUS", 0x12, 0, 1023, 0x48, 0x0, 1, [
    ⟨F.BLK_STATUS_OFFLINE_ACK, .ro, 0x0, .none⟩,
    ⟨F.BLK_STATUS_TEMP, .ro, 0x0, .none⟩]⟩

def F.BLK_MARGIN_LANE : FieldRef := ⟨0x12, 0xb0, 0x0, 0, 11⟩
def F.BLK_MARGIN_DELAY : FieldRef := ⟨0x12, 0xb0, 0x0, 16, 6⟩
def F.BLK_MARGIN_VREF : FieldRef := ⟨0x12, 0xb0, 0x0, 24, 6⟩
def F.BLK_MARGIN_SECTORS : FieldRef := ⟨0x12, 0xb0, 0x0, 32, 24⟩
def F.BLK_MARGIN_RUN : FieldRef := ⟨0x12, 0xb0, 0x0, 63, 1⟩
/-- R303, 08_memory.md -/
def R.BLK_MARGIN : RegDef := ⟨"BLK_MARGIN", 0x12, 0, 1023, 0xb0, 0x0, 1, [
    ⟨F.BLK_MARGIN_LANE, .rw, 0x0, .range 0 639⟩,
    ⟨F.BLK_MARGIN_DELAY, .rw, 0x0, .none⟩,
    ⟨F.BLK_MARGIN_VREF, .rw, 0x0, .none⟩,
    ⟨F.BLK_MARGIN_SECTORS, .rw, 0x1000, .range 1 16384⟩,
    ⟨F.BLK_MARGIN_RUN, .rw, 0x0, .none⟩]⟩

def F.BLK_MARGIN_ERR_COUNT : FieldRef := ⟨0x12, 0xb8, 0x0, 0, 48⟩
/-- R303, 08_memory.md -/
def R.BLK_MARGIN_ERR : RegDef := ⟨"BLK_MARGIN_ERR", 0x12, 0, 1023, 0xb8, 0x0, 1, [
    ⟨F.BLK_MARGIN_ERR_COUNT, .ro, 0x0, .none⟩]⟩

/-- The registers of the MSH pages. -/
def regsMSH : List RegDef :=
  [R.MSH_EDGE, R.MSH_FLOOR, R.MSH_CTRL_RESERVE, R.MSH_CRC_ERR, R.MSH_HOLE_ADDR, R.MSH_DETOUR]

/-- The registers of the TC pages. -/
def regsTC : List RegDef :=
  [R.TC_CTRL, R.TC_STATE, R.TC_ABSURD, R.TC_SAT_CNT, R.TC_POISON_CNT, R.TC_TT_COUNT, R.TC_TT_MANIFEST, R.TC_TT_INFO, R.TC_TT_LINE, R.TC_SLIP_COUNT, R.TC_SLIP_MANIFEST, R.TC_SLIP_INFO, R.TC_HOLD_WEIGHT, R.TC_HOLD_BANK, R.TC_HOLD_PORT, R.TC_HOLD_ISSUE]

/-- The registers of the WIN pages. -/
def regsWIN : List RegDef :=
  [R.WIN_BASE, R.WIN_LEN, R.WIN_STRIDE, R.WIN_HEAD, R.WIN_STEP]

/-- The registers of the PIL pages. -/
def regsPIL : List RegDef :=
  [R.PIL_GROUP, R.PIL_PREFETCH, R.PIL_DECODED, R.PIL_STORE, R.PIL_POOL, R.PIL_POLLED, R.PIL_GROUP_LATE]

/-- The registers of the STR pages. -/
def regsSTR : List RegDef :=
  [R.STR_PSEL, R.STR_PARAM, R.STR_PSTRIDE, R.STR_CTRL, R.STR_CFG, R.STR_RING_BASE, R.STR_RING_LEN, R.STR_TAIL, R.STR_POS, R.STR_STATUS, R.STR_RETIRED, R.STR_LAST_RETIRE, R.STR_GATE, R.STR_CREC_BASE, R.STR_CREC_LEN, R.STR_BADOP, R.STR_BADOP_ADDR, R.STR_RACE, R.STR_TIMEOUT]

/-- The registers of the BOL pages. -/
def regsBOL : List RegDef :=
  [R.BOL_LAST_OVF, R.BOL_DROP, R.BOL_SIGNALS, R.BOL_COUNT]

/-- The registers of the TID pages. -/
def regsTID : List RegDef :=
  [R.TID_NOW, R.TID_STATUS, R.TID_CFG, R.TID_IN_DELAY, R.TID_LINK_DELAY, R.TID_OFFSET, R.TID_XING, R.TID_XING_BASE, R.TID_XNUM, R.TID_STEPS]

/-- The registers of the TOL pages. -/
def regsTOL : List RegDef :=
  [R.TOL_ISSUE, R.TOL_HBM, R.TOL_BULK, R.TOL_MESH, R.TOL_VERATH, R.TOL_CKPT, R.TOL_ENERGY, R.TOL_CFG, R.TOL_HELD, R.TOL_HELD_XINGS, R.TOL_PEEK_SEL, R.TOL_PEEK, R.TOL_THROTTLE, R.TOL_CTXMAP]

/-- The registers of the FRY pages. -/
def regsFRY : List RegDef :=
  [R.FRY_CTRL, R.FRY_CFG, R.FRY_DEST, R.FRY_PORTS, R.FRY_TICKET, R.FRY_CREDIT, R.FRY_STATUS, R.FRY_SENT, R.FRY_ERR]

/-- The registers of the LND pages. -/
def regsLND : List RegDef :=
  [R.LND_CTRL, R.LND_CFG, R.LND_BOL, R.LND_BUF, R.LND_SLOT, R.LND_WOFF, R.LND_STATUS, R.LND_LAST, R.LND_DROP, R.LND_ERR]

/-- The registers of the MOR pages. -/
def regsMOR : List RegDef :=
  [R.MOR_STATUS, R.MOR_CFG, R.MOR_AREA, R.MOR_CMD, R.MOR_ERR]

/-- The registers of the DEF pages. -/
def regsDEF : List RegDef :=
  [R.DEF_CFG, R.DEF_SITES, R.DEF_FILL, R.DEF_STATUS, R.DEF_FILLS, R.DEF_FORCED]

/-- The registers of the PHT pages. -/
def regsPHT : List RegDef :=
  [R.PHT_RING, R.PHT_LEN, R.PHT_CFG]

/-- The registers of the PON pages. -/
def regsPON : List RegDef :=
  [R.PON_JOB, R.PON_VETO_TREE, R.PON_VETO_CFG, R.PON_VETO_REC, R.PON_VETO_CLOSE, R.PON_VETO_STATUS, R.PON_VETO_CMD, R.PON_VETO_HOLDS, R.PON_CTRL, R.PON_CFG, R.PON_BUF, R.PON_ENTRY, R.PON_BOL, R.PON_STATUS, R.PON_LAST_TAKE, R.PON_APPLIED, R.PON_SAT, R.PON_WRAP, R.PON_POISON, R.PON_ERR]

/-- The registers of the CTX pages. -/
def regsCTX : List RegDef :=
  [R.CTX_SEG_BASE, R.CTX_SEG_LIMIT, R.CTX_SEG_MAP, R.CTX_SEG_RSV, R.CTX_CTRL, R.CTX_STATE, R.CTX_CFG, R.CTX_KEY_LO, R.CTX_KEY_HI, R.CTX_FAULT, R.CTX_FAULT_ADDR, R.CTX_FAULT_MANIFEST, R.CTX_FAULT_TIDE, R.CTX_TEARDOWNS, R.CTX_TEARDOWN_NS, R.CTX_STALE, R.CTX_LAST_RETIRE, R.CTX_RETIRED, R.CTX_ERREC_BASE, R.CTX_ERREC_LEN, R.CTX_ERRECS]

/-- The registers of the SRM pages. -/
def regsSRM : List RegDef :=
  [R.SRM_BANK, R.SRM_ECC, R.SRM_SCRUB, R.SRM_CE, R.SRM_UE, R.SRM_UE_ADDR, R.SRM_ASLEEP_ADDR, R.SRM_SCRUB_PASSES, R.SRM_HUBMEM, R.SRM_SECURE, R.SRM_SECURE_DENY]

/-- The registers of the HBM pages. -/
def regsHBM : List RegDef :=
  [R.HBM_CTRL, R.HBM_STATUS, R.HBM_THERM, R.HBM_LANES, R.HBM_CE, R.HBM_UE, R.HBM_UE_ADDR, R.HBM_RETIRE_REQ, R.HBM_RETIRE_SEL, R.HBM_RETIRE, R.HBM_RETIRE_CMD, R.HBM_PARITY_RETRY, R.HBM_RFM, R.HBM_OFFLINE_HITS, R.HBM_MARGIN, R.HBM_MARGIN_ERR]

/-- The registers of the BLK pages. -/
def regsBLK : List RegDef :=
  [R.BLK_CFG, R.BLK_SCRUB, R.BLK_LINK_CE, R.BLK_CE, R.BLK_UE, R.BLK_UE_ADDR, R.BLK_OFFLINE_HITS, R.BLK_CTRL, R.BLK_STATUS, R.BLK_MARGIN, R.BLK_MARGIN_ERR]

/-- The registers of the PRT pages. -/
def regsPRT : List RegDef :=
  [R.PRT_CFG, R.PRT_STACKS, R.PRT_RANGE, R.PRT_SIZE]

/-- The registers of the OPT pages. -/
def regsOPT : List RegDef :=
  [R.OPT_CTRL, R.OPT_STATUS, R.OPT_BLOCKS, R.OPT_SAT, R.OPT_POISON, R.OPT_ERR, R.OPT_ERR_ADDR, R.OPT_ERR_INFO, R.OPT_GSEL, R.OPT_GVAL_LO, R.OPT_GVAL_HI, R.OPT_GNORM]

/-- The registers of the CKP pages. -/
def regsCKP : List RegDef :=
  [R.CKP_CTRL, R.CKP_CFG, R.CKP_LIST, R.CKP_STAGE, R.CKP_STAGE_LEN, R.CKP_STAGE_IDX, R.CKP_DST, R.CKP_STATUS, R.CKP_SAVEAHEAD, R.CKP_BYTES_IN, R.CKP_BYTES_OUT]

/-- The registers of the VPT pages. -/
def regsVPT : List RegDef :=
  [R.VPT_CTRL, R.VPT_CFG, R.VPT_TARGET, R.VPT_STATUS, R.VPT_RTT, R.VPT_ACK, R.VPT_SEQ, R.VPT_FEC_CORR, R.VPT_FEC_UNCORR, R.VPT_CRC_ERR, R.VPT_REPLAY, R.VPT_NAK, R.VPT_REPLAY_TO, R.VPT_STALL, R.VPT_NOROUTE, R.VPT_TTL_DROP, R.VPT_LOST, R.VPT_DOWNS, R.VPT_ROUTE_KEY, R.VPT_ROUTE_OUT, R.VPT_NODE, R.VPT_TRANSIT, R.VPT_CENSUS_CMD, R.VPT_CENSUS_CFG, R.VPT_CENSUS, R.VPT_CENSUS_BUF, R.VPT_CENSUS_LEN]

/-- The registers of the CPX pages. -/
def regsCPX : List RegDef :=
  [R.CPX_FREQ, R.CPX_CLASS, R.CPX_CTRL, R.CPX_STATUS, R.CPX_L2_CE, R.CPX_L2_UE, R.CPX_MODE, R.CPX_COHWIN, R.CPX_APERTURE, R.CPX_DIR_RACE, R.CPX_HWERR, R.CPX_EVROUTE]

/-- The registers of the RST pages. -/
def regsRST : List RegDef :=
  [R.RST_CTRL, R.RST_TARGET, R.RST_CFG, R.RST_DUMP_AREA, R.RST_CAUSE, R.RST_CAUSE_SITES, R.RST_CAUSE_TIDE, R.RST_ESC_SITE, R.RST_ESC_MOD, R.RST_AGE, R.RST_MAPPED, R.RST_SITES, R.RST_SEL, R.RST_SITE_INFO, R.RST_MOD_INFO, R.RST_UNMAP, R.RST_OOS_ACK, R.RST_DUMPWIN]

/-- The registers of the TRC pages. -/
def regsTRC : List RegDef :=
  [R.TRC_CFG, R.TRC_WIDX, R.TRC_LOST, R.TRC_RSEL, R.TRC_RDATA]

/-- The registers of the PWR pages. -/
def regsPWR : List RegDef :=
  [R.PWR_CFG, R.PWR_SLEW, R.PWR_LIMIT, R.PWR_FLOOR, R.PWR_BALLAST, R.PWR_THERM, R.PWR_THERM_STEP, R.PWR_WAKE, R.PWR_STATE, R.PWR_QUIET, R.PWR_MEAS, R.PWR_TRACE_SAVE, R.PWR_EXITLAT, R.PWR_ECOEF, R.PWR_ECOEF2, R.PWR_SLEW_VIOL, R.PWR_BALLAST_MJ]

/-- The registers of the MON pages. -/
def regsMON : List RegDef :=
  [R.MON_TEMP, R.MON_STEMP, R.MON_TMAX, R.MON_DROOP, R.MON_DROOP_CNT, R.MON_PROC, R.MON_VIN, R.MON_IIN, R.MON_PIN, R.MON_TIN, R.MON_TOUT, R.MON_FLOW, R.MON_PEAK]

/-- The registers of the PCI pages. -/
def regsPCI : List RegDef :=
  [R.PCI_CTRL, R.PCI_CFG, R.PCI_STATUS, R.PCI_CE, R.PCI_UE, R.PCI_RECOVERY, R.PCI_ABORTS]

/-- The registers of the FUS pages. -/
def regsFUS : List RegDef :=
  [R.FUS_IDENT, R.FUS_SERIAL, R.FUS_SITES, R.FUS_LOCK, R.FUS_ROLLBACK, R.FUS_KEYSET, R.FUS_PROG, R.FUS_HASH_SRC, R.FUS_PROG_STATUS]

/-- The registers of the SEC pages. -/
def regsSEC : List RegDef :=
  [R.SEC_BOOT, R.SEC_TAMPER_EN, R.SEC_TAMPER, R.SEC_TAMPER_TIDE, R.SEC_TAMPER_CNT, R.SEC_FWUP_ADDR, R.SEC_FWUP_LEN, R.SEC_FWUP_CMD, R.SEC_FWUP_STATUS]

/-- The registers of the LCS pages. -/
def regsLCS : List RegDef :=
  [R.LCS_STATE, R.LCS_NONCE, R.LCS_TOKEN, R.LCS_CMD, R.LCS_RESULT]

/-- The registers of the LOG pages. -/
def regsLOG : List RegDef :=
  [R.LOG_STATUS, R.LOG_SEQ, R.LOG_WEAR, R.LOG_CMD, R.LOG_EXPORT, R.LOG_EXPORT_LEN, R.LOG_CRC_ERR, R.LOG_DROPPED]

/-- The registers of a block type (R450). -/
def regsOf (block : Nat) : List RegDef :=
  match block with
  | 0x0 => regsTC
  | 0x1 => regsWIN
  | 0x2 => regsPIL
  | 0x3 => regsSTR
  | 0x4 => regsBOL
  | 0x5 => regsMSH
  | 0x6 => regsSRM
  | 0x7 => regsTRC
  | 0x8 => regsMON
  | 0x9 => regsFRY
  | 0xa => regsLND
  | 0xb => regsMOR
  | 0xc => regsDEF
  | 0xd => regsPHT
  | 0xe => regsPON
  | 0xf => regsOPT
  | 0x10 => regsCKP
  | 0x11 => regsHBM
  | 0x12 => regsBLK
  | 0x13 => regsPRT
  | 0x14 => regsVPT
  | 0x15 => regsTID
  | 0x16 => regsTOL
  | 0x17 => regsCTX
  | 0x18 => regsRST
  | 0x19 => regsPWR
  | 0x1a => regsCPX
  | 0x1b => regsPCI
  | 0x1c => regsSEC
  | 0x1d => regsLCS
  | 0x1e => regsFUS
  | 0x1f => regsLOG
  | _ => []

/-- The repetition of a register that offset `off` of instance `inst` falls on, if it does. -/
def RegDef.index (r : RegDef) (inst off : Nat) : Option Nat :=
  if inst < r.instLo ∨ r.instHi < inst ∨ off < r.off then none
  else if r.stride = 0 then (if off = r.off then some 0 else none)
  else if (off - r.off) % r.stride = 0 ∧ (off - r.off) / r.stride < r.count then some ((off - r.off) / r.stride)
  else none

/-- The register at an offset of a page and which repetition it is; SRM page 27 holds only the hub's registers (R299). -/
def findReg (block inst off : Nat) : Option (RegDef × Nat) :=
  if block = 0x06 ∧ (decide (0xC0 ≤ off) != (inst == 27)) then none else
  (regsOf block).findSome? fun r => (r.index inst off).map fun i => (r, i)

end Sys2Proof.Machine
end

