-- ==== Sys2Proof/Machine/Regs.lean ====
section
/-! DEFINITION. Reading and writing registers by field, raising events and counting (R9, R387, R419, R452 to R454). -/

namespace Sys2Proof.Machine

/-- Offset in register space of a register (R449). -/
def regKey (block inst off : Nat) : Nat := block * 0x40_0000 + inst * 0x1000 + off

def FieldRef.key (f : FieldRef) (inst idx : Nat) : Nat := regKey f.block inst (f.off + f.stride * idx)

/-- The reset word of a register from its fields. -/
def RegDef.resetWord (r : RegDef) : Word :=
  r.fields.foldl (fun w f => setBits w f.ref.lo f.ref.width f.reset) 0

/-- Reset values that depend on the page (R30, R168, R182, R305) and the common header (R452).
What no table gives is zero (DESIGN CHOICE, log entry 3). -/
def regReset (k : Nat) : Word :=
  let block := k / 0x40_0000
  let inst := k / 0x1000 % 1024
  let off := k % 0x1000
  if off < 0x40 then (if off = 0x10 then 2 else 0)
  else if block = 0x16 ∧ off = 0x78 ∧ (inst = 62 ∨ inst = 63) then 1
  else if block = 0x16 ∧ inst = 64 ∧ 0x48 ≤ off ∧ off ≤ 0x80 then
    let i := (off - 0x48) / 8
    (List.range 8).foldl (fun w j => setBits w (8 * j) 6 (if 8 * i + j < 60 then 8 * i + j else 59)) 0
  else if block = 0x13 ∧ inst = 0 ∧ off = 0x40 then 1
  else if block = 0x13 ∧ inst = 0 ∧ off = 0x48 then 0xFF_FFFF
  else if block = 0x13 ∧ inst = 0 ∧ off = 0x50 then 0x9000_0000_0000
  else if block = 0x05 ∧ inst < 64 ∧ (off = 0x40 ∧ inst / 8 = 0 ∨ off = 0x48 ∧ inst % 8 = 7 ∨ off = 0x50 ∧ inst / 8 = 7 ∨
      off = 0x58 ∧ inst % 8 = 0) then 0xC_0003
  else match findReg block inst off with
    | some (r, _) => r.resetWord
    | none => 0

/-- The stored word of a register. -/
def State.reg (s : State) (k : Nat) : Word := Sparse.get regReset s.regs k

def State.setReg (s : State) (k : Nat) (v : Word) : State := { s with regs := Sparse.put regReset s.regs k v }

/-- A field of a register word. -/
def fld (w : Word) (f : FieldRef) : Nat := bits w f.lo f.width

/-- A field's stored value. -/
def State.rd (s : State) (f : FieldRef) (inst : Nat := 0) (idx : Nat := 0) : Nat :=
  bits (s.reg (f.key inst idx)) f.lo f.width

/-- Store a field's value. -/
def State.wr (s : State) (f : FieldRef) (inst idx v : Nat) : State :=
  s.setReg (f.key inst idx) (setBits (s.reg (f.key inst idx)) f.lo f.width v)

/-- A message-signalled interrupt reaches an interrupt file of a hart's IMSIC: its identity is pending there (R386, R387). -/
def State.imsicSet (s : State) (hart file eiid : Nat) : State :=
  let k := 9 * hart + file
  { s with imsic := Sparse.put (fun _ => 0) s.imsic k (Sparse.get (fun _ => 0) s.imsic k ||| 2 ^ eiid) }

/-- Send the MSI of a page along its block type's route (R387): to a hart's supervisor file, or to the external host. -/
def State.sendMsi (s : State) (block inst : Nat) : State :=
  let hart := s.rd F.CPX_EVROUTE_HART 4 block
  let eiid := s.rd F.CPX_EVROUTE_EIID 4 block
  let host := s.pins.attached && s.rd F.CPX_EVROUTE_HOST 4 block == 1
  if s.rd F.CPX_EVROUTE_ENABLE 4 block = 1 then
    { s with imsic := if host then s.imsic else (s.imsicSet hart 1 eiid).imsic, out := s.out ++ [.msi block inst host hart eiid] }
  else s

/-- Store PG_EVENT or PG_EVENT_EN of a page; an MSI follows when the masked events become nonzero (R387). -/
def State.setEvents (s : State) (block inst : Nat) (ev en : Word) : State :=
  let old := s.reg (regKey block inst 0x20) &&& s.reg (regKey block inst 0x28)
  let s1 := (s.setReg (regKey block inst 0x20) ev).setReg (regKey block inst 0x28) en
  if old = 0 ∧ ev &&& en ≠ 0 then s1.sendMsi block inst else s1

/-- Raise an event bit of a page. -/
def State.event (s : State) (block inst i : Nat) : State :=
  s.setEvents block inst (setBits (s.reg (regKey block inst 0x20)) i 1 1) (s.reg (regKey block inst 0x28))

/-- The COUNTER_SAT event bit of a page (R419), where the page has one. -/
def satEvent (block inst : Nat) : Option Nat :=
  match block with
  | 0x00 => some 3 | 0x02 => some 2 | 0x03 => some 5 | 0x04 => some 3 | 0x05 => some 4 | 0x06 => some 3
  | 0x07 => some 1 | 0x08 => some 1 | 0x09 => some 1 | 0x0A => some 6 | 0x0B => some 6 | 0x0C => some 1
  | 0x0E => some (if inst = 432 then 5 else 3)
  | 0x0F => if inst = 24 then none else some 2
  | 0x10 => some 4 | 0x11 => some 6 | 0x12 => some 2
  | 0x14 => if inst = 48 then none else some 8
  | 0x16 => if inst = 64 then none else some 1
  | 0x17 => some 4 | 0x19 => some 5 | 0x1A => some 1 | 0x1B => some 4 | 0x1F => some 4
  | _ => none

/-- Add to a counter, which saturates and then raises COUNTER_SAT (R419). -/
def State.bump (s : State) (f : FieldRef) (inst : Nat := 0) (idx : Nat := 0) (n : Nat := 1) : State :=
  let v := s.rd f inst idx + n
  let top := 2 ^ f.width - 1
  if n = 0 then s
  else if v < top then s.wr f inst idx v
  else match satEvent f.block inst with
    | some b => (s.wr f inst idx top).event f.block inst b
    | none => s.wr f inst idx top

/-- Add to a 48-bit count that wraps. -/
def wrap48 (v : Nat) : Nat := v % 2 ^ 48

end Sys2Proof.Machine
end

