-- ==== Sys2Proof/Machine/Ops.lean ====
section
/-! DEFINITION. The named operations over the state: one accessor pair for each typed map, the site and class numbering
(R13 to R17, R113, R168), toll charging (R169 to R171), fault reports (R403), trace records (R423), and package memory
with everything an access can meet (R38 to R40, R266 to R273, R283 to R286, R298, R324). -/

namespace Sys2Proof.Machine

variable (s : State)

/-! ### Accessors of the typed maps -/

def State.stream (i : Nat) : Stream := Sparse.get (fun _ => Stream.reset) s.streams i
def State.setStream (i : Nat) (v : Stream) : State :=
  { s with streams := Sparse.put (fun _ => Stream.reset) s.streams i v }
def State.bollard (i : Nat) : Bollard := Sparse.get (fun _ => Bollard.reset) s.bollards i
def State.setBollard (i : Nat) (v : Bollard) : State :=
  { s with bollards := Sparse.put (fun _ => Bollard.reset) s.bollards i v }
def State.pilot (i : Nat) : Pilot := Sparse.get (fun _ => Pilot.reset) s.pilots i
def State.setPilot (i : Nat) (v : Pilot) : State :=
  { s with pilots := Sparse.put (fun _ => Pilot.reset) s.pilots i v }
def State.engineQ (i : Nat) : EngineQ := Sparse.get (fun _ => EngineQ.reset) s.engines i
def State.setEngineQ (i : Nat) (v : EngineQ) : State :=
  { s with engines := Sparse.put (fun _ => EngineQ.reset) s.engines i v }
def State.core (i : Nat) : Core := Sparse.get (fun _ => Core.reset) s.cores i
def State.setCore (i : Nat) (v : Core) : State :=
  { s with cores := Sparse.put (fun _ => Core.reset) s.cores i v }
def State.edge (i : Nat) : EdgeDir := Sparse.get (fun _ => EdgeDir.reset) s.edges i
def State.setEdge (i : Nat) (v : EdgeDir) : State :=
  { s with edges := Sparse.put (fun _ => EdgeDir.reset) s.edges i v }
def State.ferry (i : Nat) : Ferry := Sparse.get (fun _ => Ferry.reset) s.ferries i
def State.setFerry (i : Nat) (v : Ferry) : State :=
  { s with ferries := Sparse.put (fun _ => Ferry.reset) s.ferries i v }
def State.landing (i : Nat) : Landing := Sparse.get (fun _ => Landing.reset) s.landings i
def State.setLanding (i : Nat) (v : Landing) : State :=
  { s with landings := Sparse.put (fun _ => Landing.reset) s.landings i v }
def State.mooring (i : Nat) : Mooring := Sparse.get (fun _ => Mooring.reset) s.moorings i
def State.setMooring (i : Nat) (v : Mooring) : State :=
  { s with moorings := Sparse.put (fun _ => Mooring.reset) s.moorings i v }
def State.stage (i : Nat) : Stage := Sparse.get (fun _ => Stage.reset) s.stages i
def State.setStage (i : Nat) (v : Stage) : State :=
  { s with stages := Sparse.put (fun _ => Stage.reset) s.stages i v }
def State.pontoon (i : Nat) : Pontoon := Sparse.get (fun _ => Pontoon.reset) s.pontoons i
def State.setPontoon (i : Nat) (v : Pontoon) : State :=
  { s with pontoons := Sparse.put (fun _ => Pontoon.reset) s.pontoons i v }
def State.veto (i : Nat) : Veto := Sparse.get (fun _ => Veto.reset) s.vetoes i
def State.setVeto (i : Nat) (v : Veto) : State :=
  { s with vetoes := Sparse.put (fun _ => Veto.reset) s.vetoes i v }
def State.bank (i : Nat) : Bank := Sparse.get (fun _ => Bank.reset) s.banks i
def State.setBank (i : Nat) (v : Bank) : State :=
  { s with banks := Sparse.put (fun _ => Bank.reset) s.banks i v }
def State.stack (i : Nat) : Stack := Sparse.get (fun _ => Stack.reset) s.hbms i
def State.setStack (i : Nat) (v : Stack) : State :=
  { s with hbms := Sparse.put (fun _ => Stack.reset) s.hbms i v }
def State.port (i : Nat) : Port := Sparse.get (fun _ => Port.reset) s.ports i
def State.setPort (i : Nat) (v : Port) : State :=
  { s with ports := Sparse.put (fun _ => Port.reset) s.ports i v }
def State.line (i : Nat) : Line := Sparse.get (fun _ => Line.reset) s.lines i
def State.setLine (i : Nat) (v : Line) : State :=
  { s with lines := Sparse.put (fun _ => Line.reset) s.lines i v }
def State.ctx (i : Nat) : Ctx := Sparse.get (fun _ => Ctx.reset) s.ctxs i
def State.setCtx (i : Nat) (v : Ctx) : State :=
  { s with ctxs := Sparse.put (fun _ => Ctx.reset) s.ctxs i v }
def State.traceBuf (i : Nat) : Trace := Sparse.get (fun _ => Trace.reset) s.traces i
def State.setTraceBuf (i : Nat) (v : Trace) : State :=
  { s with traces := Sparse.put (fun _ => Trace.reset) s.traces i v }

/-- The current generation tag of a context (R399). -/
def State.gen (c : Nat) : Nat := (s.ctx c).gen

/-- Hub positions are never compute sites (R14). -/
def isHub (site : Nat) : Bool := site == 27 || site == 28 || site == 35 || site == 36

/-- The current tide count. -/
def State.now : Nat := s.tide.count

/-- A site's copy of the tide when the hub's count is `n`: within 2 ticks of it (R157); the hub positions read the count itself.
DEDUCED, log entry 142. -/
def tideCopy (site n : Nat) : Nat := if isHub site then n else n + Config.tideSkew site n % 5 - 2

/-- The tide as a site reads it. -/
def State.siteNow (site : Nat) : Nat := tideCopy site s.tide.count

/-- A site's copy has reached a tide value in the current tick (R177, R178): by one tick, or by a step of the count. -/
def Tide.reached (t : Tide) (site v : Nat) : Bool :=
  decide (tideCopy site t.before < v) && decide (v ≤ tideCopy site t.count)

/-! ### Numbering -/

/-- Edge site of a port (R15). -/
def portNode (p : Nat) : Nat :=
  let k := p / 2
  if k < 6 then k + 1 else if k < 12 then 8 * (k - 5) + 7 else if k < 18 then 56 + (18 - k) else 8 * (24 - k)

/-- Corner site of a bulk controller (R16). -/
def cornerSite (c : Nat) : Nat := match c with | 0 => 0 | 1 => 7 | 2 => 63 | _ => 56

/-- Hub position of a P-die (R20). -/
def dieSite (d : Nat) : Nat := match d with | 0 => 27 | 1 => 28 | 2 => 36 | _ => 35

/-- Site position of a page's unit (R452). -/
def pageSite (block inst : Nat) : Nat :=
  match block with
  | 0x00 => inst / 16 | 0x01 => inst / 16 | 0x03 => inst / 16 | 0x0E => inst / 16
  | 0x02 => inst | 0x04 => inst | 0x05 => inst | 0x06 => inst | 0x07 => inst
  | 0x08 => if inst < 64 then inst else 27
  | 0x0F => if inst < 24 then portNode (2 * inst) else 27
  | 0x11 => portNode (2 * inst)
  | 0x12 => cornerSite inst
  | 0x14 => if inst < 48 then portNode inst else 27
  | 0x1A => if inst < 4 then dieSite inst else 27
  | _ => 27

/-- The site is out of service: escalation, FAILED edge or a clear fuse bit (R35, R416, R468). -/
def State.outOfService (site : Nat) : Bool :=
  !isHub site && (Sparse.get (fun _ => 0) s.resets.mapped site != 0 || s.fuses.good / 2 ^ site % 2 == 0)

/-- The site's cores and pilot are frozen while the dump of a compute reset runs (R412). -/
def State.frozen (site : Nat) : Bool :=
  match s.resets.current with
  | some r => r.dumping && r.sites / 2 ^ site % 2 == 1
  | none => false

/-- Compute sites in service, ascending. -/
def State.sitesInService : List Nat := (List.range 64).filter fun i => !isHub i && !s.outOfService i

/-- The pilot that serves a site's streams and bollards: the hub pilot for the hub positions (R114, R137). -/
def pilotOf (site : Nat) : Nat := if isHub site then 27 else site

/-- A stream or bollard ID whose site is mapped out is a hole (R113). -/
def State.idHole (id : Nat) : Bool := s.outOfService (id / 256)

/-- The activity class of a context (R168). -/
def State.classOf (ctx : Nat) : Nat :=
  s.rd { F.TOL_CTXMAP_CLASS0 with lo := 8 * (ctx % 8) } 64 (ctx / 8)

/-- Number of waiter entries taken from a pilot's pool of 2,048 (R137). -/
def State.poolUsed (pilot : Nat) : Nat :=
  (s.waiters.filter fun w => !w.poll && pilotOf (w.bollard / 256) == pilot).length

/-! ### Tolls (R169 to R171, R174) -/

/-- Resources in the order of R169: 0 ISSUE, 1 HBM, 2 BULK, 3 MESH, 4 VERATH, 5 CKPT, 6 ENERGY. -/
def unmetered : Nat := 0xFFFF_FFFF

/-- The stacks of a partition, ascending (R290). -/
def State.partStacks (p : Nat) : List Nat := setBitsOf (s.rd F.PRT_STACKS_MASK p) 24

/-- The class was exempt from throttling when the crossing began (R170, R174). -/
def State.isExempt (cls : Nat) : Bool := s.exempt / 2 ^ cls % 2 == 1

/-- A class's toll share at a stack of a partition (R293), scaled by the stack's thermal handling (R287 to R289). -/
def State.share (cls t p k : Nat) : Nat :=
  let ks := s.partStacks p
  let n := ks.length
  let sh := if t = unmetered ∨ n = 0 then t else t / n + (if ks.idxOf k < t % n then 1 else 0)
  if (s.stack k).critical then 0
  else if t = unmetered ∨ s.isExempt cls then sh
  else sh * (s.stack k).fracNum / (s.stack k).fracDen

/-- The toll in effect of a class, before throttling. -/
def State.baseToll (cls res : Nat) : Nat := Sparse.get (fun _ => unmetered) s.tolls (cls * 8 + res)

/-- The effective toll in effect at a resource instance (R174, R293); the ENERGY toll, set in mJ, in the µJ it is charged
in (R169). -/
def State.toll (cls res inst : Nat) : Nat :=
  let t := s.baseToll cls res
  if res = 1 then s.share cls t (inst / 32) (inst % 32)
  else if t = unmetered then t
  else
    let exempt := s.isExempt cls
    if res = 0 then (if exempt then t else t * s.throttle.1 / 256)
    else if res = 6 then 1000 * (if exempt then t else t * s.throttle.2 / 256)
    else t

def spentKey (cls res inst : Nat) : Nat := cls * 8192 + res * 1024 + inst

/-- A class's counter for a resource instance (R170). -/
def State.counter (cls res inst : Nat) : Int :=
  (s.toll cls res inst : Int) - Sparse.get (fun _ => (0 : Int)) s.spent (spentKey cls res inst)

/-- The class is held in a resource instance (R171): its counter is used up; an unmetered class never is, unless the
stack is CRITICAL. -/
def State.tollHeld (cls res inst : Nat) : Bool :=
  (s.baseToll cls res != unmetered || (res == 1 && (s.stack (inst % 32)).critical)) &&
    decide (s.counter cls res inst ≤ 0)

/-- Mark the first hold of a class in a crossing (R171, R183), and for the inertia controller a hold of a non-exempt
class in ISSUE or ENERGY (R434). -/
def State.markHeld (cls res : Nat) : State :=
  let held := s.rd F.TOL_HELD_RESOURCES cls
  let any := s.power.heldAny || ((res == 0 || res == 6) && !s.isExempt cls)
  let s1 := { s.wr F.TOL_HELD_RESOURCES cls 0 (maskOf (setBitsOf held 7 ++ [res])) with
    power := { s.power with heldAny := any } }
  if held = 0 then (s1.bump F.TOL_HELD_XINGS_COUNT cls).event 0x16 cls 0 else s1

/-- Energy of one unit of a resource in pJ (R433). -/
def State.unitPj (res : Nat) : Nat :=
  match res with
  | 0 => 16 * s.rd F.PWR_ECOEF_CORE_PJ
  | 1 => s.rd F.PWR_ECOEF_HBM_PJ
  | 2 => s.rd F.PWR_ECOEF_BULK_PJ
  | 3 => s.rd F.PWR_ECOEF2_MESH_PJ
  | 4 => s.rd F.PWR_ECOEF_FLIT_PJ
  | _ => 0

/-- Add to a number of a map. -/
def addAt (m : Sparse Nat) (k n : Nat) : Sparse Nat := Sparse.put (fun _ => 0) m k (Sparse.get (fun _ => 0) m k + n)

/-- Deduct a charge from its class's counter (R170) and note its energy (R433); an exhausted counter holds the class. -/
def State.charge (cls res inst n : Nat) : State :=
  let k := spentKey cls res inst
  let v := Sparse.get (fun _ => (0 : Int)) s.spent k + n
  let pj := n * s.unitPj res
  let s1 := { s with
    spent := Sparse.put (fun _ => (0 : Int)) s.spent k v
    power := { s.power with classPj := addAt s.power.classPj cls pj
                            sitePj := if res = 0 then addAt s.power.sitePj inst pj else s.power.sitePj } }
  if s1.tollHeld cls res inst then s1.markHeld cls res else s1

/-! ### Trace records (R423, R428) -/

/-- Write a trace record into the buffer of a site (27 for the hub). -/
def State.traceRec (site kind ctx source arg0 arg1 arg2 : Nat) : State :=
  if s.rd F.TRC_CFG_EN site = 0 ∨ s.rd F.TRC_CFG_KIND_EN site / 2 ^ kind % 2 = 0 then s
  else
    let b := s.traceBuf site
    let w1 : Word := BitVec.ofNat 64 (kind + ctx % 256 * 2 ^ 8 + source % 2 ^ 16 * 2 ^ 16 + arg0 % 2 ^ 32 * 2 ^ 32)
    let r : List Word := [BitVec.ofNat 64 (s.siteNow site), w1, BitVec.ofNat 64 arg1, BitVec.ofNat 64 arg2]
    let full := decide (2048 ≤ b.recs.length)
    if full && s.rd F.TRC_CFG_STOP site == 1 then s.bump F.TRC_LOST_COUNT site
    else
      let b' : Trace := { recs := (if full then b.recs.drop 1 else b.recs) ++ [r],
                          widx := (b.widx + 1) % 2048, wrapped := b.wrapped || full }
      let s1 := s.setTraceBuf site b'
      if b'.recs.length = 2048 ∧ !full then s1.event 0x07 site 0 else s1

/-! ### Faults (R403): the report travels to the hub, where FAULT_REPORT delivers it -/

/-- A unit reports a fault with the tide of its site: block type and instance name it (R157, R404). -/
def State.raise (ctx cls block inst addr manifest : Nat) : State :=
  { s with reports := s.reports ++ [⟨ctx, cls, block, inst, addr, manifest, s.siteNow (pageSite block inst)⟩] }

/-- A segment violation (class 1). -/
def State.segViolation (ctx block inst addr manifest : Nat) : State := s.raise ctx 1 block inst addr manifest

/-- Count a stale item (R400). -/
def State.stale (ctx : Nat) : State := s.bump F.CTX_STALE_COUNT ctx

/-! ### Package memory (R38, R39) -/

inductive RegionKind where
  | sram (site bank : Nat)
  | hbm (stack off : Nat)
  | bulk (ctl : Nat)
  | regs
  | hubmem
  | secure
  | hole
  deriving DecidableEq, Repr

def sramEnd : Nat := 0x4_0000_0000
def hbmBase : Nat := 0x0100_0000_0000
def hbmSlot : Nat := 0x10_0000_0000
def hbmSize : Nat := 36 * 0x4000_0000
def bulkBase : Nat := 0x0400_0000_0000
def regBase : Nat := 0x0F00_0000_0000
def hubBase : Nat := 0x0F10_0000_0000
def secureBase : Nat := 0x0F10_8000_0000

/-- What stands at a package address (R38, R39, R272). -/
def State.region (a : Nat) : RegionKind :=
  if a < sramEnd then
    let site := a / 0x1000_0000
    if isHub site || s.outOfService site then .hole else .sram site (a / 0x10_0000 % 256)
  else if hbmBase ≤ a ∧ a < hbmBase + 24 * hbmSlot then
    if (a - hbmBase) % hbmSlot < hbmSize then .hbm ((a - hbmBase) / hbmSlot) ((a - hbmBase) % hbmSlot) else .hole
  else if bulkBase ≤ a ∧ a < bulkBase + 0x200_0000_0000 then .bulk ((a - bulkBase) / 0x80_0000_0000)
  else if regBase ≤ a ∧ a < regBase + 0x1000_0000 then .regs
  else if hubBase ≤ a ∧ a < hubBase + s.rd F.SRM_HUBMEM_SIZE 27 * 0x40_0000 then .hubmem
  else if secureBase ≤ a ∧ a < secureBase + 0x80_0000 then .secure
  else .hole

/-- What a byte of memory that nothing has written reads as: zero (DESIGN CHOICE, log entry 2). -/
def memReset (_ : Nat) : Byte := 0

/-- Memory is in canonical form. -/
abbrev Memory.wf (m : List Host.Cell) : Bool := Sparse.wf memReset m

/-- One stored byte, at its physical address. -/
def State.byte (a : Nat) : Byte := Sparse.get memReset s.mem a

/-- Redirect an HBM address through the stack's retirement table (R286). -/
def State.phys (a : Nat) : Nat :=
  match s.region a with
  | .hbm k off =>
    match (s.stack k).table.find? fun e =>
        bits e.2 63 1 == 1 && bits e.2 0 24 == off / 4096 with
    | some e => hbmBase + k * hbmSlot + bits e.2 24 24 * 4096 + off % 4096
    | none => a
  | _ => a

/-- Store bytes at consecutive addresses, each redirected by `f`. -/
def writeCells (f : Nat → Nat) : List Host.Cell → Nat → List Byte → List Host.Cell
  | m, _, [] => m
  | m, a, b :: bs => writeCells f (Sparse.put memReset m (f a) b) (a + 1) bs

/-- Store bytes at an address, redirected through the retirement tables. -/
def State.poke (a : Nat) (bs : List Byte) : State := { s with mem := writeCells s.phys s.mem a bs }

/-- The `n` bytes stored at an address. -/
def State.peek (a n : Nat) : List Byte := (List.range n).map fun i => s.byte (s.phys (a + i))

/-- The little-endian number of `n` bytes at an address. -/
def State.peekNat (a n : Nat) : Nat := leNat (s.peek a n)

/-- Record a hole access at a node (R40). -/
def State.holeAccess (node a : Nat) : State :=
  (s.wr F.MSH_HOLE_ADDR_ADDR node 0 a).event 0x05 node 3

/-- NAP and DEEP hold every ON bank in RETENTION (R440, R444). -/
def State.sramAsleep : Bool := s.power.st == .nap || s.power.st == .deep

/-- A bank gives access only in state ON with no transition in progress (R267, R268). -/
def State.bankAwake (site bank : Nat) : Bool :=
  !s.sramAsleep && (s.bank (site * 256 + bank)).st == .on && (s.bank (site * 256 + bank)).going == none

def State.asleep (site a : Nat) : State := (s.wr F.SRM_ASLEEP_ADDR_ADDR site 0 a).event 0x06 site 1

/-- An uncorrectable word of SRAM: counted and recorded (R269). -/
def State.sramUe (site a : Nat) : State :=
  ((s.bump F.SRM_UE_COUNT site).wr F.SRM_UE_ADDR_ADDR site 0 (a / 8 * 8)).event 0x06 site 2

/-- An uncorrectable HBM read at an address: count, record the physical page, queue it for retirement (R285). -/
def State.hbmUe (k a : Nat) : State :=
  let off := (s.phys a - hbmBase) % hbmSlot
  let s1 := ((s.bump F.HBM_UE_COUNT k).wr F.HBM_UE_ADDR_ADDR k 0 (hbmBase + k * hbmSlot + off / 4096 * 4096)).event 0x11 k 0
  let st := s1.stack k
  if st.req.length < 16 then s1.setStack k { st with req := st.req ++ [off / 4096] } else s1.event 0x11 k 5

/-- Parity retries of an access, and a lane that causes too many is marked (R282, R283). -/
def State.hbmRetry (k : Nat) (fx : MemFx) : State :=
  let s1 := s.bump F.HBM_PARITY_RETRY_COUNT k 0 (min fx.retries 3)
  match fx.lane with
  | some l => (s1.setStack k { s1.stack k with marked := ((s1.stack k).marked ++ [l]).dedup }).event 0x11 k 2
  | none => s1

/-- An uncorrectable bulk error (R296). -/
def State.blkUe (c a : Nat) : State :=
  ((s.bump F.BLK_UE_COUNT c).wr F.BLK_UE_ADDR_ADDR c 0 a).event 0x12 c 0

/-- The stack or bulk interface is offline (R298). -/
def State.offlineHit (block inst : Nat) : State :=
  if block = 0x11 then (s.bump F.HBM_OFFLINE_HITS_COUNT inst).event 0x11 inst 4
  else (s.bump F.BLK_OFFLINE_HITS_COUNT inst).event 0x12 inst 1

/-! ### Units that do not answer clean (R269, R282 to R285, R296, R506) -/

/-- Nothing goes wrong in the access. -/
def fxClean (x : MemFx) : Bool := x.ecc == 0 && x.sev == 0 && x.retries == 0 && x.lane.isNone && x.link == 0

/-- The read is uncorrectable: a double-bit error, severity uncorrectable, or parity that three retries do not mend. -/
def fxLost (x : MemFx) : Bool := x.ecc == 2 || x.sev == 2 || decide (3 < x.retries)

/-- Bytes of a unit at an address: an SRAM word, the secure region's too (R274), else a sector. -/
def State.unitAt (a : Nat) : Nat :=
  match s.region a with
  | .sram _ _ => 8
  | .secure => 8
  | _ => 64

/-- The units of [a, a + n), which lies in one 4 KiB page, whose access does not go clean: address and outcome. -/
def State.flaws (sz a n : Nat) : List (Nat × MemFx) :=
  (s.cells.filter fun e => decide (s.phys a / sz * sz ≤ e.1) && decide (e.1 < s.phys a + n)).map fun e =>
    (a / sz * sz + (e.1 - s.phys a / sz * sz), e.2)

/-- Where the cells of the unit stand that an access's operand means. -/
def State.fxUnit (a : Nat) (fx : MemFx) : Nat :=
  s.phys (a + fx.off) / s.unitAt (a + fx.off) * s.unitAt (a + fx.off)

/-- What an access's operand says of its cells. -/
def State.withFx (a : Nat) (fx : MemFx) : State :=
  if fxClean fx then s
  else
    let cs := Sparse.put (fun _ => MemFx.clean) s.cells (s.fxUnit a fx) { fx with off := 0 }
    { s with cells := cs }

/-- What stays of it in the cells after the access, unless it has healed them: the error, not the interface's retries and
link corrections. -/
def State.settleFx (a : Nat) (fx : MemFx) : State :=
  if fxClean fx then s
  else
    let u := s.fxUnit a fx
    let stays := { MemFx.clean with ecc := fx.ecc, sev := fx.sev, hard := fx.hard && (fx.ecc != 0 || fx.sev != 0) }
    if s.cells.any (fun e => e.1 == u) then { s with cells := Sparse.put (fun _ => MemFx.clean) s.cells u stays } else s

/-- Fresh data and check bits over the units of [a, a + n), which lies in one 4 KiB page: only faulty cells stay. -/
def State.heal (sz a n : Nat) : State :=
  { s with cells := s.cells.filter fun e =>
      e.2.hard || !(decide (s.phys a / sz * sz ≤ e.1) && decide (e.1 < s.phys a + n)) }

/-- An SRAM word as a read meets it: a corrected word is written back under FIX_ON_READ (R269). -/
def State.sramFlaw (site : Nat) (u : Nat × MemFx) : State :=
  if u.2.ecc = 2 then s.sramUe site u.1
  else if u.2.ecc = 1 then
    (if s.rd F.SRM_ECC_FIX_ON_READ site = 1 then s.heal 8 u.1 8 else s).bump F.SRM_CE_COUNT site
  else s

/-- Severity of an HBM sector's read (R284, R285). -/
def State.hbmSev (k : Nat) (u : Nat × MemFx) : State :=
  if fxLost u.2 then s.hbmUe k u.1 else if u.2.sev = 1 then s.bump F.HBM_CE_COUNT k else s

/-- Severity of a bulk sector's read (R296). -/
def State.blkSev (c : Nat) (u : Nat × MemFx) : State :=
  if fxLost u.2 then s.blkUe c u.1 else if u.2.sev = 1 then s.bump F.BLK_CE_COUNT c else s

/-- Link-ECC corrections of a bulk access (R296). -/
def State.blkLink (c : Nat) (u : Nat × MemFx) : State := s.bump F.BLK_LINK_CE_COUNT c 0 u.2.link

/-- The parts of a range within 4 KiB pages, each as address and length: no part spans two regions, banks or pages. -/
def pieces (a n : Nat) : List (Nat × Nat) :=
  if n = 0 then [(a, 0)]
  else (List.range ((a + n - 1) / 4096 - a / 4096 + 1)).map fun i =>
    (max a ((a / 4096 + i) * 4096), min (a + n) ((a / 4096 + i + 1) * 4096) - max a ((a / 4096 + i) * 4096))

/-- A unit lies partly outside [a, a + n). -/
def partly (sz a n : Nat) (u : Nat × MemFx) : Bool := decide (u.1 < a) || decide (a + n < u.1 + sz)

/-- Where no memory answers a unit's access: a hole, or register space for an access of another size (R40, R455). -/
def State.noMemory (s : State) (a : Nat) : Bool := s.region a == .hole || s.region a == .regs

/-- An access records the first of its parts that reaches a hole (R40). -/
def State.noteHole (s : State) (node : Nat) (ps : List (Nat × Nat)) : State :=
  match ps.find? fun p => s.noMemory p.1 with
  | some p => s.holeAccess node p.1
  | none => s

/-- A read of `n` bytes of one page as a unit other than a core meets it: data, RESP STATUS and the state after (R40, R268,
R269, R273, R274, R283 to R285, R296, R298). `mgmt` is true for the management core and the security engine. -/
def State.readPiece (mgmt : Bool) (a n : Nat) : List Byte × Nat × State :=
  let zeros := List.replicate n (0 : Byte)
  match s.region a with
  | .hole => (zeros, 2, s)
  | .regs => (zeros, 2, s)
  | .secure =>
    if mgmt then (if (s.flaws 8 a n).any (fun u => fxLost u.2) then (zeros, 1, s) else (s.peek a n, 0, s))
    else (zeros, 2, s.bump F.SRM_SECURE_DENY_COUNT 27)
  | .hubmem => (s.peek a n, 0, s)
  | .sram site bank =>
    if s.bankAwake site bank then
      let fl := s.flaws 8 a n
      (if fl.any (fun u => fxLost u.2) then zeros else s.peek a n, (fl.any (fun u => fxLost u.2)).toNat, fl.foldl (fun t u => t.sramFlaw site u) s)
    else (zeros, 1, s.asleep site a)
  | .hbm k _ =>
    if s.rd F.HBM_CTRL_OFFLINE k = 1 then (zeros, 1, s.offlineHit 0x11 k)
    else
      let fl := s.flaws 64 a n
      (s.peek a n, (fl.any (fun u => fxLost u.2)).toNat, fl.foldl (fun t u => (t.hbmRetry k u.2).hbmSev k u) s)
  | .bulk c =>
    if s.rd F.BLK_CTRL_OFFLINE c = 1 then (zeros, 1, s.offlineHit 0x12 c)
    else
      let fl := s.flaws 64 a n
      (s.peek a n, (fl.any (fun u => fxLost u.2)).toNat, fl.foldl (fun t u => (t.blkLink c u).blkSev c u) s)

/-- A read of any range, page by page: the STATUS is that of the first part that fails (DESIGN CHOICE, log entry 131). -/
def State.readPieces (node : Nat) (mgmt : Bool) (ps : List (Nat × Nat)) : List Byte × Nat × State :=
  ps.foldl (fun acc p =>
    let r := acc.2.2.readPiece mgmt p.1 p.2
    (acc.1 ++ r.1, if acc.2.1 = 0 then r.2.1 else acc.2.1, r.2.2)) ([], 0, s.noteHole node ps)

/-- A read whose cells the operand `fx` describes. -/
def State.memRead (node : Nat) (mgmt : Bool) (a n : Nat) (fx : MemFx) : List Byte × Nat × State :=
  let r := (s.withFx a fx).readPieces node mgmt (pieces a n)
  (r.1, r.2.1, r.2.2.settleFx a fx)

/-- A store of a P-die that failed after it retired (R392). -/
def State.storeFailed (a : Nat) : State :=
  let s1 := (s.wr F.CPX_HWERR_ADDR 4 0 a).event 0x1A 4 0
  { s1 with out := s1.out ++ [.hwError a] }

/-! ### Checkpoint chunks that hold writes (R324, R325) -/

/-- The address lies in the coherent window or in hub memory (R272, R379). -/
def State.isCoherent (a : Nat) : Bool :=
  (decide (bulkBase + s.cohwin.1 * 2 ^ 30 ≤ a) && decide (a < bulkBase + s.cohwin.2 * 2 ^ 30)) ||
    (decide (hubBase ≤ a) && decide (a < hubBase + s.rd F.SRM_HUBMEM_SIZE 27 * 0x40_0000))

/-- The first chunk that is not SAVED and that bytes [a, a + n) touch: in BACKGROUND any, after the sweep also those of
coherent regions (R326). -/
def State.unsavedChunk (a n : Nat) : Option (Nat × Chunk) :=
  let k := s.ckpt
  if k.st = .background ∨ (k.st = .quiesced ∧ k.headDone) then
    ((List.range k.chunks.length).zip k.chunks).find? fun c =>
      c.2.st != 2 && decide (a < c.2.addr + c.2.len) && decide (c.2.addr < a + n) &&
        (k.st == .background || s.isCoherent c.2.addr)
  else none

/-- A write waits for a chunk: an UNSAVED one is taken next, a READING one is waited for (R324, R325). -/
def State.wantChunk (i : Nat) (c : Chunk) : State :=
  if c.st = 0 ∧ !s.ckpt.ahead.contains i then
    { s with ckpt := { s.ckpt with ahead := s.ckpt.ahead ++ [i] } }.bump F.CKP_SAVEAHEAD_COUNT
  else s

/-- Hold a write at its controller until its chunk is SAVED. -/
def State.holdWrite (a : Nat) (data : List Byte) (add : Option (Nat × Nat × Nat)) (i : Nat) (c : Chunk)
    (own : List Nat := []) : State :=
  let s1 : State := { s with ckpt := { s.ckpt with held := s.ckpt.held ++ [⟨a, data, add, own, 0, none⟩] } }
  s1.wantChunk i c

/-- An operation's writes to some sectors wait for every chunk that is not SAVED: true where none is (R324, R325). -/
def State.saveAhead (secs : List Nat) : Bool × State :=
  secs.foldl (fun acc a => match acc.2.unsavedChunk a 64 with
    | none => acc
    | some (i, c) => (false, acc.2.wantChunk i c)) (true, s)

/-! ### The valid state that an outside write changes (R102) -/

/-- Number of an object in a core's map. -/
def objKey : Obj → Nat
  | .line a false => 4 * a
  | .line a true => 4 * a + 3
  | .tile n => 4 * n + 1
  | .table c => 4 * c + 2

/-- The two lines a near-SRAM byte belongs to: eight consecutive words of one bank, and the eight words of a SPREAD
window over eight banks (R92, R101; DEDUCED, log entry 11), each named by its first word. -/
def linesOf (a : Nat) : List Obj :=
  let bank := a / 0x10_0000 % 16
  [.line (a / 512 * 512) false, .line (a / 64 * 64 - bank % 8 * 0x10_0000) true]

def Core.obj (c : Core) (o : Obj) : ObjSt := Sparse.get (fun _ => ObjSt.reset) c.objs (objKey o)

def Core.setObj (c : Core) (o : Obj) (v : ObjSt) : Core :=
  { c with objs := Sparse.put (fun _ => ObjSt.reset) c.objs (objKey o) v }

/-- A write from outside the core lands: VALID set, POISONED cleared (R102). -/
def State.outsideWrite (a n : Nat) : State :=
  let core := a / 0x100_0000
  let ls := ((List.range (n / 64 + 2)).flatMap fun i => linesOf (min (a + 64 * i) (a + n - 1))).dedup
  if n = 0 then s
  else s.setCore core (ls.foldl (fun c l =>
    c.setObj l { c.obj l with valid := true, poisoned := false }) (s.core core))

/-- Store bytes in an SRAM bank: STATUS and the state after.  A part of a word is merged with the word as read, and discarded
where that read finds a double-bit error (R268, R269). -/
def State.sramPut (site bank a : Nat) (bs : List Byte) : Nat × State :=
  let n := bs.length
  if s.bankAwake site bank then
    let part := (s.flaws 8 a n).filter (partly 8 a n)
    let s1 := part.foldl (fun t u => t.sramFlaw site u) s
    if part.any (fun u => fxLost u.2) then (1, s1) else (0, (s1.heal 8 a n).poke a bs)
  else (1, s.asleep site a)

/-- A write of bytes of one page as a unit other than a core makes it: STATUS and the state after (R40, R268, R269, R273,
R281, R283, R296, R298, R506).  A part of a word or sector is merged with what is read there; where that read is
uncorrectable the write is discarded. -/
def State.writePiece (mgmt : Bool) (a : Nat) (bs : List Byte) : Nat × State :=
  let n := bs.length
  match s.region a with
  | .hole => (2, s)
  | .regs => (2, s)
  | .secure =>
    if mgmt then
      (if ((s.flaws 8 a n).filter (partly 8 a n)).any (fun u => fxLost u.2) then (1, s) else (0, (s.heal 8 a n).poke a bs))
    else (2, s.bump F.SRM_SECURE_DENY_COUNT 27)
  | .hubmem => (0, s.poke a bs)
  | .sram site bank =>
    let r := s.sramPut site bank a bs
    (r.1, if r.1 = 0 then r.2.outsideWrite a n else r.2)
  | .hbm k _ =>
    if s.rd F.HBM_CTRL_OFFLINE k = 1 then (1, s.offlineHit 0x11 k)
    else
      let fl := s.flaws 64 a n
      let s1 := fl.foldl (fun t u => t.hbmRetry k u.2) s
      let part := fl.filter (partly 64 a n)
      let s2 := part.foldl (fun t u => t.hbmSev k u) s1
      if fl.any fun u => decide (3 < u.2.retries) then (1, (s1.wr F.HBM_UE_ADDR_ADDR k 0 a).event 0x11 k 1)
      else if part.any (fun u => fxLost u.2) then (1, s2)
      else (0, (s2.heal 64 a n).poke a bs)
  | .bulk c =>
    if s.rd F.BLK_CTRL_OFFLINE c = 1 then (1, s.offlineHit 0x12 c)
    else
      let fl := s.flaws 64 a n
      let part := fl.filter (partly 64 a n)
      let s1 := part.foldl (fun t u => t.blkSev c u) (fl.foldl (fun t u => t.blkLink c u) s)
      if part.any (fun u => fxLost u.2) then (1, s1) else (0, (s1.heal 64 a n).poke a bs)

/-- A write of any range, page by page (log entry 131). -/
def State.writePieces (node : Nat) (mgmt : Bool) (a : Nat) (bs : List Byte) (ps : List (Nat × Nat)) : Nat × State :=
  ps.foldl (fun acc p =>
    let r := acc.2.writePiece mgmt p.1 ((bs.drop (p.1 - a)).take p.2)
    (if acc.1 = 0 then r.1 else acc.1, r.2)) (0, s.noteHole node ps)

/-- A write whose cells the operand `fx` describes; a chunk that is not SAVED holds it (R324). -/
def State.memWrite (node : Nat) (mgmt : Bool) (a : Nat) (bs : List Byte) (fx : MemFx) : Nat × State :=
  match s.unsavedChunk a bs.length with
  | some (i, c) => (0, s.holdWrite a bs none i c)
  | none =>
    let r := (s.withFx a fx).writePieces node mgmt a bs (pieces a bs.length)
    (r.1, r.2.settleFx a fx)

/-- A write by a unit of the hub that looks at no answer. -/
def State.store (a : Nat) (bs : List Byte) : State := (s.memWrite 27 false a bs MemFx.clean).2

/-- What a read by a unit of the hub delivers, and the state after. -/
def State.load (a n : Nat) : List Byte × State :=
  let r := s.memRead 27 false a n MemFx.clean
  (r.1, r.2.2)

/-! ### What a command answers -/

/-- A command of a unit in reset does nothing: while the module is unpowered or held in reset only the management
core, the persistent log and telemetry run (R417, R431, R469, R493). DESIGN CHOICE, log entry 41. -/
def State.act (t : State) : Host.Outcome State Fault Refusal := .next (if s.hold.isNone then t else s)

/-- A command of a core or pilot of a site. -/
def State.actAt (site : Nat) (t : State) : Host.Outcome State Fault Refusal :=
  .next (if s.hold.isNone && !s.frozen site then t else s)

/-- A command of the management core, which runs whenever the module is powered. -/
def State.mgmtAct (t : State) : Host.Outcome State Fault Refusal := .next (if s.hold = some .unpowered then s else t)

end Sys2Proof.Machine
end

