-- ==== Sys2Proof/Machine/Clamp.lean ====
section
/-! DEFINITION. Clamping of illegal values (R461, R462): the static ranges and defaults of the register map, and the
ranges that depend on other fields, and the plain write of one register. -/

namespace Sys2Proof.Machine
def setFld (w : Word) (f : FieldRef) (v : Nat) : Word := setBits w f.lo f.width v

/-- A numeric field takes the nearest legal value, an undefined code the field's default (R461). -/
def clampField (f : FieldDef) (w : Word) : Word :=
  match f.acc, f.clamp with
  | .rw, .range lo hi => setFld w f.ref (clampNat lo hi (fld w f.ref))
  | .rw, .enum max d => if max < fld w f.ref then setFld w f.ref d else w
  | _, _ => w

/-- Clamp one field into a range. -/
def clampTo (w : Word) (f : FieldRef) (lo hi : Nat) : Word := setFld w f (clampNat lo hi (fld w f))

/-- Clamp one two's complement field into a range. -/
def clampToInt (w : Word) (f : FieldRef) (lo hi : Int) : Word :=
  setFld w f (code f.width (clampInt lo hi (signed f.width (fld w f))))

/-- Keep the lowest eight set bits of a 48-bit port mask. -/
def lowest8 (m : Nat) : Nat := maskOf ((setBitsOf m 48).take 8)

/-- Length limit of a window in words (R111): SPREAD windows in multiples of 16. -/
def clampWinLen (w : Word) (mode base : Nat) : Word :=
  let f := F.WIN_LEN_LEN64
  if mode = 0 then clampTo w f 1 (262144 - base)
  else setFld w f (clampNat 16 ((16384 - base) * 16) (fld w f / 16 * 16))

/-- Clamp a field that counts units of `u` bytes into bulk memory. -/
def clampBulk (w : Word) (f : FieldRef) (u : Nat) : Word :=
  clampTo w f (bulkBase / u) ((bulkBase + 0x200_0000_0000) / u - 1)

/-- Nearest 1 MiB unit inside a stack (R39, R426). -/
def clampHbmMiB (a : Nat) : Nat :=
  let lo := hbmBase / 0x10_0000
  let a := clampNat lo (lo + 23 * 65536 + 36863) a
  let off := (a - lo) % 65536
  let stack := (a - lo) / 65536
  if off < 36864 then a
  else if off - 36863 ≤ 65536 - off then lo + stack * 65536 + 36863
  else lo + (stack + 1) * 65536

/-- Buffer address of a pontoon in 64-byte units (R262): all entries in the site's SRAM window. -/
def clampPonBuf (w : Word) (inst bytes64 depth : Nat) : Word :=
  let lo := inst / 16 * 0x1000_0000 / 64
  clampTo w F.PON_BUF_ADDR lo (lo + 0x1000_0000 / 64 - depth * bytes64)

/-- Entry size and count of a pontoon (R262). -/
def clampPonEntry (w : Word) (inst addr : Nat) : Word :=
  let hi := inst / 16 * 0x1000_0000 / 64 + 0x1000_0000 / 64
  let room := hi - addr
  let depth := fld w F.PON_ENTRY_DEPTH
  if room < depth then
    setFld (setFld w F.PON_ENTRY_DEPTH (max 1 room)) F.PON_ENTRY_BYTES64 1
  else clampTo w F.PON_ENTRY_BYTES64 1 (room / depth)

/-- Clamps of a segment window's base (R278). -/
def clampSegBase (w : Word) : Word :=
  let w := if fld w F.CTX_SEG_BASE_KIND = 1 then
      clampTo w F.CTX_SEG_BASE_BASE (hbmBase / 4096) (0x027F_FFFF_F000 / 4096) else w
  let b := fld w F.CTX_SEG_BASE_BASE
  if secureBase / 4096 ≤ b ∧ b < (secureBase + 0x80_0000) / 4096 then setFld w F.CTX_SEG_BASE_ENABLE 0 else w

/-- Clamps of a segment window's limit against its base (R278). -/
def clampSegLimit (w : Word) (base : Word) : Word :=
  let f := F.CTX_SEG_LIMIT_LIMIT
  let b := fld base F.CTX_SEG_BASE_BASE
  let w := if fld w f < b + 1 then setFld w f (b + 1) else w
  let w := if fld base F.CTX_SEG_BASE_KIND = 1 then clampTo w f (b + 1) (0x0280_0000_0000 / 4096) else w
  if b < secureBase / 4096 ∧ secureBase / 4096 < fld w f then setFld w f (secureBase / 4096) else w

/-- Clamps that depend on other fields or registers, by block type and offset of the register (R461). -/
def State.clampDeps (s : State) (block inst off idx : Nat) (w : Word) : Word :=
  let at' := fun (f : FieldRef) => s.rd f inst idx
  match block, off with
  | 0x00, 0x50 =>
    let lo := signed 8 (fld w F.TC_ABSURD_EXP_LO)
    clampToInt w F.TC_ABSURD_EXP_HI lo 127
  | 0x01, _ =>
    if off = 0x40 + 0x20 * idx then
      (if fld w F.WIN_BASE_MODE = 1 then clampTo w F.WIN_BASE_BASE64 0 16383 else w)
    else if off = 0x48 + 0x20 * idx then clampWinLen w (at' F.WIN_BASE_MODE) (at' F.WIN_BASE_BASE64)
    else if off = 0x50 + 0x20 * idx then
      let l : Int := at' F.WIN_LEN_LEN64
      clampToInt w F.WIN_STRIDE_STRIDE64 (-(l - 1)) (l - 1)
    else if off = 0x58 + 0x20 * idx then clampTo w F.WIN_HEAD_HEAD64 0 (at' F.WIN_LEN_LEN64 - 1)
    else w
  | 0x02, 0x40 => clampTo w F.PIL_GROUP_SIZE 1 16
  | 0x03, _ =>
    if off = 0x220 + 0x80 * idx then clampTo w F.STR_TAIL_TAIL 0 (at' F.STR_RING_LEN_LEN - 1) else w
  | 0x09, 0x58 => setFld w F.FRY_PORTS_MASK (lowest8 (fld w F.FRY_PORTS_MASK))
  | 0x09, 0x68 => clampTo w F.FRY_CREDIT_COUNT 0 (64 - fld w F.FRY_CREDIT_FIRST)
  | 0x0A, 0x68 =>
    let d := fld w F.LND_WOFF_DATA
    setFld w F.LND_WOFF_DATA (min (if d % 64 ≤ 32 then d / 64 * 64 else d / 64 * 64 + 64) 0xFFFF_FFC0)
  | 0x0C, 0x48 => setFld w F.DEF_SITES_MASK (maskOf ((setBitsOf (fld w F.DEF_SITES_MASK) 64).filter fun i => !isHub i))
  | 0x0E, 0x50 =>
    if inst = 432 then clampTo w F.PON_VETO_CFG_MEMBERS 1 65535
    else clampPonBuf w inst (at' F.PON_ENTRY_BYTES64) (at' F.PON_ENTRY_DEPTH)
  | 0x0E, 0x58 => if inst = 432 then w else clampPonEntry w inst (at' F.PON_BUF_ADDR)
  | 0x0E, _ =>
    if inst = 432 ∧ off = 0x40 + 0x40 * idx then clampTo w F.PON_JOB_SEQ_POS 0 (fld w F.PON_JOB_SEQ_SIZE - 1) else w
  | 0x10, 0x58 => clampBulk w F.CKP_STAGE_BASE 4096
  | 0x11, 0x50 => clampTo w F.HBM_THERM_T_LO 0 (fld w F.HBM_THERM_T_HI - 1)
  | 0x13, 0x48 =>
    if fld w F.PRT_STACKS_MASK = 0 then
      setFld w F.PRT_STACKS_MASK (maskOf ((setBitsOf (at' F.PRT_STACKS_MASK) 24).take 1))
    else w
  | 0x13, 0x50 => clampTo w F.PRT_RANGE_SIZE 0 (36864 - fld w F.PRT_RANGE_BASE)
  | 0x14, 0x50 =>
    if inst < 48 then
      let v := fld w F.VPT_TARGET_WIDTH
      setFld w F.VPT_TARGET_WIDTH (if v = 8 ∨ v = 4 ∨ v = 2 then v else if 6 ≤ v then 8 else if 3 ≤ v then 4 else 2)
    else w
  | 0x14, _ =>
    if inst < 48 ∧ 0x400 ≤ off ∧ off % 16 = 8 then
      setFld w F.VPT_ROUTE_OUT_PORTS (lowest8 (fld w F.VPT_ROUTE_OUT_PORTS))
    else w
  | 0x16, 0x90 =>
    let hi := match fld w F.TOL_PEEK_SEL_RESOURCE with
      | 0 => 63 | 1 => 15 | 3 => 63 | 4 => 47 | _ => 0
    clampTo w F.TOL_PEEK_SEL_INSTANCE 0 hi
  | 0x17, _ =>
    if off = (F.CTX_SEG_BASE_ENABLE.off + F.CTX_SEG_BASE_ENABLE.stride * idx) then clampSegBase w
    else if off = (F.CTX_SEG_LIMIT_LIMIT.off + F.CTX_SEG_LIMIT_LIMIT.stride * idx) then
      clampSegLimit w (s.reg (F.CTX_SEG_BASE_ENABLE.key inst idx))
    else w
  | 0x18, 0x48 =>
    setFld w F.RST_TARGET_MASK
      (maskOf ((setBitsOf (fld w F.RST_TARGET_MASK) 64).filter fun i => !isHub i && !s.outOfService i))
  | 0x18, 0x58 => setFld w F.RST_DUMP_AREA_ADDR (clampHbmMiB (fld w F.RST_DUMP_AREA_ADDR))
  | 0x19, 0x50 => clampTo w F.PWR_LIMIT_STATIC_W 0 (fld w F.PWR_LIMIT_CAP_W - 1000)
  | 0x19, 0x68 => clampTo w F.PWR_THERM_TJ_TRIP (fld w F.PWR_THERM_TJ_TARGET + 5) 115
  | 0x19, 0x98 => clampBulk w F.PWR_TRACE_SAVE_ADDR 0x40_0000
  | 0x1A, 0x48 =>
    if inst = 4 then clampTo w F.CPX_COHWIN_LIMIT_GIB (fld w F.CPX_COHWIN_BASE_GIB + 1) 2048 else w
  | 0x1B, 0x48 =>
    let sp := fld w F.PCI_CFG_MAX_SPEED
    let w := if sp = 0 ∨ sp = 7 then setFld w F.PCI_CFG_MAX_SPEED 6 else w
    let v := fld w F.PCI_CFG_MAX_WIDTH
    setFld w F.PCI_CFG_MAX_WIDTH
      (if 16 ≤ v then 16 else if 8 ≤ v then 8 else if 4 ≤ v then 4 else if 2 ≤ v then 2 else 1)
  | 0x1C, 0x68 => clampBulk w F.SEC_FWUP_ADDR_ADDR 4096
  | 0x1D, 0x50 => clampBulk w F.LCS_TOKEN_ADDR 256
  | 0x1E, 0x120 => clampBulk w F.FUS_HASH_SRC_ADDR 64
  | 0x1F, 0x60 => clampBulk w F.LOG_EXPORT_ADDR 4096
  | _, _ => w

/-- Record a clamped write (R462): `off` is the register's offset on its page. -/
def State.clampedMark (s : State) (block inst off : Nat) : State :=
  let k := regKey block inst 0x30
  let w := s.reg k
  s.setReg k (setBits (setBits (setBits w 0 16 (off / 8)) 16 16 (min (bits w 16 16 + 1) 65535)) 63 1 1)

/-- The word a write leaves in a register: RW fields take the clamped value, W1C and W1S bits act on the stored ones,
all else keeps what it held (R8, R9, R457). -/
def applyFields (r : RegDef) (old v : Word) : Word :=
  r.fields.foldl (fun w f =>
    match f.acc with
    | .rw => setFld w f.ref (fld v f.ref)
    | .w1c => setFld w f.ref (fld (old &&& ~~~v) f.ref)
    | .w1s => setFld w f.ref (fld (old ||| v) f.ref)
    | _ => w) old

/-- The value of a write after clamping. -/
def State.clampWord (s : State) (block inst off idx : Nat) (r : RegDef) (v : Word) : Word :=
  s.clampDeps block inst off idx (r.fields.foldl (fun w f => clampField f w) v)

/-- A plain write of a register: clamped, applied by field, and reported when it was clamped (R461, R462). -/
def State.writeField (s : State) (block inst off : Nat) (v : Word) : State :=
  match findReg block inst off with
  | none => s
  | some (r, idx) =>
    let k := regKey block inst off
    let cv := s.clampWord block inst off idx r v
    let s1 := s.setReg k (applyFields r (s.reg k) cv)
    if applyFields r (s.reg k) cv = applyFields r (s.reg k) v then s1 else s1.clampedMark block inst off

end Sys2Proof.Machine
end

