-- ==== Sys2Proof/Machine/Crc.lean ====
section
/-! DEFINITION. The checksums the spec names: CRC-32C (R409, R412, R481, R482) and CRC-16/CCITT (R159).  Their
polynomials, initial values and bit order are those the names usually stand for (PRESUMED, log entry 7). -/

namespace Sys2Proof.Machine

/-- One bit of a reflected 32-bit CRC. -/
def crc32Bit (c : BitVec 32) (_ : Nat) : BitVec 32 :=
  if c &&& 1 = 1 then (c >>> 1) ^^^ 0x82F63B78#32 else c >>> 1

/-- CRC-32C of a byte string. -/
def crc32c (bs : List Byte) : Nat :=
  (~~~(bs.foldl (fun (c : BitVec 32) b => (List.range 8).foldl crc32Bit (c ^^^ b.zeroExtend 32)) 0xFFFFFFFF#32)).toNat

/-- One bit of an MSB-first 16-bit CRC. -/
def crc16Bit (c : BitVec 16) (_ : Nat) : BitVec 16 :=
  if c.msb then (c <<< 1) ^^^ 0x1021#16 else c <<< 1

/-- CRC-16/CCITT of the eight bytes of a tide value, most significant first, as the frame carries them (R159). -/
def crc16ccitt (v : Nat) : Nat :=
  ((leBytes 8 v).reverse.foldl
    (fun (c : BitVec 16) b => (List.range 8).foldl crc16Bit (c ^^^ BitVec.ofNat 16 (b.toNat * 256))) 0xFFFF#16).toNat

end Sys2Proof.Machine
end

