-- ==== Sys2Proof/Machine/Log.lean ====
section
/-! DEFINITION. The persistent log (R481 to R485, R489): blocks of records, appending, garbage collection, export. -/

namespace Sys2Proof.Machine

def Log.block (l : Log) (i : Nat) : LogBlock := Sparse.get (fun _ => LogBlock.reset) l.blocks i

def Log.setBlock (l : Log) (i : Nat) (b : LogBlock) : Log :=
  { l with blocks := Sparse.put (fun _ => LogBlock.reset) l.blocks i b }

/-- Bytes a record takes: its header and its padded body (R482). -/
def LogRec.size (r : LogRec) : Nat := 32 + roundUp r.body.length 32

/-- Word `i` of a body the module itself writes: eight bytes a word (DESIGN CHOICE, log entry 8). -/
def LogRec.word (r : LogRec) (i : Nat) : Nat := leNat ((r.body.drop (8 * i)).take 8)

/-- The body of a record the module itself writes. -/
def logBody (ws : List Nat) : List Byte := ws.flatMap (leBytes 8)

/-- Every committed record with a good CRC, with its block's BLOCK_SEQ. -/
def Log.all (l : Log) : List (Nat × LogRec) :=
  l.blocks.flatMap fun b => (b.2.recs.filter (·.crcOk)).map fun r => (b.2.seq, r)

/-- One copy of each SEQ: the one in the block with the higher BLOCK_SEQ (R485). -/
def Log.unique (l : Log) : List LogRec :=
  (l.all.filter fun p => !(l.all.any fun q => q.2.seq == p.2.seq && decide (p.1 < q.1))).map Prod.snd

/-- How many later records of the same type there are. -/
def laterOf (rs : List LogRec) (r : LogRec) : Nat :=
  (rs.filter fun q => q.type == r.type && decide (r.seq < q.seq)).length

/-- A record is live by its type (R482); `cut` is the age below which RESET records have left every window. -/
def liveRec (rs : List LogRec) (cut : Nat) (r : LogRec) : Bool :=
  let later := fun (same : LogRec → Bool) => rs.any fun q => q.type == r.type && decide (r.seq < q.seq) && same q
  match r.type with
  | 1 | 5 => !later fun q => q.key == r.key
  | 2 => !later fun q => q.key == r.key && q.word 0 == r.word 0
  | 3 => decide (cut ≤ r.word 0)
  | 4 | 6 => !later fun _ => true
  | 7 => decide (laterOf rs r < 256)
  | 9 => decide (laterOf rs r < 64)
  | _ => true

def Log.live (l : Log) (cut : Nat) : List LogRec := (l.unique).filter fun r => liveRec l.unique cut r

/-- Free record blocks, of 1,022 (R481). -/
def Log.freeBlocks (l : Log) : Nat := 1022 - (l.blocks.filter fun b => b.2.st != .free).length

/-- The FREE record block with the lowest ERASES: one never listed has none. -/
def Log.pickFree (l : Log) : Option Nat :=
  match ((List.range (l.blocks.length + 1)).map (· + 2)).find? fun i => !(l.blocks.any fun b => b.1 == i) with
  | some i => if i < 1024 then some i else
      ((l.blocks.filter fun b => b.2.st == .free).foldl (fun (m : Option (Nat × LogBlock)) b =>
        match m with
        | none => some b
        | some x => if b.2.erases < x.2.erases then some b else m) none).map Prod.fst
  | none => none

def Log.maxSeq (l : Log) : Nat := l.blocks.foldl (fun m b => max m b.2.seq) 0

/-- Append a record unchanged to the OPEN block, opening the next one when it is full (R482, R484). -/
def Log.append (l : Log) (r : LogRec) : Option Log :=
  let b := l.block l.opened
  if b.st = .opened ∧ 64 + (b.recs.map LogRec.size).sum + r.size ≤ 65536 then
    some (l.setBlock l.opened { b with recs := b.recs ++ [r] })
  else
    match l.pickFree with
    | none => none
    | some i =>
      let l1 := { (if b.st = .opened then l.setBlock l.opened { b with st := .complete } else l) with mapOk := false }
      some { l1.setBlock i { st := .opened, seq := l.maxSeq + 1, erases := (l.block i).erases, recs := [r] } with
             opened := i }

def Log.appendAll (l : Log) : List LogRec → Option Log
  | [] => some l
  | r :: rs => match l.append r with
    | some l1 => l1.appendAll rs
    | none => none

def liveBytes (live : List LogRec) (b : LogBlock) : Nat :=
  ((b.recs.filter fun r => live.contains r).map LogRec.size).sum

/-- The COMPLETE block with the fewest live bytes, then the lowest BLOCK_SEQ (R484). -/
def Log.victim (l : Log) (cut : Nat) : Option (Nat × LogBlock) :=
  let live := l.live cut
  (l.blocks.filter fun b => b.2.st == .complete).foldl (fun m b =>
    match m with
    | none => some b
    | some x =>
      let lb := liveBytes live b.2
      let lx := liveBytes live x.2
      if lb < lx ∨ (lb = lx ∧ b.2.seq < x.2.seq) then some b else m) none

/-- Every COMPLETE block holds only live records (R483). -/
def Log.allLive (l : Log) (cut : Nat) : Bool :=
  l.blocks.all fun b => b.2.st != .complete || liveBytes (l.live cut) b.2 == (b.2.recs.map LogRec.size).sum

/-- One garbage collection (R484); none where it frees no block because every block holds only live records (R483). -/
def Log.collect (l : Log) (cut : Nat) : Option Log :=
  match l.victim cut with
  | none => none
  | some (i, b) =>
    if l.allLive cut then none
    else match l.appendAll (b.recs.filter fun r => (l.live cut).contains r) with
      | none => none
      | some l1 => some { l1.setBlock i { st := .free, seq := 0, erases := b.erases + 1, recs := [] } with
                          mapSeq := l1.mapSeq + 1, mapOk := true }

/-- The age before which no escalation window reaches (R416, R417). -/
def State.resetCut (s : State) : Nat :=
  s.resets.age - max (s.rd F.RST_ESC_SITE_WINDOW_S) (s.rd F.RST_ESC_MOD_WINDOW_S)

def State.lowFree (s : State) : State := if s.log.freeBlocks < 16 then s.event 0x1F 0 1 else s

/-- Run a collection. -/
def State.gc (s : State) : State :=
  match s.log.collect s.resetCut with
  | some l => { s with log := l }.lowFree
  | none => s.lowFree

/-- Append and commit a record, collecting first with fewer than 16 FREE blocks; a record that no block takes is
dropped (R482 to R484). -/
def State.logAppend (s : State) (type key : Nat) (body : List Byte) : State :=
  let s1 := if s.log.freeBlocks < 16 then s.gc else s
  let r : LogRec := ⟨type, key % 65536, s1.log.seq + 1, body.take 4064, true⟩
  match s1.log.append r with
  | some l => { s1 with log := { l with seq := r.seq } }.lowFree
  | none => (s1.bump F.LOG_DROPPED_COUNT).event 0x1F 0 3

/-- A record of the module itself. -/
def State.logWords (s : State) (type key : Nat) (ws : List Nat) : State := s.logAppend type key (logBody ws)

/-- The bytes of a committed record, header and body (R482). -/
def LogRec.bytes (r : LogRec) : List Byte :=
  let head := leBytes 2 0x5247 ++ leBytes 1 r.type
  let tail := leBytes 2 r.body.length ++ leBytes 2 r.key ++ leBytes 8 r.seq
  let crc := crc32c (head ++ [0xFF] ++ tail ++ r.body)
  head ++ [0] ++ tail ++ leBytes 4 crc ++ List.replicate 12 0 ++ r.body

/-- Insert a record by SEQ. -/
def insertBySeq (r : LogRec) : List LogRec → List LogRec
  | [] => [r]
  | q :: qs => if r.seq < q.seq then r :: q :: qs else q :: insertBySeq r qs

/-- The bytes an export of live records gives, in SEQ order; a record that would pass the limit ends it (DESIGN
CHOICE, log entry 8). -/
def exportBytes (limit : Nat) : List LogRec → List Byte
  | [] => []
  | r :: rs => if limit < r.bytes.length then [] else r.bytes ++ exportBytes (limit - r.bytes.length) rs

/-- A loss of power during a collection (R485): some of the victim's live records have been copied, or all and the victim marked
OBSOLETE, or it has been erased with its header and the map not written.  How far a copy came is free (log entry 124). -/
def State.cutLog (s : State) (c : LogCut) : State :=
  match c, s.log.victim s.resetCut with
  | .none, _ => s
  | _, none => s
  | _, some (i, b) =>
    let keep := b.recs.filter fun r => (s.log.live s.resetCut).contains r
    let n := if c = .copy then Config.freeNat s.free % (keep.length + 1) else keep.length
    match s.log.appendAll (keep.take n) with
    | none => s
    | some l =>
      let l1 := match c with
        | .mark => { l.setBlock i { b with st := .obsolete } with mapOk := false }
        | .erase => { l.setBlock i LogBlock.reset with mapOk := false, lost := l.lost ++ [i] }
        | _ => l
      { s with log := l1, free := s.free + (if c = .copy then 1 else 0) }

/-- The scan that rebuilds the map: an erased block whose count was lost takes the highest count known (R485). -/
def Log.scan (l : Log) : Log :=
  let top := l.blocks.foldl (fun m b => max m b.2.erases) 0
  { l.lost.foldl (fun m i => m.setBlock i { m.block i with erases := top }) l with
    mapOk := true, mapSeq := l.mapSeq + 1, lost := [] }

/-- Committed records whose CRC is bad (R482). -/
def Log.badRecs (l : Log) : Nat := (l.blocks.map fun b => (b.2.recs.filter fun r => !r.crcOk).length).sum

/-! ### The commands -/

/-- LOG_RECORD_COMMIT (R482). -/
def execLogRecordCommit (type key : Nat) (body : List Byte) (s : State) : Host.Outcome State Fault Refusal :=
  s.mgmtAct (s.logAppend type key body)

/-- LOG_GC (R484). -/
def execLogGc (s : State) : Host.Outcome State Fault Refusal := s.mgmtAct s.gc

/-- The bytes that an export copies. -/
def State.exported (s : State) : List Byte :=
  exportBytes (s.rd F.LOG_EXPORT_LEN_LIMIT) ((s.log.live s.resetCut).foldr insertBySeq [])

/-- LOG_EXPORT (R489). -/
def State.logExport (s : State) : State :=
  let s1 := (s.store (s.rd F.LOG_EXPORT_ADDR * 4096) s.exported).wr F.LOG_EXPORT_LEN_BYTES 0 0 s.exported.length
  { s1 with log := { s1.log with exporting := true } }

/-- LOG_EXPORT_DONE (R489). -/
def execLogExportDone (s : State) : Host.Outcome State Fault Refusal :=
  s.mgmtAct (if s.log.exporting then { s with log := { s.log with exporting := false } }.event 0x1F 0 2 else s)

/-- AGE_LOG_WRITE (R415). -/
def execAgeLogWrite (s : State) : Host.Outcome State Fault Refusal := s.mgmtAct (s.logWords 4 0 [s.resets.age])

/-- AGE_TICK (R415). -/
def execAgeTick (s : State) : Host.Outcome State Fault Refusal :=
  s.mgmtAct { s with resets := { s.resets with age := (s.resets.age + 1) % 2 ^ 48 } }

end Sys2Proof.Machine
end

