-- ==== Sys2Proof/Machine/Memory.lean ====
section
/-! DEFINITION. The memory tiers' own commands (chapter 08): SRAM bank states, scrubbing, the secure wipe, HBM page
retirement, thermal handling, margining, bulk scrub and partitions. -/

namespace Sys2Proof.Machine

/-! ### SRAM banks (R266, R267, R444) -/

/-- Drop what memory lists in [lo, hi): the bytes read as zero again. -/
def State.clearRange (s : State) (lo hi : Nat) : State :=
  { s with mem := s.mem.filter fun c => decide (c.1 < lo) || decide (hi ≤ c.1) }

/-- The bytes of [lo, hi) read as zero again, with good check bits but in faulty cells. -/
def State.blank (s : State) (lo hi : Nat) : State :=
  { s.clearRange lo hi with cells := s.cells.filter fun e => e.2.hard || !(decide (lo ≤ e.1) && decide (e.1 < hi)) }

def bankBase (site bank : Nat) : Nat := site * 0x1000_0000 + bank * 0x10_0000

/-- The state a request names: RETENTION of an OFF bank is clamped to OFF, code 3 is ON (R267).
DEDUCED, log entry 83. -/
def bankTarget (cur : BankSt) (c : Nat) : BankSt :=
  match c, cur with
  | 1, .off => .off
  | 1, _ => .retention
  | 2, _ => .off
  | _, _ => .on

def bankClamped (b : Bank) (c : Nat) : Bool := c == 3 || (c == 1 && b.st == .off && b.going == none)

/-- Act on a request (R267). -/
def Bank.request (b : Bank) (t : BankSt) : Bank :=
  if b.going = none then (if t = b.st then b else { b with going := some t }) else { b with pending := some t }

/-- BANK_READY when nothing is in transition or pending on the page. -/
def State.bankReady (s : State) (site : Nat) : State :=
  if s.banks.any fun e => e.1 / 256 == site && (e.2.going != none || e.2.pending != none) then s
  else s.event 0x06 site 0

/-- Request one bank's state; in NAP or DEEP the state is kept for the exit (R444). -/
def State.requestBank (s : State) (site bank c : Nat) : State :=
  let k := site * 256 + bank
  if s.power.st = .nap ∨ s.power.st = .deep then
    { s with power := { s.power with bankAtExit := Sparse.put (fun _ => 3) s.power.bankAtExit k (if c = 3 then 0 else c) } }
  else
    let b := s.bank k
    let t := if b.going = none then bankTarget b.st c else bankTarget .on c
    s.setBank k (b.request t)

/-- BANK_STATE_REQUEST: a write of SRM_BANK`reg` of a site. -/
def State.writeBanks (s : State) (site reg : Nat) (v : Word) : State :=
  if isHub site ∨ s.outOfService site ∨ 8 ≤ reg then s
  else
    let s1 := (List.range 32).foldl (fun t b => t.requestBank site (32 * reg + b) (bits v (2 * b) 2)) s
    if (List.range 32).any fun b => bankClamped (s.bank (site * 256 + 32 * reg + b)) (bits v (2 * b) 2)
    then s1.clampedMark 0x06 site (0x40 + 8 * reg) else s1

def execBankStateRequest (site reg : Nat) (v : Word) (s : State) : Host.Outcome State Fault Refusal :=
  s.act (s.writeBanks site reg v)

/-- Finish a bank's transition: contents are lost in OFF and zero after it, then a pending request is acted on. -/
def State.bankDone (s : State) (site bank : Nat) : State :=
  let k := site * 256 + bank
  let b := s.bank k
  match b.going with
  | none => s
  | some t =>
    let s1 := if t = .off ∨ b.st = .off then
        s.blank (bankBase site bank) (bankBase site bank + 0x10_0000)
      else s
    let b1 : Bank := ⟨t, none, none⟩
    let b2 := match b.pending with
      | some p => b1.request (if p = .retention ∧ t = .off then .off else p)
      | none => b1
    (s1.setBank k b2).bankReady site

/-- BANK_TRANSITION_DONE. -/
def execBankTransitionDone (site bank : Nat) (s : State) : Host.Outcome State Fault Refusal :=
  s.act (s.bankDone site bank)

/-- The next line at or after `l` in an ON bank of a site. -/
def State.nextOnLine (s : State) (site l : Nat) : Option Nat :=
  match ((List.range 256).filter fun b => decide (l / 16384 ≤ b)).find? fun b => s.bankAwake site b with
  | some b => some (max l (b * 16384))
  | none => none

/-- The line a scrub reads now: with no ON bank at or above its place, a pass has ended and it starts again from the first
(R270).  The line, and whether a pass ended before it. -/
def State.scrubLine (s : State) (site : Nat) : Option (Nat × Bool) :=
  match s.nextOnLine site (Sparse.get (fun _ => 0) s.scrubPos site) with
  | some l => some (l, false)
  | none => (s.nextOnLine site 0).map fun l => (l, true)

/-- The outcome at ECC word `i` of a scrubbed line: what the command reports, or what the cells hold. -/
def State.scrubWord (s : State) (eccs : List Nat) (a i : Nat) : Nat :=
  max (nth eccs i) (Sparse.get (fun _ => MemFx.clean) s.cells (a + 8 * i)).ecc

/-- PATROL_SCRUB (R270): the eight ECC words of the next line are checked; each double-bit error is recorded, each
single-bit one corrected and written back, unless the word was written since (R271). -/
def State.patrol (s : State) (site : Nat) (eccs : List Nat) (writtenSince : Bool) : State :=
  if s.rd F.SRM_SCRUB_EN site = 0 ∨ isHub site ∨ s.outOfService site then s
  else match s.scrubLine site with
    | none => s
    | some (l, wrapped) =>
      let a := site * 0x1000_0000 + 64 * l
      let s0 := if wrapped then s.bump F.SRM_SCRUB_PASSES_COUNT site else s
      let s1 := (List.range 8).foldl (fun (t : State) i =>
        match s.scrubWord eccs a i with
        | 0 => t
        | 1 => (if writtenSince then t else t.heal 8 (a + 8 * i) 8).bump F.SRM_CE_COUNT site
        | _ => t.sramUe site (a + 8 * i)) s0
      let last := l + 1 = 4194304 ∨ (s.nextOnLine site (l + 1)).isNone
      let s2 := { s1 with scrubPos := Sparse.put (fun _ => 0) s1.scrubPos site (if last then 0 else l + 1) }
      if last then s2.bump F.SRM_SCRUB_PASSES_COUNT site else s2

def execPatrolScrub (site : Nat) (eccs : List Nat) (writtenSince : Bool) (s : State) : Host.Outcome State Fault Refusal :=
  s.act (s.patrol site eccs writtenSince)

/-! ### The secure region (R274) -/

/-- Start or restart the wipe.  A restarted wipe is one wipe (DEDUCED, log entry 12). -/
def State.wipe (s : State) : State :=
  let s1 := s.blank secureBase (secureBase + 0x80_0000)
  let s2 := if s.wiping then s1
    else s1.wr F.SRM_SECURE_WIPES 27 0 ((s.rd F.SRM_SECURE_WIPES 27 + 1) % 2 ^ 32)
  { s2 with wiping := true }

/-- An access of the management core to a word of the secure region (R272): a write, or a read whose value leaves the
block. -/
def State.secureAccess (s : State) (x : Nat × Option Word) : State :=
  match x.2 with
  | some v => (s.memWrite 27 true x.1 (leBytes 8 v.toNat) MemFx.clean).2
  | none =>
    let r := s.memRead 27 true x.1 8 MemFx.clean
    { r.2.2 with out := r.2.2.out ++ [.ctrl 27 "READ" [x.1, leNat r.1]] }

/-- The wipe is complete: the accesses it held go on in order (R274). -/
def State.wipeEnds (s : State) : State :=
  s.secHeld.foldl (fun (t : State) x => t.secureAccess x) { s with wiping := false, secHeld := [] }

/-! ### HBM retirement (R286) -/

/-- A write of HBM_RETIRE: the selected entry takes the word; another entry that retires the same page is replaced. -/
def State.retireWrite (s : State) (k : Nat) (v : Word) : State :=
  let e := s.rd F.HBM_RETIRE_SEL_ENTRY k
  let top := 0x900000 - 1
  let w := setBits (setBits (setBits 0 0 24 (min (bits v 0 24) top)) 24 24 (min (bits v 24 24) top)) 63 1 (bits v 63 1)
  let st := s.stack k
  let others := if bit w 63 then
      st.table.filter fun x => !(bits x.2 63 1 == 1 && bits x.2 0 24 == bits w 0 24) || x.1 == e
    else st.table
  let s1 := s.setStack k { st with table := Sparse.put (fun _ => 0) others e w }
  if bits v 0 24 ≤ top ∧ bits v 24 24 ≤ top then s1 else s1.clampedMark 0x11 k 0x88

def execHbmRetireWrite (stack : Nat) (v : Word) (s : State) : Host.Outcome State Fault Refusal :=
  s.act (if stack < 24 then s.retireWrite stack v else s)

/-- Persist the selected entry in the retirement list. -/
def State.retireCommit (s : State) (k : Nat) : State :=
  let w := Sparse.get (fun _ => (0 : Word)) (s.stack k).table (s.rd F.HBM_RETIRE_SEL_ENTRY k)
  s.logWords 2 k [bits w 0 24, bits w 24 24, bits w 63 1]

def execHbmRetireCommit (stack : Nat) (s : State) : Host.Outcome State Fault Refusal :=
  s.act (if stack < 24 then s.retireCommit stack else s)

/-! ### HBM thermal handling (R287 to R289) -/

/-- The share factor of a level under the stack's mode. -/
def State.thermFrac (s : State) (k level : Nat) : Nat × Nat :=
  let f := s.rd F.HBM_THERM_FRAC k
  let r := if level = 2 then 30 else 31
  if level = 0 then (1, 1)
  else match s.rd F.HBM_THERM_MODE k with
    | 0 => (f, 256)
    | 1 => (r, 32)
    | _ => (f * r, 256 * 32)

/-- A temperature reading: a rise acts at once on the refresh rate, shares change at the next boundary.
DEDUCED, log entry 85. -/
def State.tempRead (s : State) (k : Nat) (temp : Int) : State :=
  let st := s.stack k
  let lvl := if 95 ≤ temp then 2 else if (s.rd F.HBM_THERM_T_HI k : Int) ≤ temp then 1 else 0
  let lvl' := max lvl st.level
  let fall := if 0 < lvl then false else st.fall || (decide (temp < s.rd F.HBM_THERM_T_LO k) && decide (0 < st.level))
  let crit := st.crit || decide ((s.rd F.HBM_THERM_T_CRIT k : Int) ≤ temp)
  let s1 := s.setStack k { st with
    temp := temp, level := lvl', fall := fall, crit := crit,
    refresh := if s.rd F.HBM_THERM_MODE k = 0 then st.refresh else max st.refresh lvl }
  if crit && !st.crit then s1.event 0x11 k 3 else s1

def execHbmTempRead (stack : Nat) (temp : Int) (s : State) : Host.Outcome State Fault Refusal :=
  s.act (if stack < 24 then s.tempRead stack temp else s)

/-- What a stack does at a crossing boundary: a fall below T_LO is acted on, shares take their scaling, CRITICAL takes
effect or ends. -/
def State.thermBoundary (s : State) (k : Nat) : State :=
  let st := s.stack k
  let level := if st.fall then 0 else st.level
  let crit := st.crit && !decide (st.temp < s.rd F.HBM_THERM_T_HI k)
  let fr := s.thermFrac k level
  s.setStack k { st with
    level := level, fall := false, refresh := if st.fall then 0 else st.refresh,
    fracNum := fr.1, fracDen := fr.2, crit := crit, critical := crit }

/-- HBM_ECS_LOG_READ (R281). -/
def execHbmEcsLogRead (stack corrected : Nat) (s : State) : Host.Outcome State Fault Refusal :=
  s.act (if stack < 24 then s.bump F.HBM_CE_COUNT stack 0 corrected else s)

/-- REFRESH_MANAGEMENT_REQUEST (R281). -/
def execRefreshManagementRequest (stack : Nat) (s : State) : Host.Outcome State Fault Refusal :=
  s.act (if stack < 24 then s.bump F.HBM_RFM_COUNT stack else s)

/-! ### Offline interfaces and margining (R298) -/

/-- Number of a margined interface: a stack, or 24 and a bulk controller. -/
def marginIf (block inst : Nat) : Nat := if block = 0x11 then inst else 24 + inst

/-- Take an interface offline or back; back online every lane's offsets are cleared. -/
def State.offline (s : State) (ctrl ack delay vref : FieldRef) (inst : Nat) (off : Bool) : State :=
  let s1 := (s.wr ctrl inst 0 off.toNat).wr ack inst 0 off.toNat
  if off then s1
  else { (s1.wr delay inst 0 0).wr vref inst 0 0 with
    margins := s.margins.filter fun e => e.1 / 2048 != marginIf ctrl.block inst }

def execHbmOffline (stack : Nat) (off : Bool) (s : State) : Host.Outcome State Fault Refusal :=
  s.act (if stack < 24 then
    s.offline F.HBM_CTRL_OFFLINE F.HBM_STATUS_OFFLINE_ACK F.HBM_MARGIN_DELAY F.HBM_MARGIN_VREF stack off else s)

def execBlkOffline (ctl : Nat) (off : Bool) (s : State) : Host.Outcome State Fault Refusal :=
  s.act (if ctl < 4 then
    s.offline F.BLK_CTRL_OFFLINE F.BLK_STATUS_OFFLINE_ACK F.BLK_MARGIN_DELAY F.BLK_MARGIN_VREF ctl off else s)

/-- A write of a MARGIN register: the named lane takes its offsets, RUN starts only an interface that is offline, and a run
in progress keeps it. -/
def State.marginWrite (s : State) (block inst off : Nat) (ack run : FieldRef) (v : Word) : State :=
  let was := s.rd run inst
  let go := was = 1 ∨ (bits v 63 1 = 1 ∧ s.rd ack inst = 1)
  let s1 := s.writeField block inst off v
  let lane := s1.rd { run with lo := 0, width := 11 } inst
  let pair := (s1.rd { run with lo := 16, width := 6 } inst, s1.rd { run with lo := 24, width := 6 } inst)
  { s1.wr run inst 0 (if go then 1 else 0) with
    margins := Sparse.put (fun _ => (0, 0)) s1.margins (marginIf block inst * 2048 + lane) pair }

def execHbmMarginRun (stack : Nat) (v : Word) (s : State) : Host.Outcome State Fault Refusal :=
  s.act (if stack < 24 then s.marginWrite 0x11 stack 0xB0 F.HBM_STATUS_OFFLINE_ACK F.HBM_MARGIN_RUN v else s)

def execBlkMarginRun (ctl : Nat) (v : Word) (s : State) : Host.Outcome State Fault Refusal :=
  s.act (if ctl < 4 then s.marginWrite 0x12 ctl 0xB0 F.BLK_STATUS_OFFLINE_ACK F.BLK_MARGIN_RUN v else s)

/-- `n` free bytes drawn from counter value `k` on. -/
def freeBytes (k n : Nat) : List Byte := (List.range n).map fun i => Config.freeByte (k + i)

/-- A margin run ends: the error count is a measured value, and the pattern has been left in the first sectors of the
stack or controller (free values, log entry 9). -/
def State.marginDone (s : State) (run err sectors : FieldRef) (inst base : Nat) : State :=
  if s.rd run inst = 0 then s
  else
    let n := 64 * s.rd sectors inst
    let s1 := (s.wr run inst 0 0).wr err inst 0 (Config.freeNat s.free % 2 ^ 48)
    { s1.poke base (freeBytes (s.free + 1) n) with free := s.free + 1 + n }

def execHbmMarginDone (stack : Nat) (s : State) : Host.Outcome State Fault Refusal :=
  s.act (if stack < 24 then
    s.marginDone F.HBM_MARGIN_RUN F.HBM_MARGIN_ERR_COUNT F.HBM_MARGIN_SECTORS stack (hbmBase + stack * hbmSlot) else s)

def execBlkMarginDone (ctl : Nat) (s : State) : Host.Outcome State Fault Refusal :=
  s.act (if ctl < 4 then
    s.marginDone F.BLK_MARGIN_RUN F.BLK_MARGIN_ERR_COUNT F.BLK_MARGIN_SECTORS ctl (bulkBase + ctl * 0x80_0000_0000)
    else s)

/-- BLK_SCRUB (R297): the next sector of a controller is read and corrected, charged as BULK to class 62; a sector written
since the read took it keeps what was written (R271). -/
def State.blkScrub (s : State) (c sev : Nat) (writtenSince : Bool) : State :=
  if s.rd F.BLK_SCRUB_EN c = 0 ∨ s.tollHeld 62 2 0 then s
  else
    let p := Sparse.get (fun _ => 0) s.scrubPos (64 + c)
    let a := bulkBase + c * 0x80_0000_0000 + 64 * p
    let s1 := s.charge 62 2 0 1
    let v := max sev (Sparse.get (fun _ => MemFx.clean) s.cells a).sev
    let s2 := if s.rd F.BLK_CTRL_OFFLINE c = 1 then s1.offlineHit 0x12 c
      else if v = 2 then s1.blkUe c a
      else if v = 1 then (if writtenSince then s1 else s1.heal 64 a 64).bump F.BLK_CE_COUNT c else s1
    { s2 with scrubPos := Sparse.put (fun _ => 0) s2.scrubPos (64 + c) ((p + 1) % 0x2_0000_0000) }

def execBlkScrub (ctl : Nat) (sev : Nat) (writtenSince : Bool) (s : State) : Host.Outcome State Fault Refusal :=
  s.act (if ctl < 4 then s.blkScrub ctl sev writtenSince else s)

/-! ### Partitions (R290, R305) -/

/-- Two partitions share a stack and their in-stack ranges meet. -/
def State.partOverlap (s : State) (p q : Nat) : Bool :=
  let lo := fun i => s.rd F.PRT_RANGE_BASE i
  let hi := fun i => s.rd F.PRT_RANGE_BASE i + s.rd F.PRT_RANGE_SIZE i
  (s.partStacks p).any (fun k => (s.partStacks q).contains k) && decide (max (lo p) (lo q) < min (hi p) (hi q))

/-- A write of PRT_CFG (R290, R305): GRANULE is fixed while ENABLE is 1, and an enable that overlaps is refused.
DEDUCED, log entry 84. -/
def State.partWrite (s : State) (p : Nat) (v : Word) : State :=
  let on := s.rd F.PRT_CFG_ENABLE p = 1
  let s1 := if on then
      (if fld v F.PRT_CFG_GRANULE = s.rd F.PRT_CFG_GRANULE p then s else s.event 0x13 p 1)
    else (s.writeField 0x13 p 0x40 v).wr F.PRT_CFG_ENABLE p 0 0
  if fld v F.PRT_CFG_ENABLE = 0 then s1.wr F.PRT_CFG_ENABLE p 0 0
  else if on then s1
  else if (List.range 16).any fun q => q != p && s.rd F.PRT_CFG_ENABLE q == 1 && s1.partOverlap p q then
    s1.event 0x13 p 0
  else s1.wr F.PRT_CFG_ENABLE p 0 1

def execPartitionEnable (part : Nat) (v : Word) (s : State) : Host.Outcome State Fault Refusal :=
  s.act (if part < 16 then s.partWrite part v else s)

/-- PRT_STACKS and PRT_RANGE are fixed while the partition is enabled; PRT_SIZE only reads (R305, R457). -/
def State.partField (s : State) (p off : Nat) (v : Word) : State :=
  if s.rd F.PRT_CFG_ENABLE p = 1 ∧ (off = 0x48 ∨ off = 0x50) then s.event 0x13 p 1 else s.writeField 0x13 p off v

end Sys2Proof.Machine
end

