-- ==== Sys2Proof/Machine/Tide.lean ====
section
/-! DEFINITION. The tide unit, crossings and toll reloads (chapter 05). -/

namespace Sys2Proof.Machine

/-! ### The count (R156, R161, R163) -/

/-- Move the count on by `n` while the sources move on by `m`: the offsets to them change by the difference (R163). -/
def Tide.advance (t : Tide) (n m : Nat) : Tide :=
  { t with count := t.count + n, before := if n = 0 then t.before else t.count,
           inOff := t.inOff + m - n, upOff := t.upOff + m - n }

/-- One tick of the count, with an extra or an omitted tick per 1,000 while it slews (R163). -/
def Tide.tick (t : Tide) : Tide :=
  if t.slew = 0 then { t.advance 1 1 with slewAt := 0 }
  else if t.slewAt < 999 then { t.advance 1 1 with slewAt := t.slewAt + 1 }
  else
    let slew := if 0 < t.slew then t.slew - 1 else t.slew + 1
    { t.advance (if 0 < t.slew then 2 else 0) 1 with slew := if slew.natAbs ≤ 1 then 0 else slew, slewAt := 0 }

/-- What a step does on an empty queue (DESIGN CHOICE, log entry 1). -/
def State.tick (s : State) : State := { s with tide := s.tide.tick }

/-- Act on an offset to the source: leave the count, step it forward or slew it (R163). -/
def State.tideAdjust (s : State) (d : Int) : State :=
  let t := s.tide
  if d.natAbs ≤ 1 then { s with tide := { t with offset := d, slew := 0 } }
  else if ((s.rd F.TID_CFG_STEP_LIMIT_US * 1000 : Nat) : Int) < d then
    ({ s with tide := { t.advance d.toNat 0 with offset := d, slew := 0 } }.bump F.TID_STEPS_COUNT).event 0x15 0 1
  else { s with tide := { t with offset := d, slew := d } }

/-! ### Sources (R158 to R162) -/

/-- The upstream port is a valid source: enabled, up, three valid markers in a row. -/
def State.upValid (s : State) : Bool :=
  s.rd F.TID_CFG_UP_EN == 1 && (s.port (s.rd F.TID_CFG_UP_PORT)).st == .up &&
    decide (3 ≤ (s.port (s.rd F.TID_CFG_UP_PORT)).markers)

/-- TIDE_IN is a valid source: enabled, three frames in a row past their CRC (R158). -/
def State.inValid (s : State) : Bool := s.rd F.TID_CFG_IN_EN == 1 && decide (3 ≤ s.tide.frames)

/-- Slack tide becomes the source (R161, R181).  A slew in progress ends with the source it went towards: the model's choice, the
rules do not say (DESIGN CHOICE, log entry 143). -/
def State.toSlack (s : State) : State :=
  ({ s with tide := { s.tide with st := .slack, prev := .slack, hops := 511, slew := 0 } }.event 0x15 0 0).event 0x15 0 2

/-- The upstream port becomes the source. -/
def State.toUpstream (s : State) : State :=
  ({ s with tide := { s.tide with st := .upstream, hops := s.tide.upHops } }.event 0x15 0 0).tideAdjust s.tide.upOff

/-- TIDE_IN becomes the source. -/
def State.toRef (s : State) : State :=
  ({ s with tide := { s.tide with st := .ref, hops := 0 } }.event 0x15 0 0).tideAdjust s.tide.inOff

/-- A candidate becomes valid: qualify it (R162). -/
def State.qualify (s : State) (isIn : Bool) : State :=
  match s.tide.st with
  | .slack => { s with tide := { s.tide with st := .qualify, prev := .slack, cand := isIn } }
  | .upstream => if isIn then { s with tide := { s.tide with st := .qualify, prev := .upstream, cand := true } } else s
  | _ => s

/-- A candidate becomes invalid: back to the previous state. -/
def State.unqualify (s : State) (isIn : Bool) : State :=
  if s.tide.st = .qualify ∧ s.tide.cand = isIn then { s with tide := { s.tide with st := s.tide.prev } } else s

/-- TIDE_EPOCH_FRAME (R159): a frame of sync word, tide value and CRC.  A frame whose sync word is wrong counts as one whose CRC
failed: the model's choice, R181 names the CRC only (DESIGN CHOICE, log entry 144). DEDUCED, log entry 73. -/
def State.epochFrame (s : State) (sync value crc : Nat) : State :=
  if s.rd F.TID_CFG_IN_EN = 0 then s
  else if sync ≠ 0xB38E ∨ crc16ccitt value ≠ crc then
    ({ s with tide := { s.tide with frames := 0 } }.event 0x15 0 3).unqualify true
  else
    let d : Int := (value : Int) + s.rd F.TID_IN_DELAY_NS - s.tide.count
    let s1 := { s with tide := { s.tide with frames := s.tide.frames + 1, inOff := d } }
    if s.tide.st = .ref then s1.tideAdjust d
    else if 3 ≤ s1.tide.frames then s1.qualify true
    else s1

def execTideEpochFrame (sync value crc : Nat) (s : State) : Host.Outcome State Fault Refusal :=
  s.act (s.epochFrame sync value crc)

/-- TIDE_QUALIFY_DONE (R162): a candidate that is no longer valid sends the unit back. -/
def State.qualifyDone (s : State) : State :=
  if s.tide.st = .qualify then
    (if s.tide.cand then (if s.inValid then s.toRef else s.unqualify true)
      else if s.upValid then s.toUpstream else s.unqualify false)
  else s

def execTideQualifyDone (s : State) : Host.Outcome State Fault Refusal := s.act s.qualifyDone

/-- TIDE_IN is lost. -/
def State.inLost (s : State) : State :=
  let s1 := { s with tide := { s.tide with frames := 0 } }.unqualify true
  if s.tide.st = .ref then (if s.upValid then s1.toUpstream else s1.toSlack) else s1

/-- The upstream port is lost as a source; a qualification that runs beside it goes on over slack tide. -/
def State.upLost (s : State) : State :=
  let s1 := s.unqualify false
  if s.tide.st = .upstream then s1.toSlack
  else if s.tide.st = .qualify ∧ s.tide.prev = .upstream then
    { s1.toSlack with tide := { s1.toSlack.tide with st := .qualify, cand := true } }
  else s1

/-- No valid marker for 3 ms: the port's run of markers ends. -/
def State.noMarkers (s : State) : State :=
  let p := s.rd F.TID_CFG_UP_PORT
  (s.setPort p { s.port p with markers := 0 }).upLost

/-- A write of TID_CFG (R158, R162): a source that its enable bit or its port no longer names is lost, and the run of frames ends
with IN_EN; a newly named port that is valid becomes a candidate. DEDUCED, log entry 145. -/
def State.writeTidCfg (s : State) (v : Word) : State :=
  let s1 := s.writeField 0x15 0 0x50 v
  let s2 := if s.rd F.TID_CFG_IN_EN = 1 ∧ s1.rd F.TID_CFG_IN_EN = 0 then s1.inLost else s1
  let moved := s1.rd F.TID_CFG_UP_PORT != s.rd F.TID_CFG_UP_PORT
  let s3 := if s.rd F.TID_CFG_UP_EN = 1 ∧ (s1.rd F.TID_CFG_UP_EN = 0 ∨ moved) then s2.upLost else s2
  if moved ∧ s3.upValid then s3.qualify false else s3

def execTideSourceLoss (why : TideLoss) (s : State) : Host.Outcome State Fault Refusal :=
  s.act (match why with
    | .noFrame3ms => s.inLost
    | .clkAbsent => s.inLost
    | .noMarker3ms => s.noMarkers)

/-! ### Crossings (R165 to R167) -/

/-- Length of a crossing in ticks. -/
def State.xingLen (s : State) : Nat := s.tide.len * 1000

/-- Crossing number (R165). -/
def State.xnum (s : State) : Nat := (s.now - s.tide.base) / s.xingLen

/-- The latest boundary at or before now. -/
def State.boundary (s : State) : Nat := s.tide.base + s.xnum * s.xingLen

/-- TID_XING_WRITE (R166): stage a length or a base; the other is staged with it. DEDUCED, log entry 75. -/
def State.xingWrite (s : State) (base : Bool) (v : Word) : State :=
  let t := s.tide
  let staged := t.stagedLen || t.stagedBase
  let len0 := if staged then s.rd F.TID_XING_LEN_US else t.len
  let base0 := if staged then s.rd F.TID_XING_BASE_BASE else t.base
  let s1 := if base then s else s.writeField 0x15 0 0x70 v
  let len1 := if base then len0 else s1.rd F.TID_XING_LEN_US
  let want := if base then v.toNat else base0
  let base1 := if want ≤ s.now then s.boundary + s.xingLen else want
  { (s1.wr F.TID_XING_LEN_US 0 0 len1).wr F.TID_XING_BASE_BASE 0 0 base1 with
    tide := { t with stagedLen := true, stagedBase := true } }

def execTidXingWrite (base : Bool) (v : Word) (s : State) : Host.Outcome State Fault Refusal :=
  s.act (s.xingWrite base v)

/-- STAGED_XING_APPLY: staged settings take effect when the count reaches the staged base. -/
def State.applyXing (s : State) : State :=
  if (s.tide.stagedLen || s.tide.stagedBase) && decide (s.rd F.TID_XING_BASE_BASE ≤ s.now) then
    { s with tide := { s.tide with
        len := s.rd F.TID_XING_LEN_US, base := s.rd F.TID_XING_BASE_BASE, stagedLen := false, stagedBase := false } }
  else s

def execStagedXingApply (s : State) : Host.Outcome State Fault Refusal := s.act s.applyXing

/-! ### Toll reload (R170 to R174) -/

/-- Field of a class's toll register for a resource. -/
def tollField (res : Nat) : FieldRef := { F.TOL_ISSUE_TOLL with off := 0x40 + 8 * res }

/-- Debts carried into the next crossing. -/
def State.debts (s : State) : Sparse Int :=
  s.spent.filterMap fun e =>
    let d := -(s.counter (e.1 / 8192) (e.1 / 1024 % 8) (e.1 % 1024))
    if 0 < d ∧ s.baseToll (e.1 / 8192) (e.1 / 1024 % 8) ≠ unmetered then some (e.1, d) else none

/-- Staged tolls and throttle fractions taken into effect (R173). -/
def State.stagedTolls (s : State) : Sparse Nat :=
  (List.range 512).filterMap fun k =>
    if k % 8 = 7 then none
    else
      let t := s.rd (tollField (k % 8)) (k / 8)
      if t = unmetered then none else some (k, t)

/-- Classes whose TOL_CFG.EXEMPT is set, as a mask. -/
def State.exemptMask (s : State) : Nat := maskOf ((List.range 64).filter fun c => s.rd F.TOL_CFG_EXEMPT c == 1)

/-- The instances of a resource that may hold a class which has spent nothing: the stacks of the partitions that regulators serve
for HBM (R293), else one stands for all, which receive the same toll (R169). -/
def State.freshInsts (s : State) (res : Nat) : List Nat :=
  if res = 1 then
    ((List.range 16).filter fun p => p == 0 || s.rd F.PRT_CFG_ENABLE p == 1).flatMap fun p =>
      (s.partStacks p).map fun k => p * 32 + k
  else [0]

/-- The (class, resource) pairs that some instance holds when the crossing starts: in debt, or with an effective toll of 0 (R170,
R171). -/
def State.heldAtStart (s : State) : List (Nat × Nat) :=
  let fresh := s.tolls.filter fun (e : Nat × Nat) => e.2 != unmetered && (s.freshInsts (e.1 % 8)).any fun i => s.tollHeld (e.1 / 8) (e.1 % 8) i
  let crit := if (List.range 24).any (fun k => (s.stack k).critical) then
      (List.range 64).filter fun c => (s.freshInsts 1).any fun i => s.tollHeld c 1 i else []
  let debt := s.spent.filter fun (e : Nat × Int) => s.tollHeld (e.1 / 8192) (e.1 / 1024 % 8) (e.1 % 1024)
  (fresh.map (fun (e : Nat × Nat) => (e.1 / 8, e.1 % 8)) ++ crit.map (fun c => (c, 1)) ++
    debt.map fun (e : Nat × Int) => (e.1 / 8192, e.1 / 1024 % 8)).dedup

/-- At an update boundary the fraction that the controller staged replaces what a host has staged (R434). -/
def State.takeFraction (s : State) : State :=
  match s.power.fracStaged with
  | some f =>
    { (s.wr F.TOL_THROTTLE_ISSUE_FRAC 64 0 f).wr F.TOL_THROTTLE_ENERGY_FRAC 64 0 f with
      power := { s.power with fracStaged := none } }
  | none => s

/-- Counters reload with the staged tolls and fractions, debts carried; a class that is held from the start is noted so. -/
def State.reload (s0 : State) : State :=
  let s := s0.takeFraction
  let debts := s.debts
  let s1 := (List.range 24).foldl (fun t k => t.thermBoundary k) s
  let s2 := (List.range 64).foldl (fun t c => t.wr F.TOL_HELD_RESOURCES c 0 0) s1
  let s3 := { s2 with spent := debts, tolls := s.stagedTolls, exempt := s.exemptMask,
                      throttle := (s.rd F.TOL_THROTTLE_ISSUE_FRAC 64, s.rd F.TOL_THROTTLE_ENERGY_FRAC 64) }
  s3.heldAtStart.foldl (fun t e => t.markHeld e.1 e.2) s3

/-- The TOL registers whose writes are staged (R173). -/
def stagedTol (page off : Nat) : Bool :=
  (decide (page < 64) && decide (0x40 ≤ off) && decide (off ≤ 0x70) && off % 8 == 0) || (page == 64 && off == 0x40)

/-- TOL_WRITE: a staged write of a toll register or of TOL_THROTTLE; the register holds the staged value. -/
def execTolWrite (page off : Nat) (v : Word) (s : State) : Host.Outcome State Fault Refusal :=
  s.act (if stagedTol page off then s.writeField 0x16 page off v else s)

end Sys2Proof.Machine
end

