-- ==== Sys2Proof/Machine/Operands.lean ====
section
/-! DEFINITION. The operand forms: fields of a manifest (R115 to R117), tensor handles (R121 to R123) with what makes
them malformed (R143), segment windows and their translation (R275 to R277, R292), and reading and writing the blocks
of a tensor (R44 to R46, R122). -/

namespace Sys2Proof.Machine

/-! ### Manifest fields (R115) -/

/-- Word `i` of a manifest. -/
def mword (ws : List Word) (i : Nat) : Word := ws.getD i 0

def mOpcode (ws : List Word) : Nat := bits (mword ws 0) 0 8
def mSubop (ws : List Word) : Nat := bits (mword ws 0) 8 8
def mPatch (ws : List Word) : Nat := bits (mword ws 0) 16 16
def mGap (ws : List Word) : Nat := bits (mword ws 0) 32 16
/-- FLAGS bit: 0 SR, 1 ACC, 2 GROUP, 3 RECOMPUTE, 4 RECORD, 5 DL_COMPLETE. -/
def mFlag (ws : List Word) (i : Nat) : Bool := bit (mword ws 0) (48 + i)
def mStepMask (ws : List Word) : Nat := bits (mword ws 0) 56 8
def mDeclared (ws : List Word) : Nat := bits (mword ws 1) 0 24
def mTile (ws : List Word) : Nat := bits (mword ws 1) 24 3
def mTiles (ws : List Word) : Nat := bits (mword ws 1) 27 3 + 1
def mTrim (ws : List Word) : Nat := bits (mword ws 1) 32 4
/-- FRAC; of a byte above 31 the low five bits count (DESIGN CHOICE, log entry 151). -/
def mFrac (ws : List Word) : Nat := bits (mword ws 1) 40 5
def mTable (ws : List Word) : Nat := bits (mword ws 1) 48 8
def mOperand (ws : List Word) (i : Nat) : Word := mword ws (2 + i)
def mWait (ws : List Word) (i : Nat) : Word := mword ws (6 + i)
def mSignal (ws : List Word) (i : Nat) : Word := mword ws (10 + i)
def mNotBefore (ws : List Word) : Nat := (mword ws 12).toNat
def mDeadline (ws : List Word) : Nat := (mword ws 13).toNat
def mStep (ws : List Word) : Nat := bits (mword ws 14) 0 32
def mArg (ws : List Word) : Nat := bits (mword ws 14) 32 32
def mImm (ws : List Word) : Word := mword ws 15

/-- Operand words (R116). -/
def opPresent (w : Word) : Bool := bit w 0
def opIsParam (w : Word) : Bool := bit w 1
def opParam (w : Word) : Nat := bits w 2 4
def opAddr (w : Word) : Nat := bits w 6 58 * 64

/-- Wait and signal words (R117). -/
def wordBollard (w : Word) : Nat := bits w 0 14
def wordEnable (w : Word) : Bool := bit w 14
def waitBounded (w : Word) : Bool := bit w 15
/-- TARGET of a wait, INCREMENT of a signal. -/
def wordValue (w : Word) : Nat := bits w 32 32

/-- Operation codes executed by the cores (R118). -/
def coreOpcode (op : Nat) : Bool := decide (op ∈ [1, 3, 4, 5, 6, 7, 8])

/-- Every defined operation code (R118). -/
def definedOpcode (op : Nat) : Bool :=
  decide (op ≤ 0x0A) || decide (0x10 ≤ op ∧ op ≤ 0x15) || op == 0x18 || op == 0x19 || op == 0x1C || op == 0x1D ||
    decide (0x20 ≤ op ∧ op ≤ 0x23)

/-! ### Segment windows (R275 to R277) -/

/-- Partition offset to physical address (R292). -/
def State.partAddr (s : State) (p x : Nat) : Nat :=
  let g := 4096 * 2 ^ s.rd F.PRT_CFG_GRANULE p
  let ks := s.partStacks p
  let slot := x / g
  let k := nth ks (slot % ks.length)
  hbmBase + k * hbmSlot + s.rd F.PRT_RANGE_BASE p * 0x10_0000 + slot / ks.length * g + x % g

/-- Size of a partition (R290). -/
def State.partSize (s : State) (p : Nat) : Nat := (s.partStacks p).length * (s.rd F.PRT_RANGE_SIZE p * 0x10_0000)

/-- A segment window: its CTX_SEG_BASE, CTX_SEG_LIMIT and CTX_SEG_MAP words (R278). -/
abbrev SegWin := List Word

def segBase (w : SegWin) : Nat := fld (mword w 0) F.CTX_SEG_BASE_BASE * 4096
def segLimit (w : SegWin) : Nat := fld (mword w 1) F.CTX_SEG_LIMIT_LIMIT * 4096

/-- The enabled windows of a context as they stand, in window order. -/
def State.segWins (s : State) (ctx : Nat) : List SegWin :=
  ((List.range 64).filter fun w => s.rd F.CTX_SEG_BASE_ENABLE ctx w == 1).map fun w =>
    [s.reg (F.CTX_SEG_BASE_BASE.key ctx w), s.reg (F.CTX_SEG_LIMIT_LIMIT.key ctx w), s.reg (F.CTX_SEG_MAP_PART.key ctx w)]

/-- The lowest-numbered of some windows that contains an address. -/
def segWindow (wins : List SegWin) (a : Nat) : Option SegWin :=
  wins.find? fun w => decide (segBase w ≤ a) && decide (a < segLimit w)

/-- Permissions: read or fetch, write, memory-side add. -/
inductive Perm where
  | r | w | a
  deriving DecidableEq, Repr

def segGrants (w : SegWin) : Perm → Bool
  | .r => fld (mword w 0) F.CTX_SEG_BASE_R == 1
  | .w => fld (mword w 0) F.CTX_SEG_BASE_W == 1
  | .a => fld (mword w 0) F.CTX_SEG_BASE_A == 1

/-- No byte of [a, a + n) reaches a hole: tried at each 4 KiB step, the smallest unit of the address map (R40).
DEDUCED, log entry 54. -/
def State.noHole (s : State) (f : Nat → Nat) (a n : Nat) : Bool :=
  (List.range (n / 4096 + 2)).all fun i =>
    match s.region (f (min (a + 4096 * i) (a + n - 1))) with
    | .hole => false
    | .secure => false
    | _ => true

/-- Check a byte range against windows: the translation to physical addresses, or none where the range is a segment violation
(R276, R277). -/
def State.segIn (s : State) (wins : List SegWin) (perm : Perm) (a n : Nat) : Option (Nat → Nat) :=
  if n = 0 then some id
  else match segWindow wins a with
    | none => none
    | some w =>
      if a + n ≤ segLimit w ∧ segGrants w perm then
        let part := fld (mword w 0) F.CTX_SEG_BASE_KIND == 1
        let p := fld (mword w 2) F.CTX_SEG_MAP_PART
        let poff := fld (mword w 2) F.CTX_SEG_MAP_POFF * 4096
        let f := fun x => if part then s.partAddr p (poff + (x - segBase w)) else x
        if part ∧ s.partSize p < poff + (a + n - segBase w) then none
        else if s.noHole f a n then some f else none
      else none

/-- A range against the context's windows as they stand. -/
def State.seg (s : State) (ctx : Nat) (perm : Perm) (a n : Nat) : Option (Nat → Nat) := s.segIn (s.segWins ctx) perm a n

/-- Every range of a list passes. -/
def State.segAll (s : State) (ctx : Nat) (perm : Perm) (rs : List (Nat × Nat)) : Bool :=
  rs.all fun r => (s.seg ctx perm r.1 r.2).isSome

/-! ### Reads and writes by units outside the cores -/

/-- The cells of a byte's 64-byte sector hold an uncorrectable error. -/
def State.sectorLost (s : State) (a : Nat) : Bool :=
  s.cells.any fun e => e.1 / 64 * 64 == s.phys a / 64 * 64 && fxLost e.2

/-- Why a read of a physical byte fails, coded as in R409: 1 STATUS 1, 2 hole, 3 asleep bank, 4 offline interface;
`ue` lists 64-byte sectors whose read is uncorrectable, beside those whose cells are. -/
def State.readCause (s : State) (ue : List Nat) (a : Nat) : Option Nat :=
  let lost := ue.contains (a / 64 * 64) || s.sectorLost a
  match s.region a with
  | .hole => some 2
  | .secure => some 2
  | .sram site bank => if s.bankAwake site bank then (if lost then some 1 else none) else some 3
  | .hbm k _ => if s.rd F.HBM_CTRL_OFFLINE k = 1 then some 4 else if lost then some 1 else none
  | .bulk c => if s.rd F.BLK_CTRL_OFFLINE c = 1 then some 4 else if lost then some 1 else none
  | _ => none

/-- The data byte a read delivers: zero where nothing answers, else what is stored. -/
def State.readByte (s : State) (ue : List Nat) (a : Nat) : Byte :=
  match s.readCause ue a with
  | some 1 => match s.region a with
    | .sram _ _ => 0
    | _ => s.byte (s.phys a)
  | some _ => 0
  | none => s.byte (s.phys a)

/-- What the read of one sector counts and records in its unit (R40, R268, R269, R273, R283 to R285, R296, R298). -/
def State.noteSector (s : State) (ue : List Nat) (a : Nat) : State :=
  let b := a / 64 * 64
  match s.region a with
  | .hole => s.holeAccess 27 a
  | .secure => s.bump F.SRM_SECURE_DENY_COUNT 27
  | .sram site bank =>
    if !s.bankAwake site bank then s.asleep site a
    else if ue.contains b then s.sramUe site a
    else (s.flaws 8 b 64).foldl (fun t u => t.sramFlaw site u) s
  | .hbm k _ =>
    if s.rd F.HBM_CTRL_OFFLINE k = 1 then s.offlineHit 0x11 k
    else if ue.contains b then s.hbmUe k a
    else (s.flaws 64 b 64).foldl (fun t u => (t.hbmRetry k u.2).hbmSev k u) s
  | .bulk c =>
    if s.rd F.BLK_CTRL_OFFLINE c = 1 then s.offlineHit 0x12 c
    else if ue.contains b then s.blkUe c a
    else (s.flaws 64 b 64).foldl (fun t u => (t.blkLink c u).blkSev c u) s
  | _ => s

/-- What the read of some sectors counts and records. -/
def State.noteReads (s : State) (ue : List Nat) (as : List Nat) : State :=
  as.dedup.foldl (fun (t : State) a => t.noteSector ue a) s

/-- The 64-byte sectors that [a, a + n) touches. -/
def sectors (a n : Nat) : List Nat :=
  if n = 0 then [] else (List.range ((a + n - 1) / 64 - a / 64 + 1)).map fun i => (a / 64 + i) * 64

/-- The partition that holds a physical HBM address, 0 where none does (R291). -/
def State.partOf (s : State) (k off : Nat) : Nat :=
  ((List.range 16).find? fun p =>
    s.rd F.PRT_CFG_ENABLE p == 1 && (s.partStacks p).contains k &&
      decide (s.rd F.PRT_RANGE_BASE p * 0x10_0000 ≤ off) &&
      decide (off < (s.rd F.PRT_RANGE_BASE p + s.rd F.PRT_RANGE_SIZE p) * 0x10_0000)).getD 0

/-- Resource and instance that meter a sector, if any (R169, R291, R293). -/
def State.meterOf (s : State) (a : Nat) : Option (Nat × Nat) :=
  match s.region a with
  | .hbm k _ => some (1, s.partOf k ((s.phys a - hbmBase) % hbmSlot) * 32 + k)
  | .bulk _ => some (2, 0)
  | _ => none

/-- Charge a class for sectors it moves (R169). -/
def State.chargeSectors (s : State) (cls : Nat) (as : List Nat) : State :=
  as.foldl (fun t a => match t.meterOf a with
    | some (res, inst) => t.charge cls res inst 1
    | none => t) s

/-- The mesh node that serves an address: a bank's site, a stack's edge site, a controller's corner site, a page's site, else the hub
(R15, R16, R26, R452). -/
def State.homeNode (s : State) (a : Nat) : Nat :=
  match s.region a with
  | .sram site _ => site
  | .hbm k _ => portNode (2 * k)
  | .bulk c => cornerSite c
  | .regs => pageSite ((a - regBase) / 0x40_0000) ((a - regBase) / 0x1000 % 1024)
  | _ => 27

/-- Request flits that a unit at a mesh node injects for sectors it reads or writes elsewhere (R23, R169): one packet for what it
touches of a 4 KiB page, a write of more than 448 bytes with its data flits; hub-internal traffic is free.
DEDUCED, log entry 141. -/
def State.meshFlits (s : State) (node : Nat) (write : Bool) (secs : List Nat) : Nat :=
  ((secs.map (· / 4096)).dedup.map fun pg =>
    let mine := secs.filter fun a => a / 4096 == pg
    let home := s.homeNode (mine.headD 0)
    if home = node ∨ (isHub home ∧ isHub node) then 0
    else if write ∧ 448 < 64 * mine.length then 1 + ceilDiv (64 * mine.length) 512 else 1).sum

/-- Charge request flits at their source node (R169). -/
def State.chargeMesh (s : State) (cls node flits : Nat) : State := if flits = 0 then s else s.charge cls 3 node flits

/-- The sectors of a class that its meters still hold, and the state after the others are charged as they arrive: a sector is
admitted while the class's counter at its meter is above zero (R169 to R171, R291, R293). -/
def State.admitSectors (s : State) (cls : Nat) (as : List Nat) : List Nat × State :=
  as.foldl (fun (acc : List Nat × State) a => match acc.2.meterOf a with
    | none => acc
    | some (res, inst) =>
      if acc.2.tollHeld cls res inst then (acc.1 ++ [a], acc.2.markHeld cls res)
      else (acc.1, acc.2.charge cls res inst 1)) ([], s)

/-- Sectors of a manifest's operation that a regulator still holds, if it has begun. -/
def State.owedOf (s : State) (d : Delivered) : Option (List Nat) := (s.owed.find? fun e => e.1 == d).map Prod.snd

def State.setOwed (s : State) (d : Delivered) (as : List Nat) : State :=
  let rest := s.owed.filter fun e => e.1 != d
  { s with owed := if as = [] then rest else rest ++ [(d, as)] }

/-- Move the sectors that an operation reads and writes through their meters and run it once none of them is held: its requests
wait at their source router while the class is held there, and those of a stack whose share is used up wait alone (R171, R293).  An
operation that writes a chunk which a snapshot has not saved waits for it (R324), and is complete only with its writes (R129).  The
data move with the last sector (DESIGN CHOICE, log entry 56). -/
def State.metered (s : State) (cls : Nat) (d : Delivered) (node : Nat) (reads writes : List Nat) (run : State → State) :
    State :=
  let go := fun (u : State) (secs : List Nat) =>
    let r := u.admitSectors cls secs
    let t := r.2.setOwed d r.1
    if r.1 = [] then run t else t
  let ahead := s.saveAhead writes
  if !ahead.1 then ahead.2
  else match s.owedOf d with
    | some secs => go s secs
    | none =>
      let flits := s.meshFlits node false reads + s.meshFlits node true writes
      if flits ≠ 0 ∧ s.tollHeld cls 3 node then s.markHeld cls 3 else go (s.chargeMesh cls node flits) (reads ++ writes)

/-- The meters that hold a class for a request, MESH at its source node first. -/
def State.heldMeter (s : State) (cls node flits : Nat) (secs : List Nat) : Option Nat :=
  if flits ≠ 0 ∧ s.tollHeld cls 3 node then some 3
  else secs.findSome? fun a => match s.meterOf a with
    | some (res, inst) => if s.tollHeld cls res inst then some res else none
    | none => none

/-- Admit a small request whole: charged and true, or held at a meter with nothing charged, and false. -/
def State.admitAll (s : State) (cls node flits : Nat) (secs : List Nat) : Bool × State :=
  match s.heldMeter cls node flits secs with
  | some res => (false, s.markHeld cls res)
  | none => (true, (s.chargeMesh cls node flits).chargeSectors cls secs)

/-- Write a record for a context (64 for none): its sectors are charged to a class, and while a regulator holds the class the write
stays queued there (R169, R171). -/
def State.recordWrite (s : State) (ctx cls a : Nat) (bs : List Byte) : State :=
  match s.heldMeter cls 27 0 (sectors a bs.length) with
  | some res => { s with queued := s.queued ++ [(ctx, cls, a, bs)] }.markHeld cls res
  | none => (s.chargeSectors cls (sectors a bs.length)).store a bs

/-- The regulators pass the queued writes of the classes they no longer hold (R171). -/
def State.drainQueued (s : State) : State :=
  s.queued.foldl (fun t q => t.recordWrite q.1 q.2.1 q.2.2.1 q.2.2.2) { s with queued := [] }

/-- The failed sectors of a read, as (address, cause). -/
def State.failures (s : State) (ue : List Nat) (f : Nat → Nat) (a n : Nat) : List (Nat × Nat) :=
  (sectors a n).filterMap fun x => (s.readCause ue (f (max x a))).map fun c => (f (max x a), c)

/-- Write bytes through a translation in pieces that end at 4 KiB boundaries: the failures as (address, length, cause)
and the state. -/
def State.writeThrough (s : State) (f : Nat → Nat) (a : Nat) (bs : List Byte) : List (Nat × Nat × Nat) × State :=
  (List.range (bs.length / 4096 + 2)).foldl (fun (acc : List (Nat × Nat × Nat) × State) i =>
    let lo := if i = 0 then a else (a / 4096 + i) * 4096
    let hi := min (a + bs.length) ((a / 4096 + i + 1) * 4096)
    if lo < hi then
      let piece := (bs.drop (lo - a)).take (hi - lo)
      let r := acc.2.memWrite 27 false (f lo) piece MemFx.clean
      if r.1 = 0 then (acc.1, r.2)
      else (acc.1 ++ [(f lo, hi - lo, match acc.2.region (f lo) with
        | .sram _ _ => 3
        | .hbm _ _ => 4
        | .bulk _ => 4
        | _ => 2)], r.2)
    else acc) ([], s)

/-! ### Tensor handles (R121) -/

structure Handle where
  addr    : Nat
  saddr   : Nat
  woff    : Nat
  swoff   : Nat
  tid     : Nat
  fmt     : Nat
  windows : Nat
  rank    : Nat
  slice   : Nat
  dims    : List Nat
  strides : List Nat
  sstride : Nat
  deriving DecidableEq, Repr, Inhabited

/-- Read a handle from its 64 bytes. -/
def Handle.ofBytes (bs : List Byte) : Handle :=
  let f := fun o n => leNat ((bs.drop o).take n)
  { addr := f 0 8, saddr := f 8 8, woff := f 16 4, swoff := f 20 4, tid := f 24 3, fmt := f 27 1, windows := f 28 1,
    rank := f 29 1, slice := f 30 1,
    dims := (List.range 4).map fun i => if i < f 29 1 then f (32 + 4 * i) 4 else 1
    strides := [f 48 4, f 52 4, f 56 4], sstride := f 60 4 }

/-- The 64 bytes of a handle. -/
def Handle.bytes (h : Handle) : List Byte :=
  leBytes 8 h.addr ++ leBytes 8 h.saddr ++ leBytes 4 h.woff ++ leBytes 4 h.swoff ++ leBytes 3 h.tid ++
    leBytes 1 h.fmt ++ leBytes 1 h.windows ++ leBytes 1 h.rank ++ leBytes 1 h.slice ++ [0] ++
    h.dims.flatMap (leBytes 4) ++ h.strides.flatMap (leBytes 4) ++ leBytes 4 h.sstride

def Handle.dim (h : Handle) (i : Nat) : Nat := h.dims.getD i 1
def Handle.stride (h : Handle) (i : Nat) : Nat := nth h.strides (i - 1)
def Handle.dwin (h : Handle) : Nat := h.windows % 8
def Handle.swin (h : Handle) : Nat := h.windows / 8 % 8
def Handle.sliceOn (h : Handle) : Bool := h.slice / 128 % 2 == 1
def Handle.sliceDim (h : Handle) : Nat := h.slice % 4

/-- Data offset of a row, from the tensor's first byte (R122). -/
def Handle.rowOff (h : Handle) (i : List Nat) : Nat :=
  64 * (nth i 0 * h.stride 1 + nth i 1 * h.stride 2 + nth i 2 * h.stride 3)

/-- Scale offset of a row (R122). -/
def Handle.scaleOff (h : Handle) (i : List Nat) : Nat :=
  h.sstride * (nth i 0 + h.dim 1 * (nth i 1 + h.dim 2 * nth i 2))

/-- Bytes of the elements of a row. -/
def Handle.rowBytes (h : Handle) : Nat := ceilDiv (h.dim 0 * fmtBits h.fmt) 8

/-- Blocks of a row (R45). -/
def Handle.rowBlocks (h : Handle) : Nat := ceilDiv (h.dim 0) 32

/-- The rows (i1, i2, i3) of a tensor in dense order. -/
def Handle.rows (h : Handle) : List (List Nat) :=
  (List.range (h.dim 3)).flatMap fun c => (List.range (h.dim 2)).flatMap fun b => (List.range (h.dim 1)).map fun a => [a, b, c]

/-- Elements of a tensor. -/
def Handle.size (h : Handle) : Nat := h.dim 0 * h.dim 1 * h.dim 2 * h.dim 3

/-- Data offset of the last element (R122). -/
def Handle.lastOff (h : Handle) : Nat :=
  if h.size = 0 then 0 else h.rowOff [h.dim 1 - 1, h.dim 2 - 1, h.dim 3 - 1] + (h.dim 0 - 1) * fmtBits h.fmt / 8

/-- A handle field is out of range (reason 4 of R143); `core` for a core operand. -/
def Handle.bad (h : Handle) (core : Bool) : Bool :=
  decide (4 < h.fmt) || h.rank == 0 || decide (4 < h.rank) || decide (64 ≤ h.windows) || h.slice / 4 % 32 != 0 ||
    (if core then decide (2 ^ 32 ≤ h.lastOff) else decide (2 ^ 64 ≤ h.addr + h.lastOff))

/-- The linear element index of element 0 of a row (R56). -/
def Handle.rowElem (h : Handle) (i : List Nat) : Nat :=
  h.dim 0 * (nth i 0 + h.dim 1 * (nth i 1 + h.dim 2 * nth i 2))

/-! ### Blocks of a tensor -/

/-- Code of element `j` of a row whose bytes are read by `rd` (R44). -/
def elemCode (rd : Nat → Byte) (fmt j : Nat) : Nat :=
  if fmt = 0 then (rd (j / 2)).toNat / (if j % 2 = 0 then 1 else 16) % 16
  else leNat ((List.range (fmtBits fmt / 8)).map fun i => rd (j * (fmtBits fmt / 8) + i))

/-- The bytes of a block of 32 codes (R44); missing elements are zero (R46). -/
def blockBytes (fmt : Nat) (ms : List Int) : List Byte :=
  let c := fun j => code (fmtBits fmt) (ms.getD j 0)
  if fmt = 0 then (List.range 16).map fun i => BitVec.ofNat 8 (c (2 * i) + 16 * c (2 * i + 1))
  else (List.range 32).flatMap fun j => leBytes (fmtBits fmt / 8) (c j)

/-- Block `b` of a row: `rd` reads the row's data bytes, `sc` its scale bytes.  Plain i32 has no exponent.  `plain` takes the
mantissas as plain integers (R237). -/
def readRowBlock (rd sc : Nat → Byte) (fmt dim0 b : Nat) (plain : Bool := false) : Block :=
  let n := min 32 (dim0 - 32 * b)
  let e := if fmt = 4 then 0 else signed 8 (sc b).toNat
  let mant := if plain then plainMant fmt else readMant fmt
  ⟨e, (List.range n).map fun j => if e = -128 then 0 else mant (elemCode rd fmt (32 * b + j))⟩

/-- What the read of a tensor gives: its rows of blocks, and the failed sectors. -/
structure TensorData where
  rows  : List (List Block)
  fails : List (Nat × Nat)
  deriving DecidableEq, Repr

/-- The bytes that writing one row stores. -/
def Handle.rowRanges (h : Handle) (i : List Nat) : List (Nat × Nat) :=
  (h.addr + h.rowOff i, h.rowBlocks * 4 * fmtBits h.fmt) :: (if h.fmt = 4 then [] else [(h.saddr + h.scaleOff i, h.rowBlocks)])

/-- The byte ranges of a tensor's rows, data and scales, for a unit outside the cores. -/
def Handle.ranges (h : Handle) (write : Bool) : List (Nat × Nat) :=
  (h.rows.map fun i => (h.addr + h.rowOff i, if write then h.rowBlocks * 4 * fmtBits h.fmt else h.rowBytes)) ++
    (if h.fmt = 4 then [] else h.rows.map fun i => (h.saddr + h.scaleOff i, h.rowBlocks))

/-- Read a tensor by handle; `xl` translates each range.  A block whose data or scale byte lies in a failed sector is
poisoned (R285). -/
def State.readTensor (s : State) (xl : Nat → Nat → Nat → Nat) (ue : List Nat) (h : Handle) (plain : Bool := false) :
    TensorData :=
  let rows := h.rows.map fun i =>
    let a := h.addr + h.rowOff i
    let c := h.saddr + h.scaleOff i
    let fa := xl a h.rowBytes
    let fc := xl c h.rowBlocks
    (List.range h.rowBlocks).map fun b =>
      let lo := b * 4 * fmtBits h.fmt
      let hi := min h.rowBytes (lo + 4 * fmtBits h.fmt)
      let failed := (s.failures ue fa (a + lo) (hi - lo)) ++ (if h.fmt = 4 then [] else s.failures ue fc (c + b) 1)
      let blk := readRowBlock (fun o => s.readByte ue (fa (a + o))) (fun o => s.readByte ue (fc (c + o))) h.fmt (h.dim 0) b plain
      (if h.fmt ≠ 4 ∧ failed ≠ [] then Block.poison blk.m.length else blk, failed)
  { rows := rows.map fun r => r.map Prod.fst, fails := (rows.flatMap fun r => r.flatMap Prod.snd).dedup }

/-- What the read of [a, a + n) through a translation counts and records. -/
def State.noteRange (s : State) (f : Nat → Nat) (a n : Nat) : State :=
  s.noteReads [] ((sectors a n).map fun x => f (max x a))

/-- Translation of a range under the windows a manifest issued with (R279); physical where none answers (callers check first).
DESIGN CHOICE, log entry 66. -/
def State.xlate (s : State) (d : Delivered) (perm : Perm) (a n : Nat) : Nat → Nat := (s.segIn d.wins perm a n).getD id

/-- Every range passes the windows a manifest issued with (R276, R279, R309). -/
def State.segsOf (s : State) (d : Delivered) (perm : Perm) (rs : List (Nat × Nat)) : Bool :=
  rs.all fun r => (s.segIn d.wins perm r.1 r.2).isSome

/-- Bytes to store at an address: where an earlier part of the same output, among the ranges `prior`, has stored a byte, that
byte is the old or the new one, and nothing says which (R507). -/
def State.mixBytes (s : State) (prior : List (Nat × Nat)) (f : Nat → Nat) (a : Nat) (bs : List Byte) : List Byte × State :=
  if prior.any fun r => decide (r.1 < a + bs.length) && decide (a < r.1 + r.2) then
    ((List.range bs.length).zip bs).foldl (fun (acc : List Byte × State) ib =>
      let x := a + ib.1
      if prior.any fun r => decide (r.1 ≤ x) && decide (x < r.1 + r.2) then
        (acc.1 ++ [if Config.freeNat acc.2.free % 2 = 0 then acc.2.byte (acc.2.phys (f x)) else ib.2],
          { acc.2 with free := acc.2.free + 1 })
      else (acc.1 ++ [ib.2], acc.2)) ([], s)
  else (bs, s)

/-- Write rows of blocks through a handle: the failures and the state. DEDUCED, log entry 55. -/
def State.writeTensor (s : State) (xl : Nat → Nat → Nat → Nat) (h : Handle) (rows : List (List Block)) :
    List (Nat × Nat × Nat) × State :=
  let r := (h.rows.zip rows).foldl (fun (acc : List (Nat × Nat) × List (Nat × Nat × Nat) × State) r =>
    let a := h.addr + h.rowOff r.1
    let c := h.saddr + h.scaleOff r.1
    let data := r.2.flatMap fun b => blockBytes h.fmt b.m
    let x1 := acc.2.2.mixBytes acc.1 (xl a data.length) a data
    let w1 := x1.2.writeThrough (xl a data.length) a x1.1
    if h.fmt = 4 then (acc.1 ++ [(a, data.length)], acc.2.1 ++ w1.1, w1.2)
    else
      let sc := r.2.map fun b => BitVec.ofNat 8 (code 8 b.e)
      let x2 := w1.2.mixBytes acc.1 (xl c sc.length) c sc
      let w2 := x2.2.writeThrough (xl c sc.length) c x2.1
      (acc.1 ++ [(a, data.length), (c, sc.length)], acc.2.1 ++ w1.1 ++ w2.1, w2.2)) ([], [], s)
  r.2

/-- All sectors a tensor's ranges touch, translated. -/
def Handle.sectorList (h : Handle) (xl : Nat → Nat → Nat → Nat) (write : Bool) : List Nat :=
  (h.ranges write).flatMap fun r => (sectors r.1 r.2).map fun x => xl r.1 r.2 (max x r.1)

/-- Bytes at an address through windows; none where they refuse the range. -/
def State.winBytes (s : State) (wins : List SegWin) (a n : Nat) : Option (List Byte) :=
  (s.segIn wins .r a n).map fun f => (List.range n).map fun i => s.readByte [] (f (a + i))

/-- Bytes at an address through the context's windows as they stand. -/
def State.ctxBytes (s : State) (ctx a n : Nat) : Option (List Byte) := s.winBytes (s.segWins ctx) a n

/-- The handle at an address, through the context's windows as they stand. -/
def State.handleAt (s : State) (ctx a : Nat) : Option Handle := (s.ctxBytes ctx a 64).map Handle.ofBytes

/-- A handle operand of an issued manifest, through the windows it issued with (R279). -/
def State.handleOf (s : State) (d : Delivered) (a : Nat) : Option Handle := (s.winBytes d.wins a 64).map Handle.ofBytes

/-- The failed parts of a structure that a manifest names, `n` bytes at an address, as its issue's windows translate it (R285,
R408). -/
def State.structFails (s : State) (d : Delivered) (a n : Nat) : List (Nat × Nat) :=
  match s.segIn d.wins .r a n with
  | some f => s.failures [] f a n
  | none => []

/-- A unit reads a structure that a manifest names: the sectors are charged to its class, the requests as MESH at the unit's node,
and what the read counts and records is noted (R169, R268, R273, R285, R298). -/
def State.noteStruct (s : State) (d : Delivered) (node a n : Nat) : State :=
  match s.segIn d.wins .r a n with
  | some f =>
    let secs := (sectors a n).map fun x => f (max x a)
    ((s.chargeMesh (s.classOf d.ctx) node (s.meshFlits node false secs)).chargeSectors (s.classOf d.ctx) secs).noteReads [] secs
  | none => s

end Sys2Proof.Machine
end

