-- ==== Sys2Proof/Machine/Bollards.lean ====
section
/-! DEFINITION. Bollards, tickets, waiters and the streams' heads (R127, R134 to R139, R146). -/

namespace Sys2Proof.Machine

/-! ### The head of a stream -/

/-- STR register fields of a stream. -/
def State.str (s : State) (f : FieldRef) (id : Nat) : Nat := s.rd f (id / 16) (id % 16)

def State.strWr (s : State) (f : FieldRef) (id v : Nat) : State := s.wr f (id / 16) (id % 16) v

/-- Context of a stream. -/
def State.strCtx (s : State) (id : Nat) : Nat := s.str F.STR_CFG_CTX id

/-- The head's enabled waits, words that name a hole left out (reason 5 of R143). -/
def State.headWaits (s : State) (d : Decoded) : List Nat :=
  (List.range 4).filter fun i => wordEnable (mWait d.words i) && !s.idHole (wordBollard (mWait d.words i))

/-- A STOP or CANCEL is still taking effect (R132). -/
def Stream.ending (st : Stream) : Bool := st.stopping || st.cancelling

/-- The next manifest of the stream is one of a list, not decoded yet (R119). -/
def Stream.listNext (st : Stream) : Bool := match st.lists with
  | l :: _ => l.ahead == 0
  | [] => false

/-- A decoded manifest stands behind a list that is being walked or behind a bubble fill (R119, R217). -/
def Stream.behind (st : Stream) (d : Decoded) : Bool :=
  (decide (d.place < 3) && (st.walking || st.parked.isSome)) || st.listNext

/-- The head that a bubble fill runs ahead of (R217). -/
def Stream.parkedHead (st : Stream) : Option Decoded := st.store.find? fun d => decide (d.place < 3)

/-- The head's waits that are not met, as a mask. -/
def State.unmet (s : State) (st : Stream) : Nat :=
  match st.store with
  | [] => 0
  | d :: _ => if st.behind d then 0 else if st.registered then maskOf ((s.headWaits d).filter fun i => st.met / 2 ^ i % 2 == 0) else 0

/-- The unmet waits that STR_STATUS shows: while a bubble fill runs, those of the head it runs ahead of (R152, R217). -/
def State.shownWaits (s : State) (st : Stream) : Nat :=
  match st.parked, st.parkedHead with
  | some p, some d => maskOf ((s.headWaits d).filter fun i => p.met / 2 ^ i % 2 == 0)
  | _, _ => s.unmet st

/-- The head is before its NOT_BEFORE, by the site's tide, and has not been released (R175). -/
def State.beforeNB (s : State) (id : Nat) : Bool :=
  match (s.stream id).store with
  | [] => false
  | d :: _ => mNotBefore d.words != 0 && !(s.stream id).nbReleased && decide (s.siteNow (id / 256) < mNotBefore d.words)

/-- Ring entries a QUEUE stream may still fetch; a REPLAY stream's ring never ends at a tail (R124). -/
def State.tailEmpty (s : State) (id : Nat) (st : Stream) : Bool :=
  s.str F.STR_CFG_MODE id == 1 && st.decIdx == s.str F.STR_TAIL_TAIL id

/-- The stream waits: on a bollard, NOT_BEFORE, the gate or the tail (R131). -/
def State.blocked (s : State) (id : Nat) : Bool :=
  let st := s.stream id
  match st.store with
  | [] => !st.walking && st.lists.isEmpty && ((st.gateReg && !st.gateMet) || s.tailEmpty id st)
  | d :: _ => (decide (d.place < 3) && st.parked.isSome) || s.unmet st != 0 || (!st.behind d && s.beforeNB id)

/-- Show WAITING or RUNNING as the head's conditions stand; HELD is set where a toll holds it.  A stream whose STOP or CANCEL is
taking effect keeps the state it shows (R145). -/
def State.refresh (s : State) (id : Nat) : State :=
  let st := s.stream id
  if (st.st = .running ∨ st.st = .waiting ∨ st.st = .held) ∧ !st.ending then
    let b := s.blocked id
    s.setStream id { st with
      st := if b then .waiting else if st.st = .held then .held else .running
      waitSince := if b ∧ st.st ≠ .waiting then s.siteNow (id / 256) else st.waitSince }
  else s

/-! ### Waiters -/

/-- An arrival at a wait falls in its deadline's tick, the first in which the site's tide has reached it (R177, R178). -/
def State.lateArrival (s : State) (id slot : Nat) : Bool :=
  let st := s.stream id
  let late := fun (d : Option Decoded) (i : Nat) (ignored : Bool) => match d with
    | some d => waitBounded (mWait d.words i) && mDeadline d.words != 0 && s.tide.reached (id / 256) (mDeadline d.words) && !ignored
    | none => false
  if slot = 4 then false
  else if 8 ≤ slot then late st.parkedHead (slot - 8) ((st.parked.map (·.dlIgnored)).getD false)
  else late st.store.head? slot st.dlIgnored

/-- A wait is seen met: slot 0–3 a wait of the head, 4 the gate, 8–11 a wait of a parked head. -/
def State.meet (s : State) (id slot : Nat) (err late : Bool) : State :=
  let st := s.stream id
  if slot = 4 then (s.setStream id { st with gateMet := true }).refresh id
  else if 8 ≤ slot then
    s.setStream id { st with parked := st.parked.map fun p => { p with
      met := maskOf (setBitsOf p.met 4 ++ [slot - 8]), headErr := p.headErr || err, headLate := p.headLate || late } }
  else
    (s.setStream id { st with
      met := maskOf (setBitsOf st.met 4 ++ [slot]), headErr := st.headErr || err, headLate := st.headLate || late
      metAt := st.metAt ++ [(slot, st.waitSince, s.siteNow (id / 256))] }).refresh id

/-- A signal, ticket or host write of a bollard releases every registered waiter whose target the count has reached (R10, R135); a
poll is met as well, and its pilot sees that when it next reads the bollard (R137). -/
def State.release (s : State) (b : Nat) (err : Bool) : State :=
  let c := (s.bollard b).count.toNat
  let hit := fun (w : Waiter) => w.bollard == b && !w.hit && atOrAfter 32 c w.target
  let ws := s.waiters.filter fun w => hit w && !w.poll
  let polls := (s.waiters.filter fun w => w.poll || !hit w).map fun w =>
    if hit w then { w with hit := true, err := err, late := s.lateArrival w.stream w.slot } else w
  ws.foldl (fun t w => t.meet w.stream w.slot err (t.lateArrival w.stream w.slot)) { s with waiters := polls }

/-- Register a wait of a stream; one already reached is met at once.  Another context's bollard is a segment violation
and registers nothing (R139). DEDUCED, log entry 64. -/
def State.registerWait (s : State) (id slot b target ctx manifest : Nat) : State :=
  if (s.bollard b).owner ≠ ctx then s.segViolation ctx 0x04 (b / 256) b manifest
  else if atOrAfter 32 (s.bollard b).count.toNat target then s.meet id slot false false
  else if s.poolUsed (pilotOf (b / 256)) < 2048 then
    { s with waiters := s.waiters ++ [Waiter.mk b target id slot false false false false] }
  else
    ({ s with waiters := s.waiters ++ [Waiter.mk b target id slot true false false false] }.event 0x02 (pilotOf (b / 256)) 0).bump
      F.PIL_POLLED_COUNT (pilotOf (id / 256))

/-- Free every waiter of a stream (R146). -/
def State.freeWaiters (s : State) (id : Nat) : State :=
  { s with waiters := s.waiters.filter fun w => w.stream != id }

/-- A manifest that has become the head registers its waits (R134). -/
def State.registerHead (s : State) (id : Nat) : State :=
  let st := s.stream id
  match st.store with
  | [] => s.refresh id
  | d :: _ =>
    if st.registered ∨ st.behind d ∨ st.ending ∨ !(st.st = .running ∨ st.st = .waiting ∨ st.st = .held) then s
    else
      let s1 := s.setStream id { st with registered := true, met := 0, headErr := false, headLate := false,
                                         dlIgnored := false, dlRaised := false, nbReleased := false, metAt := [],
                                         waitSince := s.siteNow (id / 256) }
      let s2 := (s.headWaits d).foldl (fun t i =>
        t.registerWait id i (wordBollard (mWait d.words i)) (wordValue (mWait d.words i)) (s.strCtx id) d.addr) s1
      s2.refresh id

/-! ### Signals and tickets -/

/-- Apply a signal that passed its checks (R135): count, release, and ERR where it carries it (R138, R144). -/
def State.applySignal (s : State) (b inc : Nat) (err : Bool) : State :=
  let x := s.bollard b
  let s1 := s.setBollard b { x with count := x.count + BitVec.ofNat 32 inc, err := x.err || err }
  let s2 := s1.bump F.BOL_SIGNALS_COUNT (b / 256)
  s2.release b err

/-- The overflow fault of a signal of 2³¹ or more (R135). -/
def State.overflow (s : State) (b ctx manifest : Nat) : State :=
  let site := b / 256
  let s1 := s.event 0x04 site 0
  let s2 := if s.rd F.BOL_LAST_OVF_VALID site = 1 then s1
    else ((s1.wr F.BOL_LAST_OVF_BOLLARD site 0 (b % 256)).wr F.BOL_LAST_OVF_CTX site 0 ctx).wr F.BOL_LAST_OVF_VALID site 0 1
  s2.raise ctx 2 0x04 site b manifest

/-- A signal of a context to a bollard (R135, R139).  A signal of 2³¹ or more to another context's bollard raises the segment
violation only: the model's choice, no rule says which of the two comes first (DESIGN CHOICE, log entry 146). -/
def State.signal (s : State) (ctx b inc : Nat) (err : Bool) (manifest : Nat) : State :=
  if s.idHole b then s
  else if (s.bollard b).owner ≠ ctx then s.segViolation ctx 0x04 (b / 256) b manifest
  else if 2 ^ 31 ≤ inc then s.overflow b ctx manifest
  else s.applySignal b inc err

/-- Fields of a ticket (R138). -/
def tktBollard (t : Word) : Nat := bits t 0 14
def tktValid (t : Word) : Bool := bit t 14
def tktError (t : Word) : Bool := bit t 15
def tktInc (t : Word) : Nat := if bits t 16 16 = 0 then 1 else bits t 16 16
def tktGen (t : Word) : Nat := bits t 32 12
def tktCtx (t : Word) : Nat := bits t 44 6

/-- A ticket of a context with its current tag. -/
def mkTicket (b inc ctx gen : Nat) (err : Bool) : Word :=
  BitVec.ofNat 64 (b % 2 ^ 14 + 2 ^ 14 + err.toNat * 2 ^ 15 + inc % 2 ^ 16 * 2 ^ 16 + gen % 2 ^ 12 * 2 ^ 32 +
    ctx % 64 * 2 ^ 44)

/-- Apply a ticket (R138, R139): a stale one is dropped before its owner is looked at. -/
def State.ticket (s : State) (t : Word) : State :=
  let b := tktBollard t
  let ctx := tktCtx t
  if !tktValid t ∨ s.idHole b then s
  else if tktGen t ≠ s.gen ctx then
    ((s.bump F.BOL_DROP_COUNT (b / 256)).event 0x04 (b / 256) 2).stale ctx
  else if (s.bollard b).owner ≠ ctx then s.segViolation ctx 0x04 (b / 256) b 0
  else (if tktError t then s.event 0x04 (b / 256) 1 else s).applySignal b (tktInc t) (tktError t)

/-! ### The commands -/

/-- A host write of BOL_COUNT (R136, R154): count and owner are set, ERR is cleared by a 1, and every waiter reached is
released. -/
def State.bollardSet (s : State) (b : Nat) (v : Word) : State :=
  let x := s.bollard b
  (s.setBollard b { count := BitVec.ofNat 32 (bits v 0 32), owner := bits v 32 6, err := x.err && !bit v 38 }).release b false

/-- BOLLARD_WRITE: the write, then a signal of the same clock as (context, increment). -/
def execBollardWrite (bollard : Nat) (v : Word) (signalSame : Option (Nat × Nat)) (s : State) :
    Host.Outcome State Fault Refusal :=
  s.act (if s.idHole bollard then s else
    let s1 := s.bollardSet bollard v
    match signalSame with
    | some (ctx, inc) => s1.signal ctx bollard inc false 0
    | none => s1)

/-- BOLLARD_POLL: a wait registered as a poll reads its bollard (R137).  A target once reached is seen met, even where the count has
been written down since. -/
def State.poll (s : State) (id slot : Nat) : State :=
  match s.waiters.find? fun w => w.poll && w.stream == id && w.slot == slot with
  | none => s
  | some w =>
    if w.hit ∨ atOrAfter 32 (s.bollard w.bollard).count.toNat w.target then
      { s with waiters := s.waiters.filter fun x => !(x.poll && x.stream == id && x.slot == slot) }.meet id slot w.err w.late
    else s

def execBollardPoll (stream slot : Nat) (s : State) : Host.Outcome State Fault Refusal := s.act (s.poll stream slot)

/-- The response to a request packet, put into the mesh at the target's node (R24, R28). -/
def responseOf (p : Packet) (status : Nat) (data : List Byte) : Packet :=
  let small := decide (data.length ≤ 448)
  { p with
    dest := p.src, src := p.dest, vc := 2, escape := false, op := 5, ticket := 0, status := status
    len := if small then 0 else ceilDiv data.length 512
    inlineLen := if small then data.length else 0
    inl := if small then data else []
    data := if small then [] else data }

def State.respond (s : State) (p : Packet) (status : Nat) (data : List Byte) : State :=
  { s with net := s.net ++ [(p.dest, responseOf p status data)] }

/-- The target takes a packet out of the mesh. -/
def State.takePacket (s : State) (p : Packet) : State :=
  { s with net := s.net.eraseP fun (e : Nat × Packet) => e.2 == p }

/-- MESH_SIGNAL (R24, R138, R400): a signal packet's ticket is applied at its bollard; a stale request is answered with
STATUS 3 and dropped. -/
def State.meshSignal (s : State) (p : Packet) : State :=
  if p.gen ≠ s.gen p.ctx then
    let s1 := s.stale p.ctx
    let b := tktBollard p.ticket
    let s2 := if tktValid p.ticket ∧ tktGen p.ticket ≠ s.gen (tktCtx p.ticket) then
        (s1.bump F.BOL_DROP_COUNT (b / 256)).event 0x04 (b / 256) 2 else s1
    s2.respond p 3 []
  else (s.ticket p.ticket).respond p 0 []

def execMeshSignal (p : Packet) (s : State) : Host.Outcome State Fault Refusal := s.act ((s.takePacket p).meshSignal p)

end Sys2Proof.Machine
end

