-- ==== Sys2Proof/Machine/Links.lean ====
section
/-! DEFINITION. What every sender on a Verath port uses (R343 to R346, R364, R365): flits, messages, routes and the
ferry header (R190). -/

namespace Sys2Proof.Machine

/-- This module's node ID. -/
def State.ownNode (s : State) : Nat := s.rd F.VPT_NODE_NODE 48

/-- The output bond that a port's route table gives a destination (R364). -/
def State.route (s : State) (port dest : Nat) : Option (List Nat) :=
  ((List.range 64).find? fun i =>
    s.rd F.VPT_ROUTE_KEY_VALID port i == 1 &&
      (dest &&& s.rd F.VPT_ROUTE_KEY_MASK port i) == (s.rd F.VPT_ROUTE_KEY_NODE port i &&& s.rd F.VPT_ROUTE_KEY_MASK port i)).map
    fun i => setBitsOf (s.rd F.VPT_ROUTE_OUT_PORTS port i) 48

/-- A drop by R365. -/
def State.noRoute (s : State) (port : Nat) : State := (s.bump F.VPT_NOROUTE_COUNT port).event 0x14 port 6

/-- A port that can take flits for sending: UP, or PAUSED for a change. -/
def State.portOpen (s : State) (p : Nat) : Bool := (s.port p).st == .up || (s.port p).st == .paused

/-- A flit that has not been sent: link fields are filled at its transmission. -/
def newFlit (type vc chan : Nat) (last : Bool) (payload : List Byte) : Flit :=
  { type := type, vc := vc, last := last, chan := chan, seq := 0, ack := 0, ackv := false, nak := false, cvc := 0,
    credits := 0, payload := payload ++ List.replicate (240 - payload.length) (0 : Byte) }

/-- Queue a flit for its first transmission; a port that cannot send discards it. -/
def State.queueFlit (s : State) (p : Nat) (f : Flit) : State :=
  if s.portOpen p then s.setPort p { s.port p with txQueue := (s.port p).txQueue ++ [f] } else s

/-- Message kinds (R345). -/
def msgCredit : Nat := 0
def msgVeto : Nat := 1
def msgAbort : Nat := 2
def msgProbe : Nat := 3
def msgRecord : Nat := 4
def msgDone : Nat := 5
def msgDecline : Nat := 6
def msgChange : Nat := 7

/-- RECORD and DONE travel on the response VC, the others on the control VC. -/
def msgVc (kind : Nat) : Nat := if kind = 4 ∨ kind = 5 then 2 else 0

/-- The payload of a message flit. -/
def msgPayload (dest src kind ttl : Nat) (body : List Byte) : List Byte :=
  leBytes 2 dest ++ leBytes 2 src ++ leBytes 1 kind ++ leBytes 1 ttl ++ leBytes 2 body.length ++ body

/-- Send a link-local message on a port. -/
def State.sendLocal (s : State) (p kind : Nat) (body : List Byte) : State :=
  s.queueFlit p (newFlit 4 (msgVc kind) 0 false (msgPayload 0xFFFF s.ownNode kind (s.rd F.VPT_TRANSIT_TTL 48) body))

/-- Send a message of this module to a node, by the route table of a port (R364). -/
def State.sendMsg (s : State) (port dest kind : Nat) (body : List Byte) : State :=
  match s.route port dest with
  | some (q :: _) =>
    s.queueFlit q (newFlit 4 (msgVc kind) 0 false (msgPayload dest s.ownNode kind (s.rd F.VPT_TRANSIT_TTL 48) body))
  | _ => s.noRoute port

/-- The 64 bytes of a ferry header (R190). -/
def hdrBytes (h : FerryHdr) : List Byte :=
  leBytes 2 h.destNode ++ leBytes 2 h.srcNode ++ leBytes 1 h.ferry ++ leBytes 1 h.landing ++ leBytes 1 h.slot ++
    leBytes 1 h.kind ++ leBytes 2 h.xferSeq ++ leBytes 2 h.srcStage ++ leBytes 2 h.destStage ++ leBytes 1 h.ports ++
    leBytes 1 h.format ++ leBytes 3 h.microBatch ++ leBytes 1 h.rank ++ leBytes 2 h.version ++ leBytes 2 h.rgen ++
    leBytes 8 h.ticket.toNat ++ leBytes 3 h.tensorId ++ [0] ++ leBytes 4 h.dataBytes ++ leBytes 4 h.scaleBytes ++
    leBytes 4 0 ++ h.dims.flatMap (leBytes 4)

/-- Read a ferry header from its bytes. -/
def hdrOfBytes (bs : List Byte) : FerryHdr :=
  let f := fun o n => leNat ((bs.drop o).take n)
  { destNode := f 0 2, srcNode := f 2 2, ferry := f 4 1, landing := f 5 1, slot := f 6 1, kind := f 7 1 % 4,
    xferSeq := f 8 2, srcStage := f 10 2 % 4096, destStage := f 12 2 % 4096, ports := f 14 1, format := f 15 1,
    microBatch := f 16 3, rank := f 19 1, version := f 20 2, rgen := f 22 2 % 4096, ticket := BitVec.ofNat 64 (f 24 8),
    tensorId := f 32 3, dataBytes := f 36 4, scaleBytes := f 40 4, dims := [f 48 4, f 52 4, f 56 4, f 60 4] }

end Sys2Proof.Machine
end

