-- ==== Sys2Proof/Machine/Census.lean ====
section
/-! DEFINITION. The census (R367 to R370, R372): probes, records, completion, restarts. -/

namespace Sys2Proof.Machine

/-- UP Verath-2 ports, ascending. -/
def State.censusPorts (s : State) : List Nat :=
  (List.range 48).filter fun p => (s.port p).st == .up && !(s.port p).v1

def State.sendProbes (s : State) (ps : List Nat) (e : Nat) : State :=
  ps.foldl (fun t p => t.sendLocal p msgProbe (leBytes 4 e)) s

/-- Code of a port state (R355). -/
def PortSt.code : PortSt → Nat
  | .disabled => 0 | .training => 1 | .up => 2 | .paused => 3 | .down => 4

/-- The port entry of a RECORD (R368). -/
def State.censusEntry (s : State) (p : Nat) : Nat :=
  let x := s.port p
  let partner := match x.initGot with
    | some m => m.serial % 2 ^ 48 + m.port % 256 * 2 ^ 48
    | none => 0
  partner + x.st.code * 2 ^ 56 + s.rd F.VPT_CFG_ROLE p * 2 ^ 59 + x.v1.toNat * 2 ^ 62

/-- This module's RECORD. -/
def State.ownRecord (s : State) : List Byte :=
  leBytes 8 s.fuses.serial ++ leBytes 2 s.ownNode ++ leBytes 1 s.census.parent ++ leBytes 1 s.census.root.toNat ++
    leBytes 4 s.census.epoch ++ (List.range 48).flatMap fun p => leBytes 8 (s.censusEntry p)

/-- Send a RECORD to the parent, in two messages of 200 body bytes. -/
def State.sendRecord (s : State) (bytes : List Byte) : State :=
  let p := s.census.parent
  (s.sendLocal p msgRecord (bytes.take 200)).sendLocal p msgRecord (bytes.drop 200)

def State.sendDone (s : State) (e n : Nat) : State := s.sendLocal s.census.parent msgDone (leBytes 4 e ++ leBytes 4 n)

/-- The root writes a record into the next slot of its buffer; records beyond the buffer are not written.  The write is charged to
class 63 (R168). -/
def State.storeRecord (s : State) (bytes : List Byte) : State :=
  let c := s.census
  let s1 := { s with census := { c with slots := c.slots + 1 } }
  if s.rd F.VPT_CENSUS_LEN_SLOTS 48 ≤ c.slots then s1
  else s1.recordWrite 64 63 (s.rd F.VPT_CENSUS_BUF_ADDR 48 * 512 + 512 * c.slots) (bytes.take 512)

/-- Publish when every probe is answered: the root ends the census, another module sends its DONE (R367, R370). -/
def State.censusCheck (s : State) : State :=
  let c := s.census
  if c.st ≠ .running ∨ c.waiting ≠ [] ∨ c.doneSent then s
  else if c.root then { s with census := { c with st := .done, count := c.total % 2 ^ 16 } }.event 0x14 48 0
  else { s.sendDone c.epoch c.total with census := { c with doneSent := true } }

/-- Start a census as root. -/
def State.censusBegin (s : State) (restarts : Nat) : State :=
  let e := (s.census.epoch + 1) % 2 ^ 32
  let ps := s.censusPorts
  let s1 := { s with census := { st := .running, epoch := e, root := true, parent := 0, waiting := ps, total := 1,
                                 restarts := restarts, count := s.census.count, slots := 0, doneSent := false } }
  ((s1.storeRecord s1.ownRecord).sendProbes ps e).censusCheck

/-- CENSUS_START. -/
def execCensusStart (s : State) : Host.Outcome State Fault Refusal := s.act (s.censusBegin 0)

/-- The root, still RUNNING, restarts; after MAX_RESTARTS restarts the census fails instead (R369, R370). -/
def State.censusRestart (s : State) : State :=
  let c := s.census
  if s.rd F.VPT_CENSUS_CFG_MAX_RESTARTS 48 ≤ c.restarts then
    { s with census := { c with st := .failed } }.event 0x14 48 1
  else (s.censusBegin (c.restarts + 1)).event 0x14 48 1

/-- A change that the root learns of (R369). -/
def State.rootChange (s : State) : State :=
  match s.census.st with
  | .running => s.censusRestart
  | .idle => s
  | _ => s.event 0x14 48 2

/-- A port of this module changes state. -/
def State.portChanged (s : State) : State :=
  if s.census.root then s.rootChange
  else if s.census.st = .running then s.sendLocal s.census.parent msgChange (leBytes 4 s.census.epoch)
  else s

/-- PROBE. -/
def State.probe (s : State) (p e : Nat) : State :=
  let c := s.census
  if !s.portOpen p ∨ (s.port p).v1 then s
  else if e = c.epoch then s.sendLocal p msgDecline (leBytes 4 e)
  else if atOrAfter 32 e c.epoch then
    let ps := s.censusPorts.filter (· != p)
    let s1 := { s with census := { st := .running, epoch := e, root := false, parent := p, waiting := ps, total := 1,
                                   restarts := 0, count := c.count, slots := 0, doneSent := false } }
    let s2 := s1.sendProbes ps e
    (s2.sendRecord s2.ownRecord).censusCheck
  else s

def execProbe (port epoch : Nat) (s : State) : Host.Outcome State Fault Refusal :=
  s.act (if port < 48 then s.probe port (epoch % 2 ^ 32) else s)

/-- A probe on a port has been answered. -/
def State.answered (s : State) (p n : Nat) : State :=
  let c := s.census
  if c.waiting.contains p then
    { s with census := { c with waiting := c.waiting.erase p, total := c.total + n } }.censusCheck
  else s

/-- DECLINE. -/
def execDecline (port epoch : Nat) (s : State) : Host.Outcome State Fault Refusal :=
  s.act (if epoch = s.census.epoch then s.answered port 0 else s)

/-- RECORD: relayed to the parent; the root stores those of its current epoch. -/
def execRecord (_port epoch : Nat) (bytes : List Byte) (s : State) : Host.Outcome State Fault Refusal :=
  s.act (if s.census.root then
      (if epoch = s.census.epoch ∧ s.census.st = .running then s.storeRecord bytes else s)
    else if s.census.st = .running then s.sendRecord bytes else s)

/-- DONE: relayed to the parent; a partner's own (`direct`) answers the probe.  A CHANGE in the tick of the root's last
DONE wins: the census does not end, and the CHANGE finds it running. DEDUCED, log entry 100. -/
def State.censusDone (s : State) (p e n : Nat) (direct changeSame : Bool) : State :=
  let s1 := if !s.census.root && s.census.st == .running then s.sendDone e n else s
  if e ≠ s.census.epoch ∨ !direct then s1
  else if s.census.root ∧ changeSame ∧ s.census.waiting = [p] then s1
  else s1.answered p n

def execDone (port epoch n : Nat) (direct changeSame : Bool) (s : State) : Host.Outcome State Fault Refusal :=
  s.act (s.censusDone port epoch n direct changeSame)

/-- CHANGE: relayed toward the root, which restarts its running census. -/
def State.change (s : State) (e : Nat) : State :=
  if !s.census.root then
    (if s.census.st = .running then s.sendLocal s.census.parent msgChange (leBytes 4 e) else s)
  else if e = s.census.epoch then s.rootChange
  else s.event 0x14 48 2

def execChange (_port epoch : Nat) (s : State) : Host.Outcome State Fault Refusal := s.act (s.change epoch)

/-- CENSUS_TIMEOUT: a result in the deadline's tick wins (R177). -/
def execCensusTimeout (resultSame : Bool) (s : State) : Host.Outcome State Fault Refusal :=
  s.act (if s.census.root ∧ s.census.st = .running ∧ !resultSame then
    { s with census := { s.census with st := .failed } }.event 0x14 48 1 else s)

end Sys2Proof.Machine
end

