-- ==== Sys2Proof/Machine/Directory.lean ====
section
/-! DEFINITION. The directory of the coherent lines (R379, R388 to R390, R394).  A line is named by its address ÷ 64;
requesters are harts 0–95 and the accelerator port, 96.  The system cache and the directory buffer are one with memory
(DESIGN CHOICE, log entry 35). -/

namespace Sys2Proof.Machine

/-- A requester may hold a writable or dirty copy. -/
def Line.held (l : Line) : Bool := l.st == .modified || l.st == .owned || l.st == .exclusive

/-- A dirty line is held in the die. -/
def State.dieDirty (s : State) (d : Nat) : Bool :=
  s.lines.any fun (e : Nat × Line) => (e.2.st == .modified || e.2.st == .owned) && decide (e.2.owner < 96) && e.2.owner / 24 == d

/-- Activity class of a processor die's memory traffic (R377). -/
def State.dieClass (s : State) (core : Nat) : Nat := s.rd F.CPX_CLASS_CLASS (core / 24)

/-- Charge a core's access to one line: the request flit at its die's node and the sector (R169, R377). -/
def State.chargeLine (s : State) (core line : Nat) (write : Bool) : State :=
  if core < 96 then
    let n := dieSite (core / 24)
    (s.chargeMesh (s.dieClass core) n (s.meshFlits n write [64 * line])).chargeSectors (s.dieClass core) [64 * line]
  else s

/-- The data of a line that holders give up, where it is dirty. -/
def State.lineData (s : State) (dirty : List (Nat × List Byte)) (line : Nat) : State :=
  match dirty.find? fun (d : Nat × List Byte) => d.1 == line with
  | some d => (s.chargeLine (s.line line).owner line true).store (64 * line) (d.2.take 64)
  | none => s

/-- The slice of a line, and its pointer. -/
def State.slicePtr (s : State) (line : Nat) : Nat := Sparse.get (fun _ => 0) s.slices (line % 4)

/-- Rank of a requester against a pointer. -/
def rankFrom (ptr r : Nat) : Nat := (r + 97 - ptr % 97) % 97

/-- Insert a requester by rank. -/
def insertRank (ptr r : Nat) : List Nat → List Nat
  | [] => [r]
  | q :: qs => if rankFrom ptr r < rankFrom ptr q then r :: q :: qs else q :: insertRank ptr r qs

/-- Requesters in the order of grants. -/
def grantOrder (ptr : Nat) (rs : List Nat) : List Nat := rs.foldr (insertRank ptr) []

/-- Consecutive pairs. -/
def pairs (rs : List Nat) : List (Nat × Nat) := rs.zip (rs.drop 1)

/-- Grant a line to requesters that met in one clock: the first from the present holder or from memory, each later one
by forwarding from the one before it. -/
def State.grantLine (s : State) (line : Nat) (reqs : List Nat) : State :=
  match grantOrder (s.slicePtr line) reqs with
  | [] => s
  | r :: rs =>
    let l := s.line line
    let tail := (l.fwd.getLast?.map Prod.snd).getD l.owner
    let s1 := { s with slices := Sparse.put (fun _ => 0) s.slices (line % 4) ((r + 1) % 97) }
    let l1 : Line :=
      if l.held && tail != r then { l with st := .modified, sharers := [], fwd := l.fwd ++ pairs (tail :: r :: rs) }
      else if l.held then { l with st := .modified, sharers := [], fwd := l.fwd ++ pairs (r :: rs) }
      else { st := .modified, owner := r, sharers := [], fwd := pairs (r :: rs) }
    s1.setLine line l1

/-- A holder gives up its line: a forward already sent to it is served from the buffer (R389). -/
def Line.release (l : Line) (core : Nat) : Line :=
  if l.held && l.owner == core then
    match l.fwd with
    | (_, next) :: fs => { l with st := .modified, owner := next, fwd := fs }
    | [] => { l with st := if l.sharers = [] then .invalid else .shared, owner := 0 }
  else { l with sharers := l.sharers.filter (· != core) }

end Sys2Proof.Machine
end

