-- ==== Sys2Proof/Machine/Flags.lean ====
section
/-! DEFINITION. The flags and records of a completion: STATUS bits (R133), error records (R408, R409), the saturation
counts, poison counts and local step-veto flags of the cores (R51, R79, R261). -/

namespace Sys2Proof.Machine

/-! ### STATUS of a completion record (R133) -/

def stLate : Nat := 1
def stTimeout : Nat := 2
def stBadop : Nat := 4
def stErr : Nat := 8
def stPoison : Nat := 16

/-- The union of two status words. -/
def statusOr (a b : Nat) : Nat := a ||| b

/-- A manifest completes; a completion in the tick of its deadline makes its record LATE (R177). -/
def Issued.done (t : Tide) (i : Issued) : Issued :=
  let late := mFlag i.d.words 5 && mDeadline i.d.words != 0 && t.reached (i.d.stream / 256) (mDeadline i.d.words) &&
    i.status / 2 % 2 == 0
  { i with complete := true, status := if late then statusOr i.status stLate else i.status }

/-- An engine reports a manifest's last write retired (R129), with the status bits it found. -/
def State.complete (s : State) (d : Delivered) (status : Nat) : State :=
  let st := s.stream d.stream
  s.setStream d.stream { st with issued := st.issued.map fun i =>
    if i.d.seq = d.seq then { i with status := statusOr i.status status }.done s.tide else i }

/-- The manifest is still on its stream's list of issued manifests and not complete. -/
def State.outstanding (s : State) (d : Delivered) : Bool :=
  (s.stream d.stream).issued.any fun i => i.d == d && !i.complete

/-! ### Error records (R408, R409) -/

/-- A failed sub-range: address, length, cause. -/
abbrev FailRange := Nat × Nat × Nat

/-- Insert by address. -/
def insertRange (r : FailRange) : List FailRange → List FailRange
  | [] => [r]
  | q :: qs => if r.1 < q.1 then r :: q :: qs else q :: insertRange r qs

/-- Join ranges of one cause that touch. -/
def joinRanges : List FailRange → List FailRange
  | [] => []
  | r :: rest =>
    match joinRanges rest with
    | q :: qs => if r.1 + r.2.1 = q.1 ∧ r.2.2 = q.2.2 then (r.1, r.2.1 + q.2.1, r.2.2) :: qs else r :: q :: qs
    | [] => [r]

/-- Failed sectors as ranges. -/
def sectorRanges (fs : List (Nat × Nat)) : List FailRange := (fs.map fun f => (f.1 / 64 * 64, 64, f.2)).dedup

/-- A RANGE word (R409). -/
def rangeWord (r : FailRange) : Nat :=
  r.1 / 64 % 2 ^ 40 + min (ceilDiv r.2.1 64) 65535 * 2 ^ 40 + r.2.2 % 16 * 2 ^ 56

/-- The 64 bytes of an error record (R409). -/
def errorRecord (d : Delivered) (now : Nat) (fs : List FailRange) : List Byte :=
  let rs := joinRanges (fs.foldr insertRange [])
  let four := rs.take 4
  leBytes 8 d.addr ++ leBytes 8 now ++ leBytes 2 d.stream ++ leBytes 1 d.ctx ++ leBytes 1 (mOpcode d.words) ++
    leBytes 1 four.length ++ leBytes 1 (if 4 < rs.length then 1 else 0) ++ List.replicate 10 (0 : Byte) ++
    ((List.range 4).flatMap fun i => leBytes 8 (match four[i]? with | some r => rangeWord r | none => 0))

/-- Write the error record of a request with failed parts, count it and raise PARTIAL; nothing where none failed or the
ring is off. -/
def State.partialFailure (s : State) (d : Delivered) (fs : List FailRange) : State :=
  let len := s.rd F.CTX_ERREC_LEN_LEN d.ctx
  if fs = [] ∨ len = 0 then s
  else
    let c := s.ctx d.ctx
    let s1 := s.recordWrite d.ctx (s.classOf d.ctx) (s.rd F.CTX_ERREC_BASE_ADDR d.ctx * 64 + 64 * (c.errecIdx % len))
      (errorRecord d s.now fs)
    let s2 := s1.setCtx d.ctx { s1.ctx d.ctx with errecIdx := (c.errecIdx % len + 1) % len }
    (s2.bump F.CTX_ERRECS_COUNT d.ctx).event 0x17 d.ctx 2

/-! ### Core flags -/

/-- The sites of a context's stages (R185, R255). -/
def State.ctxSites (s : State) (ctx : Nat) : Nat :=
  ((List.range 16).filter fun g => s.rd F.DEF_CFG_CTX g == ctx).foldl (fun m g => m ||| s.rd F.DEF_SITES_MASK g) 0

/-- A flag raised after the close and before the result is marked on its channels (R261). -/
def State.afterClose (s : State) (inScope : Nat → Bool) : State :=
  (List.range 4).foldl (fun t v =>
    let c := t.veto v
    if (c.st = .closed ∨ c.st = .held) ∧ inScope (t.rd F.PON_JOB_CTX 432 v) then
      (t.setVeto v { c with afterClose := true }).event 0x0E 432 2
    else t) s

/-- Set a core's local step-veto flag (R79, R110). -/
def State.setAbsurd (s : State) (core : Nat) : State :=
  if s.rd F.TC_ABSURD_FLAG core = 1 then s
  else ((s.wr F.TC_ABSURD_FLAG core 0 1).event 0x00 core 2).afterClose fun ctx => s.ctxSites ctx / 2 ^ (core / 16) % 2 == 1

/-- Count saturations of a core for the step (R61, R66, R70, R74, R79). -/
def State.coreSat (s : State) (core n : Nat) : State :=
  if n = 0 then s
  else
    let s1 := s.bump F.TC_SAT_CNT_COUNT core 0 n
    if s1.rd F.TC_ABSURD_SAT_LIMIT core < s1.rd F.TC_SAT_CNT_COUNT core then s1.setAbsurd core else s1

/-- A block the core writes: poison is counted (R51), an exponent outside the bounds raises the flag (R79). -/
def State.emitted (s : State) (core : Nat) (b : Block) : State :=
  if b.poisoned then s.bump F.TC_POISON_CNT_COUNT core
  else if b.allZero then s
  else if b.e < signed 8 (s.rd F.TC_ABSURD_EXP_LO core) ∨ signed 8 (s.rd F.TC_ABSURD_EXP_HI core) < b.e then
    s.setAbsurd core
  else s

end Sys2Proof.Machine
end

