-- ==== Sys2Proof/Machine/FuncTables.lean ====
section
/-! DEFINITION. The built-in function tables (R73, R74): each returns the function at the exact input, rounded to nearest
at the output's last place, ties to even.  Values that are not rational are computed with 192 fractional bits, far more
than an output's last place needs to decide the rounding (DEDUCED, log entry 13). -/

namespace Sys2Proof.Machine

/-- Fractional bits of the fixed-point evaluation. -/
def fxBits : Nat := 192
def fxOne : Nat := 2 ^ fxBits

/-- ln 2 × 2¹⁹². -/
def fxLn2 : Nat := 0xb17217f7d1cf79abc9e3b39803f2f6af40f343267298b62d
/-- 2¹⁹² ⁄ √(2π). -/
def fxGauss : Nat := 0x662114cf50d942343f2cf1402eae38bfd3829f30512706d8

/-- Quotient rounded to nearest, ties to even. -/
def rneDiv (a b : Nat) : Nat :=
  let q := a / b
  let r := 2 * (a % b)
  if b < r ∨ (r = b ∧ q % 2 = 1) then q + 1 else q

/-- e^y for y ≥ 0 in fixed point, by its power series. -/
def fxExp (y : Nat) : Nat :=
  ((List.range 180).foldl (fun (st : Nat × Nat) k => (st.1 + st.2, st.2 * y / fxOne / (k + 1))) (0, fxOne)).1

/-- EXP2: 16 fractional bits in and out, x ≤ 0. -/
def fnExp2 (x : Int) : Int :=
  let n := (-x).toNat
  if 0 ≤ x then 65536
  else if 17 * 65536 < n then 0
  else if n % 65536 = 0 then rneDiv 65536 (2 ^ (n / 65536))
  else rneDiv (65536 * fxExp ((65536 - n % 65536) * fxLn2 / 65536)) (fxOne * 2 ^ (n / 65536 + 1))

/-- 64 binary digits of log₂ of a fixed-point number in [1, 2), by repeated squaring. -/
def fxLog2 (m : Nat) : Nat :=
  ((List.range 64).foldl (fun (st : Nat × Nat) _ =>
    let q := st.1 * st.1 / fxOne
    if 2 * fxOne ≤ q then (q / 2, 2 * st.2 + 1) else (q, 2 * st.2)) (m, 0)).2

/-- LOG2 of an unsigned integer, 24 fractional bits; the saturations counted (R74). -/
def fnLog2 (x : Nat) : Int × Nat :=
  if x = 0 then (-(2 ^ 31) + 1, 1)
  else
    let n := Nat.log2 x
    (rneDiv (n * 2 ^ 64 + fxLog2 (x * fxOne / 2 ^ n)) (2 ^ 40), 0)

/-- A pair (m, E): a rounding that reaches 32,768 moves to the next exponent. -/
def mkPair (m : Nat) (e : Int) : Int × Int := if m = 32768 then (16384, e + 1) else (m, e)

/-- RECIP: (m, E) and the saturations counted. -/
def fnRecip (x : Nat) : (Int × Int) × Nat :=
  if x = 0 then ((32767, 127), 1)
  else
    let n := Nat.log2 x
    let k := if x = 2 ^ n then n + 14 else n + 15
    (mkPair (rneDiv (2 ^ k) x) (-(k : Int)), 0)

/-- Integer square root by binary digits. -/
def isqrt (y : Nat) : Nat :=
  (List.range 80).foldl (fun r i =>
    let t := r + 2 ^ (79 - i)
    if t * t ≤ y then t else r) 0

/-- RSQRT: (m, E) and the saturations counted.  m² x is never a power of two times an odd tie, so no tie arises. -/
def fnRsqrt (x : Nat) : (Int × Int) × Nat :=
  if x = 0 then ((32767, 127), 1)
  else
    let k := (clog2 (2 ^ 28 * x) + 1) / 2
    let r := isqrt (2 ^ (2 * k) / x)
    let m := if (2 * r + 1) * (2 * r + 1) * x < 4 * 2 ^ (2 * k) then r + 1 else r
    (mkPair m (-(k : Int)), 0)

/-- e^|t| of an input with 12 fractional bits, times `k`. -/
def fxExpAbs (k : Nat) (x : Int) : Nat := fxExp (k * x.natAbs * fxOne / 4096)

/-- Inputs of the sigmoid tables are clamped to −8 ≤ x < 8. -/
def clamp8 (x : Int) : Int := clampInt (-32768) 32767 x

/-- TANH: (e^2|t| − 1) ⁄ (e^2|t| + 1) with the sign of t, 15 fractional bits. -/
def fnTanh (x : Int) : Int :=
  let c := clamp8 x
  let e := fxExpAbs 2 c
  let r : Int := rneDiv (32768 * (e - fxOne)) (e + fxOne)
  if c < 0 then -r else r

/-- LOGISTIC, 15 fractional bits. -/
def fnLogistic (x : Int) : Int :=
  let c := clamp8 x
  let e := fxExpAbs 1 c
  rneDiv (32768 * (if 0 ≤ c then e else fxOne)) (e + fxOne)

/-- A rounded product of an input and a weight a ⁄ b, keeping the sign. -/
def mulRound (x : Int) (a b : Nat) : Int :=
  let r : Int := rneDiv (x.natAbs * a) b
  if x < 0 then -r else r

/-- SILU: t × logistic t, 12 fractional bits. -/
def fnSilu (x : Int) : Int :=
  if 32768 ≤ x then x
  else if x < -32768 then 0
  else
    let e := fxExpAbs 1 x
    mulRound x (if 0 ≤ x then e else fxOne) (e + fxOne)

/-- The normal distribution function at t in fixed point: ½ + φ series. -/
def fxPhi (x : Int) : Nat :=
  let t : Nat := x.natAbs * fxOne / 4096
  let t2 := t * t / fxOne
  let sum : Int := ((List.range 220).foldl (fun (st : Int × Nat) k =>
    let term : Int := ((st.2 / (2 * k + 1) : Nat) : Int)
    (if k % 2 = 0 then st.1 + term else st.1 - term, st.2 * t2 / fxOne / (2 * (k + 1)))) ((0 : Int), t)).1
  let half : Int := ((fxOne / 2 : Nat) : Int)
  let a : Int := sum * (fxGauss : Int) / (fxOne : Int)
  (if 0 ≤ x then half + a else half - a).toNat

/-- GELU: t × Φ(t) (DEDUCED, log entry 13), 12 fractional bits. -/
def fnGelu (x : Int) : Int :=
  if 32768 ≤ x then x else if x < -32768 then 0 else mulRound x (fxPhi x) fxOne

/-- RECIP and RSQRT in a lane with f fractional bits (R89). -/
def pairLane (f : Nat) (p : (Int × Int) × Nat) : Int × Nat :=
  let r := satI32 (rneShift p.1.1 (-(p.1.2 + f)))
  (r.1, r.2 + p.2)

/-- RECIP or RSQRT of a lane: a negative lane is outside the domain and its pair is a free value (log entry 14). -/
def pairOf (table f : Nat) (g : Nat → (Int × Int) × Nat) (x : Int) : Int × Nat :=
  if x < 0 then pairLane f (Config.negPair table x, 0) else pairLane f (g x.toNat)

/-- A built-in table on a lane: the lane and the saturations counted.  LOG2 takes the lane's 32 bits as unsigned
(DEDUCED, log entry 14); a code that is not built in evaluates as EXP2 (R75). -/
def builtin (table f : Nat) (x : Int) : Int × Nat :=
  match table with
  | 1 => fnLog2 (code 32 x)
  | 2 => pairOf 2 f fnRecip x
  | 3 => pairOf 3 f fnRsqrt x
  | 4 => (fnTanh x, 0)
  | 5 => (fnLogistic x, 0)
  | 6 => (fnSilu x, 0)
  | 7 => (fnGelu x, 0)
  | _ => (fnExp2 x, 0)

end Sys2Proof.Machine
end

