-- ==== Sys2Proof/Machine/CoreOps.lean ====
section
/-! DEFINITION. What the core-executed manifests and WPREFETCH compute (R83 to R95, R104, R118, R123): operand blocks
through the windows a manifest issued with, the array, the requantiser, the vector and function units. -/

namespace Sys2Proof.Machine

/-! ### Issued manifests -/

/-- The stream's record of an issued manifest that has not completed. -/
def State.issuedOf (s : State) (d : Delivered) : Option Issued :=
  (s.stream d.stream).issued.find? fun i => i.d == d && !i.complete

/-- The manifest is outstanding and is not to execute as NOP (R144). -/
def State.live (s : State) (d : Delivered) : Bool :=
  match s.issuedOf d with
  | some i => !i.asNop
  | none => false

/-- Add STATUS bits to an issued manifest without completing it. -/
def State.markStatus (s : State) (d : Delivered) (status : Nat) : State :=
  let st := s.stream d.stream
  s.setStream d.stream { st with issued := st.issued.map fun i =>
    if i.d.seq = d.seq then { i with status := statusOr i.status status } else i }

/-! ### Windows (R91 to R93) -/

/-- A window's four words as a manifest issued with them: BASE, LEN, STRIDE, HEAD. -/
abbrev Win := List Word

def winMode (w : Win) : Nat := fld (mword w 0) F.WIN_BASE_MODE
def winLen (w : Win) : Nat := fld (mword w 1) F.WIN_LEN_LEN64
def winHead (w : Win) : Nat := fld (mword w 3) F.WIN_HEAD_HEAD64

/-- The package address of the word at byte offset `o` of a window of a core (R91). -/
def winAddr (w : Win) (core o : Nat) : Nat :=
  let q := (winHead w + o / 64) % winLen w
  let near := core * 0x100_0000
  let base := fld (mword w 0) F.WIN_BASE_BASE64
  if winMode w = 0 then near + (base + q) * 64 else near + q % 16 * 0x10_0000 + (base + q / 16) * 64

/-- The package address of the byte at offset `o`. -/
def winByte (w : Win) (core o : Nat) : Nat := winAddr w core o + o % 64

/-- The line of a word: 512 consecutive bytes of a bank, or the eight words of a SPREAD window over eight banks (R92, R101), named
by its first word. -/
def lineOf (w : Win) (a : Nat) : Obj :=
  if winMode w = 0 then .line (a / 512 * 512) false else .line (a / 64 * 64 - a / 0x10_0000 % 16 % 8 * 0x10_0000) true

/-- The words of bytes [o, o + n) of a window. -/
def winWords (w : Win) (core o n : Nat) : List Nat :=
  if n = 0 then [] else (List.range ((o + n - 1) / 64 - o / 64 + 1)).map fun i => winAddr w core ((o / 64 + i) * 64)

/-- The lines of bytes [o, o + n) of a window. -/
def winLines (w : Win) (core o n : Nat) : List Obj := (winWords w core o n).map (lineOf w)

def Win.ofInflight (f : Inflight) (i : Nat) : Win := f.windows.getD i []

/-! ### Slices (R123) -/

/-- The part [lo, hi) of a dimension at position p of n. -/
def slicePart (n p dim : Nat) : Nat × Nat :=
  let q := ceilDiv dim n
  (min (p * q) dim, min ((p + 1) * q) dim)

/-- N and p of a core for a manifest (R123). -/
def State.slicePos (s : State) (core : Nat) (d : Delivered) : Nat × Nat :=
  if mFlag d.words 2 then
    (16 * s.rd F.PIL_GROUP_SIZE (d.stream / 256), s.rd F.PIL_GROUP_INDEX (core / 16) * 16 + core % 16)
  else (16, core % 16)

/-- The range of dimension k that a core takes. -/
def Handle.part (h : Handle) (np : Nat × Nat) (k : Nat) : Nat × Nat :=
  if h.sliceOn ∧ h.sliceDim = k then slicePart np.1 np.2 (h.dim k) else (0, h.dim k)

def rangeOf (r : Nat × Nat) : List Nat := (List.range (r.2 - r.1)).map (· + r.1)

/-- The part of a tensor that a core works on: a range of each dimension. -/
abbrev Box := List (Nat × Nat)

def Box.dim (x : Box) (k : Nat) : Nat × Nat := x.getD k (0, 1)

/-- A core's part of a tensor, which is all of it where the handle is not sliced. -/
def Handle.box (h : Handle) (np : Nat × Nat) : Box := (List.range 4).map (h.part np)

/-- Cut a part down to that of another operand, where that operand is sliced (DEDUCED, log entry 135). -/
def Box.cut (x : Box) (np : Nat × Nat) (h : Handle) : Box :=
  if h.sliceOn then
    (List.range 4).map fun k => if k = h.sliceDim then (max (x.dim k).1 (h.part np k).1, min (x.dim k).2 (h.part np k).2) else x.dim k
  else x

/-- The rows of a part, in dense order; none where the part is empty. -/
def Box.rows (x : Box) : List (List Nat) :=
  (rangeOf (x.dim 3)).flatMap fun c => (rangeOf (x.dim 2)).flatMap fun b => (rangeOf (x.dim 1)).map fun a => [a, b, c]

/-- The blocks that a range of dimension 0 touches. -/
def blocksOf (r : Nat × Nat) : List Nat := if r.2 ≤ r.1 then [] else rangeOf (r.1 / 32, ceilDiv r.2 32)

/-- The elements of block b that a range of dimension 0 takes, as [lo, hi) within the block. -/
def blockSpan (r : Nat × Nat) (b : Nat) : Nat × Nat := (r.1 - 32 * b, min 32 (r.2 - 32 * b))

/-- The rows a core takes, in dense order. -/
def Handle.coreRows (h : Handle) (np : Nat × Nat) : List (List Nat) := (h.box np).rows

/-- The blocks of a row a core takes. -/
def Handle.coreBlocks (h : Handle) (np : Nat × Nat) : List Nat := blocksOf (h.part np 0)

/-- The row and block pairs of a part, in dense order. -/
def Box.cells (x : Box) : List (List Nat × Nat) := x.rows.flatMap fun row => (blocksOf (x.dim 0)).map fun b => (row, b)

/-! ### Reading and writing blocks through windows -/

/-- Data offset of block b of a row in the data window, and its scale offset (R122). -/
def Handle.dOff (h : Handle) (row : List Nat) (b : Nat) : Nat := h.woff + h.rowOff row + b * 4 * fmtBits h.fmt
def Handle.sOff (h : Handle) (row : List Nat) (b : Nat) : Nat := h.swoff + h.scaleOff row + b

/-- The bytes [lo, hi) of a block that hold elements [lo, hi) of it. -/
def spanBytes (fmt : Nat) (sp : Nat × Nat) : Nat × Nat := (sp.1 * fmtBits fmt / 8, ceilDiv (sp.2 * fmtBits fmt) 8)

/-- A byte a core reads: zero from a bank that is not ON (R268). -/
def State.coreByte (s : State) (a : Nat) : Byte :=
  if s.bankAwake (a / 0x1000_0000) (a / 0x10_0000 % 256) then s.byte a else 0

/-- The words hold a byte of a tainted object, of a bank that is not ON or of a word with a double-bit error (R104, R268,
R269). -/
def State.taints (s : State) (f : Inflight) (w : Win) (as : List Nat) : Bool :=
  as.any fun a => f.tainted.contains (lineOf w a) || !s.bankAwake (a / 0x1000_0000) (a / 0x10_0000 % 256) ||
    (s.flaws 8 a 64).any fun u => fxLost u.2

/-- Elements `sp` of block b of a row of an operand, the others zero; none where the block is poisoned or the read was tainted
(R49, R104). -/
def State.coreBlock (s : State) (f : Inflight) (core : Nat) (h : Handle) (row : List Nat) (b : Nat)
    (sp : Nat × Nat := (0, 32)) : Option Block :=
  let dw := Win.ofInflight f h.dwin
  let sw := Win.ofInflight f h.swin
  let o := h.dOff row b
  let n := min 32 (h.dim 0 - 32 * b)
  let by' := spanBytes h.fmt (sp.1, min sp.2 n)
  if s.taints f dw (winWords dw core (o + by'.1) (by'.2 - by'.1)) ∨
      (h.fmt ≠ 4 ∧ s.taints f sw (winWords sw core (h.sOff row b) 1)) then none
  else
    let e := if h.fmt = 4 then 0 else signed 8 (s.coreByte (winByte sw core (h.sOff row b))).toNat
    if e = -128 then none
    else some ⟨e, (List.range n).map fun j =>
      if sp.1 ≤ j ∧ j < sp.2 then readMant h.fmt (elemCode (fun i => s.coreByte (winByte dw core (o + i))) h.fmt j) else 0⟩

/-- Store bytes through a window, word by word: a word of a bank that is not ON is discarded, a part of a word is merged
(R268, R269). -/
def State.coreStore (s : State) (w : Win) (core o : Nat) (bs : List Byte) : State :=
  (List.range ((o % 64 + bs.length + 63) / 64)).foldl (fun t i =>
    let lo := if i = 0 then o else (o / 64 + i) * 64
    let hi := min (o + bs.length) ((o / 64 + i + 1) * 64)
    let a := winByte w core lo
    (t.sramPut (a / 0x1000_0000) (a / 0x10_0000 % 256) a ((bs.drop (lo - o)).take (hi - lo))).2) s

/-- The package addresses of bytes [o, o + n) of a window. -/
def winRange (w : Win) (core o n : Nat) : List (Nat × Nat) := (List.range n).map fun i => (winByte w core (o + i), 1)

/-- What a block of the output stores: elements `sp` of block b of a row; up to the end of the block where they reach the end of
the row, whose padding is written as zero (R46). -/
def Handle.outSpan (h : Handle) (b : Nat) (sp : Nat × Nat) : Nat × Nat :=
  (sp.1, if h.dim 0 ≤ 32 * b + sp.2 then 32 else sp.2)

/-- The bytes a block stores, and the scale byte. -/
def Handle.outRanges (h : Handle) (f : Inflight) (core : Nat) (row : List Nat) (b : Nat) (sp : Nat × Nat) : List (Nat × Nat) :=
  let by' := spanBytes h.fmt (h.outSpan b sp)
  winRange (Win.ofInflight f h.dwin) core (h.dOff row b + by'.1) (by'.2 - by'.1) ++
    (if h.fmt = 4 then [] else winRange (Win.ofInflight f h.swin) core (h.sOff row b) 1)

/-- The bytes of elements `sp` of a block, a nibble outside them kept as it stands (R44). -/
def spanData (fmt : Nat) (sp : Nat × Nat) (old new : List Byte) : List Byte :=
  let by' := spanBytes fmt sp
  (List.range (by'.2 - by'.1)).map fun i =>
    let j := by'.1 + i
    let o := (old.getD i 0).toNat
    let x := (new.getD j 0).toNat
    if fmt ≠ 0 then new.getD j 0
    else BitVec.ofNat 8 ((if sp.1 ≤ 2 * j then x % 16 else o % 16) + 16 * (if 2 * j + 1 < sp.2 then x / 16 else o / 16))

/-- Store bytes of the output through a window; a byte that an earlier block of the same output stored is the old or the new one
(R507). -/
def State.coreMix (s : State) (w : Win) (core o : Nat) (prior : List (Nat × Nat)) (bs : List Byte) : State :=
  if (winRange w core o bs.length).any fun a => prior.contains a then
    let r := ((List.range bs.length).zip bs).foldl (fun (acc : List Byte × State) ib =>
      let a := winByte w core (o + ib.1)
      if prior.contains (a, 1) then
        (acc.1 ++ [if Config.freeNat acc.2.free % 2 = 0 then acc.2.byte a else ib.2], { acc.2 with free := acc.2.free + 1 })
      else (acc.1 ++ [ib.2], acc.2)) ([], s)
    r.2.coreStore w core o r.1
  else s.coreStore w core o bs

/-- Where a block of the output goes: its row, its number, the elements of it that the core takes, and the bytes that earlier
blocks of the same output stored. -/
structure OutPos where
  row   : List Nat
  b     : Nat
  sp    : Nat × Nat
  prior : List (Nat × Nat)
  deriving DecidableEq, Repr

/-- Write a block of the output; none writes a poisoned block (R49, R104).  `req`: the block comes from the requantiser, so its
exponent is held against the bounds of R79. -/
def State.coreWrite (s : State) (f : Inflight) (core : Nat) (h : Handle) (p : OutPos) (req : Bool) (blk : Option Block) : State :=
  let n := min 32 (h.dim 0 - 32 * p.b)
  let x := blk.getD (Block.poison n)
  let s1 := match blk with
    | none => (s.bump F.TC_POISON_CNT_COUNT core).markStatus f.d stPoison
    | some y => if req then s.emitted core y else s
  let dw := Win.ofInflight f h.dwin
  let sp := h.outSpan p.b p.sp
  let o := h.dOff p.row p.b + (spanBytes h.fmt sp).1
  let old := (List.range ((spanBytes h.fmt sp).2 - (spanBytes h.fmt sp).1)).map fun i => s1.coreByte (winByte dw core (o + i))
  let s2 := s1.coreMix dw core o p.prior (spanData h.fmt sp old (blockBytes h.fmt x.m))
  if h.fmt = 4 then s2
  else s2.coreMix (Win.ofInflight f h.swin) core (h.sOff p.row p.b) p.prior [BitVec.ofNat 8 (code 8 x.e)]

/-! ### Lanes (R70) -/

/-- Load a block into lanes: values and saturations. -/
def blockLanes (fmt f : Nat) (b : Block) : List (Int × Nat) := if fmt = 4 then b.m.map (·, 0) else b.m.map (laneLoad b.e f)

/-- The rounding hash of the elements of an output block, where the operation rounds stochastically (R55). -/
def State.outHash (s : State) (d : Delivered) (h : Handle) (row : List Nat) (b : Nat) : Option (Nat → Nat) :=
  if mFlag d.words 0 then
    some fun i => roundHash (s.ctx d.ctx).keyLo (s.ctx d.ctx).keyHi (mStep d.words) h.tid (h.rowElem row + 32 * b + i)
  else none

/-- Write result lanes: plain i32 as they are, S formats by the requantiser with T = −f (R70). -/
def State.storeLanes (s : State) (f : Inflight) (core : Nat) (h : Handle) (p : OutPos) (lanes : Option (List (Int × Nat))) : State :=
  match lanes with
  | none => s.coreWrite f core h p true none
  | some ls =>
    let sat := (ls.map Prod.snd).sum
    if h.fmt = 4 then (s.coreSat core sat).coreWrite f core h p false (some ⟨0, ls.map Prod.fst⟩)
    else
      let r := requantBlock (ls.map Prod.fst) (-(mFrac f.d.words : Int)) h.fmt (s.outHash f.d h p.row p.b)
      (s.coreSat core (sat + r.2)).coreWrite f core h p true (some r.1)

/-! ### Reads and writes of one operation in the order of its latencies (R96, R505) -/

/-- Clocks from an operand's read to the retirement of its result, and blocks read per clock, of an element-wise operation: the
vector unit, COPY and the function unit (R96). -/
def opLatency (ws : List Word) : Nat × Nat :=
  match mOpcode ws with
  | 4 => (16, 8)
  | 5 => (24, 8)
  | 8 => (12, 16)
  | _ =>
    let fu := match mTable ws with
      | 1 => 18
      | 2 => 20
      | 3 => 20
      | 6 => 16
      | 7 => 16
      | _ => 14
    (8 + fu + 4, 2)

/-- Run an operation block by block: each block is read at its clock, with the results of earlier blocks that have retired by then
in place, and its own result follows after the latency (R505).  `step` reads a block and says what to store. -/
def State.inOrder (s : State) (lat : Nat × Nat) (n : Nat) (step : Nat → State → State × (State → State)) : State :=
  let r := (List.range n).foldl (fun (acc : State × List (Nat × (State → State))) i =>
    let due := acc.2.takeWhile fun p => decide (p.1 + lat.1 < i / lat.2)
    let w := step i (due.foldl (fun t p => p.2 t) acc.1)
    (w.1, acc.2.drop due.length ++ [(i / lat.2, w.2)])) (s, [])
  r.2.foldl (fun t p => p.2 t) r.1

/-! ### Operands -/

/-- A handle operand as the core's unit sees it. -/
def State.coreHandle (s : State) (d : Delivered) (i : Nat) : Handle :=
  (s.handleOf d (opAddr (mOperand d.words i))).getD default

/-- Operand i is a handle. -/
def opIsHandle (ws : List Word) (i : Nat) : Bool := opPresent (mOperand ws i) && !opIsParam (mOperand ws i)

/-- The part of the output that an element-wise manifest works on, on a core: that of every sliced operand (R123). -/
def State.outBox (s : State) (core : Nat) (d : Delivered) : Box :=
  let np := s.slicePos core d
  let h := s.coreHandle d 0
  ([1, 2, 3].filter (opIsHandle d.words)).foldl (fun x i => x.cut np (s.coreHandle d i)) (h.box np)

/-- A scalar operand: the low 32 bits of the parameter (R116). -/
def scalarOf (d : Delivered) (i : Nat) : Int := signed 32 ((d.snap.getD (opParam (mOperand d.words i)) 0).toNat % 2 ^ 32)

/-- Lanes of a VEC operand: a block of a handle, or a parameter scalar; an absent operand gives zeros. -/
def State.vecLanes (s : State) (f : Inflight) (core i : Nat) (row : List Nat) (b : Nat) (sp : Nat × Nat) :
    Option (List (Int × Nat)) :=
  let w := mOperand f.d.words i
  if !opPresent w then some []
  else if opIsParam w then some (List.replicate 32 (scalarOf f.d i, 0))
  else
    let h := s.coreHandle f.d i
    (s.coreBlock f core h row b sp).map (blockLanes h.fmt (mFrac f.d.words))

/-! ### The vector and function units (R88, R89, R118) -/

/-- One lane operation of VEC; the product's fraction is rounded away (DEDUCED, log entry 15). -/
def vecLane (sub f : Nat) (a b c : Int) : Int × Nat :=
  match sub with
  | 0 => satI32 (a + b)
  | 1 => satI32 (a - b)
  | 2 => satI32 (rneShift (a * b) f)
  | 3 => (max a b, 0)
  | 4 => (min a b, 0)
  | 5 => satI32 (rneShift a (-(clampInt (-63) 63 b)))
  | 6 => (if c ≠ 0 then a else b, 0)
  | _ => (a, 0)

def lane (ls : List (Int × Nat)) (j : Nat) : Int := (ls.getD j (0, 0)).1

/-- The lanes of a block of `n` elements, with zeros outside the elements `sp`, which a core does not take. -/
def lanesIn (n : Nat) (sp : Nat × Nat) (g : Nat → Int × Nat) : List (Int × Nat) :=
  (List.range n).map fun j => if sp.1 ≤ j ∧ j < sp.2 then g j else (0, 0)

/-- What an operation has read for a block: the state, and the lanes to store. -/
abbrev BlockRead := State × Option (List (Int × Nat))

/-- Run an element-wise operation over a core's part of its output. -/
def State.eachBlock (s : State) (core : Nat) (f : Inflight) (h : Handle) (g : State → OutPos → State × (State → State)) : State :=
  let x := s.outBox core f.d
  let cs := x.cells
  s.inOrder (opLatency f.d.words) cs.length fun i t =>
    let c := cs.getD i ([], 0)
    g t ⟨c.1, c.2, blockSpan (x.dim 0) c.2,
      (cs.take i).flatMap fun e => h.outRanges f core e.1 e.2 (blockSpan (x.dim 0) e.2)⟩

def State.vecBlock (s : State) (f : Inflight) (core : Nat) (h : Handle) (p : OutPos) : BlockRead :=
  let ws := f.d.words
  let n := min 32 (h.dim 0 - 32 * p.b)
  match s.vecLanes f core 1 p.row p.b p.sp, s.vecLanes f core 2 p.row p.b p.sp, s.vecLanes f core 3 p.row p.b p.sp with
  | some la, some lb, some lc =>
    (s.coreSat core (((la ++ lb ++ lc).map Prod.snd).sum),
      some (lanesIn n p.sp fun j => vecLane (mSubop ws) (mFrac ws) (lane la j) (lane lb j) (lane lc j)))
  | _, _, _ => (s, none)

def State.runVec (s : State) (core : Nat) (f : Inflight) : State :=
  let h := s.coreHandle f.d 0
  s.eachBlock core f h fun t p =>
    let r := t.vecBlock f core h p
    (r.1, fun u => u.storeLanes f core h p r.2)

/-- A user table's lane result, or a built-in's. -/
def Core.funcLane (c : Core) (table f : Nat) (x : Int) : Int × Nat :=
  match c.tables.find? fun e => e.1 == table with
  | some e => fuEval e.2.xb e.2.sw e.2.ce e.2.off e.2.coef x
  | none => builtin table f x

/-- The table a FUNC evaluates: code 0x00 where its own was not there at its issue (R75, R143). -/
def funcTable (f : Inflight) : Nat := if f.tableOk then mTable f.d.words else 0

def State.funcBlock (s : State) (f : Inflight) (core : Nat) (h hin : Handle) (p : OutPos) : BlockRead :=
  let ws := f.d.words
  let n := min 32 (h.dim 0 - 32 * p.b)
  match (if f.tainted.contains (.table (funcTable f)) then none else s.coreBlock f core hin p.row p.b p.sp) with
  | none => (s, none)
  | some blk =>
    let ls := blockLanes hin.fmt (mFrac ws) blk
    (s.coreSat core ((ls.map Prod.snd).sum),
      some (lanesIn n p.sp fun j => (s.core core).funcLane (funcTable f) (mFrac ws) (lane ls j)))

def State.runFunc (s : State) (core : Nat) (f : Inflight) : State :=
  let h := s.coreHandle f.d 0
  let hin := s.coreHandle f.d 1
  s.eachBlock core f h fun t p =>
    let r := t.funcBlock f core h hin p
    (r.1, fun u => u.storeLanes f core h p r.2)

/-- Reduce lanes: 0 sum, 1 max, 2 min. -/
def reduceLanes (sub : Nat) (xs : List Int) : Int × Nat :=
  match xs, sub with
  | [], _ => (0, 0)
  | x :: r, 1 => (r.foldl max x, 0)
  | x :: r, 2 => (r.foldl min x, 0)
  | xs, _ => satI32 xs.sum

/-- The elements of a row of an input that a core takes, none where a block is poisoned. -/
def State.rowLanes (s : State) (f : Inflight) (core : Nat) (h : Handle) (np : Nat × Nat) (row : List Nat) :
    Option (List (Int × Nat)) :=
  (h.coreBlocks np).foldl (fun acc b =>
    let sp := blockSpan (h.part np 0) b
    match acc, s.coreBlock f core h row b sp with
    | some l, some blk => some (l ++ ((blockLanes h.fmt (mFrac f.d.words) blk).take sp.2).drop sp.1)
    | _, _ => none) (some [])

/-- The rows a VRED reduces on a core: those of its output's part and of its input's. -/
def State.vredRows (s : State) (core : Nat) (d : Delivered) : List (List Nat) :=
  let np := s.slicePos core d
  let h := s.coreHandle d 0
  let hin := s.coreHandle d 1
  if h.coreBlocks np = [] ∨ hin.coreBlocks np = [] then [] else (if hin.sliceDim = 0 then h.box np else (h.box np).cut np hin).rows

/-- VRED: each row of the input to element 0 of the output's row (R118). -/
def State.runVred (s : State) (core : Nat) (f : Inflight) : State :=
  let h := s.coreHandle f.d 0
  let hin := s.coreHandle f.d 1
  let np := s.slicePos core f.d
  let rows := s.vredRows core f.d
  s.inOrder (24, max 1 (8 / max 1 (hin.coreBlocks np).length)) rows.length fun i t =>
    let row := rows.getD i []
    let p : OutPos := ⟨row, 0, (0, 1), (rows.take i).flatMap fun e => h.outRanges f core e 0 (0, 1)⟩
    match t.rowLanes f core hin np row with
    | none => (t, fun u => u.storeLanes f core h p none)
    | some ls => (t.coreSat core ((ls.map Prod.snd).sum), fun u => u.storeLanes f core h p
        (some [reduceLanes (mSubop f.d.words) (ls.map Prod.fst)]))

/-- COPY: blocks from near bank to near bank.  Where the two formats differ the spec states no result, and the data
bytes are free values (log entry 16). -/
def State.copyBlock (s : State) (f : Inflight) (core : Nat) (h hin : Handle) (p : OutPos) (blk : Option Block) : State :=
  if h.fmt = hin.fmt ∨ blk = none then s.coreWrite f core h p false blk
  else
    let sp := spanBytes h.fmt (h.outSpan p.b p.sp)
    let s1 := s.coreWrite f core h p false blk
    { s1.coreStore (Win.ofInflight f h.dwin) core (h.dOff p.row p.b + sp.1) (freeBytes s1.free (sp.2 - sp.1)) with
      free := s1.free + (sp.2 - sp.1) }

def State.runCopy (s : State) (core : Nat) (f : Inflight) : State :=
  let h := s.coreHandle f.d 0
  let hin := s.coreHandle f.d 1
  s.eachBlock core f h fun t p =>
    let blk := t.coreBlock f core hin p.row p.b p.sp
    (t, fun u => u.copyBlock f core h hin p blk)

/-- A table image (R72). -/
def tableOf (bs : List Byte) : UTable :=
  let at' := fun o n => leNat ((bs.drop o).take n)
  { xb := signed 32 (at' 0 4), sw := min (at' 4 1) 26, ce := signed 8 (at' 5 1), off := min (at' 6 1) 30,
    coef := (List.range 256).map fun i => readMant 2 (at' (32 + 2 * i) 2) }

/-- TLOAD: the image's 544 bytes from the data window at WOFF (DEDUCED, log entry 15), also where a line of it was read early or
is poisoned: R104 gives a table no mark (DESIGN CHOICE, log entry 136). -/
def State.runTload (s : State) (core : Nat) (f : Inflight) : State :=
  let h := s.coreHandle f.d 1
  let w := Win.ofInflight f h.dwin
  let bs := (List.range 544).map fun i => s.coreByte (winByte w core (h.woff + i))
  let c := s.core core
  s.setCore core { c with tables := Sparse.insert c.tables (mTable f.d.words) (tableOf bs) }

/-! ### The requantiser (R64 to R67, R85) -/

def Core.tile (c : Core) (i : Nat) : Tile := Sparse.get (fun _ => Tile.reset) c.tiles i
def Core.setTile (c : Core) (i : Nat) (t : Tile) : Core :=
  { c with tiles := Sparse.put (fun _ => Tile.reset) c.tiles i t }

def Tile.cell (t : Tile) (row col : Nat) : Int := Sparse.get (fun _ => (0 : Int)) t.cells (128 * row + col)

/-- The tile that holds row `ri` of an operation (R85).  Where the first tile and the count run past tile 7 the spec says
nothing, and the number wraps modulo 8 (DESIGN CHOICE, log entry 137). -/
def tileOf (ws : List Word) (ri : Nat) : Nat := (mTile ws + ri / 128) % 8

/-- Requantise a block of row `ri` of the named tiles; column 0 of the tiles is the first element the core takes. -/
def State.requantOne (s : State) (f : Inflight) (core : Nat) (h : Handle) (lo ri : Nat) (p : OutPos) : State :=
  let t := (s.core core).tile (tileOf f.d.words ri)
  let n := min 32 (h.dim 0 - 32 * p.b)
  if t.poison ∨ f.tainted.contains (.tile (tileOf f.d.words ri)) then s.coreWrite f core h p true none
  else
    let vs := (List.range n).map fun j => if p.sp.1 ≤ j ∧ j < p.sp.2 then t.cell (ri % 128) (32 * p.b + j - lo) else 0
    let r := requantBlock vs t.texp h.fmt (s.outHash f.d h p.row p.b)
    (s.coreSat core r.2).coreWrite f core h p true (some r.1)

/-- The part of the output that a REQUANT writes on a core: the 128 columns of a tile; columns beyond them are not written
(DESIGN CHOICE, log entry 138). -/
def State.requantBox (s : State) (core : Nat) (d : Delivered) : Box :=
  let x := (s.coreHandle d 0).box (s.slicePos core d)
  ((x.dim 0).1, min (x.dim 0).2 ((x.dim 0).1 + 128)) :: x.drop 1

/-- REQUANT: the output's rows on this core. -/
def State.runRequant (s : State) (core : Nat) (f : Inflight) : State :=
  let h := s.coreHandle f.d 0
  let x := s.requantBox core f.d
  let cs := ((List.range x.rows.length).zip x.rows).flatMap fun ir => (blocksOf (x.dim 0)).map fun b => (ir.1, ir.2, b)
  (List.range cs.length).foldl (fun t i =>
    let c := cs.getD i (0, [], 0)
    t.requantOne f core h (x.dim 0).1 c.1 ⟨c.2.1, c.2.2, blockSpan (x.dim 0) c.2.2,
      (cs.take i).flatMap fun e => h.outRanges f core e.2.1 e.2.2 (blockSpan (x.dim 0) e.2.2)⟩) s

/-! ### The MAC array (R83 to R87, R59 to R63) -/

/-- Blocks of the reduction in a staged weight tile: 256 elements of S4, else 128 (R83). -/
def stageBlocks (fmt : Nat) : Nat := if fmt = 0 then 8 else 4

/-- Staging lines of 128 × 128 weights. -/
def halfLines (fmt : Nat) : Nat := match fmt with | 0 => 16 | 1 => 32 | _ => 64

/-- Staging lines of a staged weight tile. -/
def stageLines (fmt : Nat) : Nat := if fmt = 0 then 32 else halfLines fmt

/-- Blocks of the reduction in an array tile: in S4 mode a staged tile; S4 weights under wider activations give two array tiles a
staged one (R48). -/
def arrayBlocks (fa fw : Nat) : Nat := if fa = 0 ∧ fw = 0 then 8 else 4

/-- Lines that the load of an array tile reads. -/
def arrayLines (fa fw : Nat) : Nat := if fa = 0 ∧ fw = 0 then 32 else halfLines fw

/-- Array tiles of a reduction over `nb` blocks: every one of its staged tiles (R48, R84). -/
def arrayTiles (fa fw nb : Nat) : Nat := ceilDiv nb (stageBlocks fw) * (stageBlocks fw / arrayBlocks fa fw)

/-- The element at reduction index k and column n of an array tile: 128 rows of the reduction after another, in each the columns
one after another, K ascending (DESIGN CHOICE, log entry 17: the layout inside the staging buffer is not visible). -/
def stagedElem (fmt : Nat) (bs : List Byte) (n k : Nat) : Int :=
  readMant fmt (elemCode (fun i => bs.getD i 0) fmt (k / 128 * 16384 + n * 128 + k % 128))

/-- Sum of products of two mantissa lists. -/
def dot (a b : List Int) : Int := (List.zipWith (· * ·) a b).sum

/-- What a MATMUL multiplies on a core: activation rows, weight columns and the blocks of the reduction. -/
structure MacPart where
  rows : List (List Nat)
  cols : List (List Nat)
  k    : Nat × Nat
  deriving DecidableEq, Repr

/-- The part of a MATMUL on a core: of the weights' columns the first 128, since the array has no more and the spec gives further
ones no outcome (DESIGN CHOICE, log entry 138); the reduction is the weights' part of dimension 0. -/
def State.macPart (s : State) (core : Nat) (d : Delivered) : MacPart :=
  let np := s.slicePos core d
  let ha := s.coreHandle d 0
  let hw := s.coreHandle d 1
  let k := hw.part np 0
  if (blocksOf k).isEmpty || (ha.coreBlocks np).isEmpty || (hw.coreRows np).isEmpty then ⟨[], [], (0, 0)⟩
  else ⟨ha.coreRows np, (hw.coreRows np).take 128, k⟩

/-- The scale codes of blocks of a row, and whether each is poisoned or was read tainted. -/
def State.scaleCodes (s : State) (f : Inflight) (core : Nat) (h : Handle) (row : List Nat) (bs : List Nat) : List (Int × Bool) :=
  let sw := Win.ofInflight f h.swin
  bs.map fun b =>
    let e := signed 8 (s.coreByte (winByte sw core (h.sOff row b))).toNat
    (e, e == -128 || s.taints f sw (winWords sw core (h.sOff row b) 1))

/-- Largest exponent of each block over rows of exponents. -/
def maxByIndex (n : Nat) (ess : List (List Int)) : List Int :=
  (List.range n).map fun j => (ess.map fun es => es.getD j (-128)).foldl max (-128)

/-- Mark a tile poisoned. -/
def Core.poisonTile (c : Core) (ti : Nat) : Core := c.setTile ti { c.tile ti with poison := true }

/-- The wider of two operand formats (R48). -/
def widerFmt (a b : Nat) : Nat := max a b

/-- The rows of an operation that a tile holds, by row number. -/
def tileRows (ws : List Word) (rows : List (List Nat)) (ti : Nat) : List (List Nat) :=
  (((List.range rows.length).zip rows).filter fun ir => tileOf ws ir.1 == ti).map Prod.snd

/-- The tiles that hold a row of an operation, each once. -/
def tilesUsed (ws : List Word) (n : Nat) : List Nat := ((List.range n).map (tileOf ws)).dedup

/-- The prescan (R59): the exponent of each tile that holds a row, from the scale planes over the whole reduction.  The operation
starts the cells it will add into at zero; columns beyond N keep what they hold (R84). -/
def State.prescan (s : State) (f : Inflight) (core : Nat) (m : MacPart) (c : Core) : Core :=
  let ws := f.d.words
  let ha := s.coreHandle f.d 0
  let hw := s.coreHandle f.d 1
  let bs := blocksOf m.k
  let wMax := maxByIndex bs.length (m.cols.map fun r => (s.scaleCodes f core hw r bs).map Prod.fst)
  (tilesUsed ws m.rows.length).foldl (fun c ti =>
    let rows := tileRows ws m.rows ti
    let aMax := maxByIndex bs.length (rows.map fun r => (s.scaleCodes f core ha r bs).map Prod.fst)
    c.setTile ti {
      texp := tileExp (widerFmt ha.fmt hw.fmt) (List.zipWith (· + ·) aMax wMax) (mTrim ws), poison := false, sat := 0
      cells := (c.tile ti).cells.filter fun e => decide (rows.length ≤ e.1 / 128) || decide (m.cols.length ≤ e.1 % 128) }) c

/-- One block of the reduction as the array meets it: the activations' block, the weights' exponents by column, and the index of
its first weight row in the array tile. -/
structure MacBlock where
  a  : Option Block
  we : List (Int × Bool)
  k0 : Nat
  deriving DecidableEq, Repr

/-- Terms of one output element: the partial sums of its block pairs with their exponents, ascending; a poisoned pair adds
nothing. -/
def macTerms (fmtW : Nat) (tile : List Byte) (bs : List MacBlock) (col : Nat) : List (Int × Int) :=
  bs.filterMap fun x =>
    match x.a, x.we.getD col (0, false) with
    | some a, (e, false) => some (dot a.m ((List.range 32).map fun i => stagedElem fmtW tile col (x.k0 + i)), a.e + e)
    | _, _ => none

/-- Add one activation row into its tile, column by column. -/
def Core.addRow (c : Core) (ws : List Word) (fmtW : Nat) (tile : List Byte) (ncols ri : Nat) (bs : List MacBlock) : Core × Nat :=
  (List.range ncols).foldl (fun (acc : Core × Nat) n =>
    let ti := tileOf ws ri
    let t := acc.1.tile ti
    let r := accumulate (t.cell (ri % 128) n) t.texp (macTerms fmtW tile bs n)
    (acc.1.setTile ti { t with
      cells := Sparse.put (fun _ => (0 : Int)) t.cells (128 * (ri % 128) + n) r.1, sat := t.sat + r.2 }, acc.2 + r.2))
    (c, 0)

/-- The array runs its active weight tile against every row: the block pairs of the reduction that lie in the tile are added
(R60, R61, R84); a tile into which a poisoned pair goes takes the mark (R50, R104). -/
def State.arrayRun (s : State) (f : Inflight) (core : Nat) (m : MacPart) (tile : List SLine) (c : Core) : Core × Nat :=
  let ws := f.d.words
  let ha := s.coreHandle f.d 0
  let hw := s.coreHandle f.d 1
  let n := arrayBlocks ha.fmt hw.fmt
  let bs := ((blocksOf m.k).drop (f.done * n)).take n
  let ap := ha.part (s.slicePos core f.d) 0
  let wes := m.cols.map fun r => s.scaleCodes f core hw r bs
  let bytes := tile.flatMap (·.bytes)
  let wBad := tile.any (·.poison) || wes.any fun w => w.any Prod.snd
  ((List.range m.rows.length).zip m.rows).foldl (fun (acc : Core × Nat) ir =>
    let mbs := ((List.range bs.length).zip bs).filterMap fun ib =>
      let sp := blockSpan (max ap.1 m.k.1, min ap.2 m.k.2) ib.2
      if sp.2 ≤ sp.1 then none
      else some (MacBlock.mk (s.coreBlock f core ha ir.2 ib.2 sp) (wes.map fun w => w.getD ib.1 (0, true)) (32 * ib.1))
    let c1 := if wBad || mbs.any fun x => x.a.isNone then acc.1.poisonTile (tileOf ws ir.1) else acc.1
    let x := c1.addRow ws hw.fmt bytes m.cols.length ir.1 mbs
    (x.1, acc.2 + x.2)) (c, 0)

/-- The next array tile of a MATMUL: the prescan runs with the first, the shadow tile is swapped in when the active one has been
run.  The prescan reads when it runs (DEDUCED, log entry 58). -/
def State.arrayTile (s : State) (core : Nat) (d : Delivered) : State :=
  let c := s.core core
  match c.inflight.find? fun f => f.d == d with
  | none => s
  | some f =>
    let m := s.macPart core d
    let fa := (s.coreHandle d 0).fmt
    let fw := (s.coreHandle d 1).fmt
    let c0 := if c.active = [] ∧ c.awaiting = none then { c with active := c.shadow, shadow := [] } else c
    if m.rows = [] ∨ arrayTiles fa fw (blocksOf m.k).length ≤ f.done ∨ c0.active.length ≠ arrayLines fa fw then s
    else
      let c1 := if f.done = 0 ∧ !mFlag d.words 1 then s.prescan f core m c0 else c0
      let r := s.arrayRun f core m c0.active c1
      let c2 := { r.1 with active := [], inflight := r.1.inflight.map fun g => if g.d = d then { g with done := f.done + 1 } else g }
      (s.setCore core c2).coreSat core r.2

/-- MATMUL on a core: the array runs the weight tiles that tile loads have brought in, the active and the shadow one.  A manifest
of more array tiles takes further commands of the same row, between its tile loads (DESIGN CHOICE, log entry 139). -/
def State.runMatmul (s : State) (core : Nat) (f : Inflight) : State := (s.arrayTile core f.d).arrayTile core f.d

/-! ### The weight stream (R86, R213) -/

/-- Where the base mooring of a delta holds the byte whose delta stands at physical address `x` (R213, R275). -/
def State.baseAddr (s : State) (d : Delivered) (x : Nat) : Nat :=
  let j := mArg d.words % 128
  let area := fun i => s.rd F.MOR_AREA_ADDR (i / 8) (i % 8) * 64
  area (j / 8 * 8 + s.rd F.MOR_CFG_BASE (j / 8) (j % 8)) + (x - area j)

/-- The manifest reads a delta (R213). -/
def isDelta (ws : List Word) : Bool := mArg ws / 128 % 2 == 1

/-- Read elements `sp` of block b of a row outside the cores, with the base mooring's block added for a delta (R213). -/
def State.weightBlock (s : State) (d : Delivered) (ue : List Nat) (h : Handle) (row : List Nat) (b : Nat) (sp : Nat × Nat) :
    Option Block :=
  let lo := h.addr + h.rowOff row + b * 4 * fmtBits h.fmt
  let c := h.saddr + h.scaleOff row + b
  let by' := spanBytes h.fmt (sp.1, min sp.2 (h.dim 0 - 32 * b))
  let one := fun (fd fc : Nat → Nat) =>
    if s.failures ue fd (lo + by'.1) (by'.2 - by'.1) ≠ [] ∨ s.failures ue fc c 1 ≠ [] then none
    else
      let blk := readRowBlock (fun o => s.readByte ue (fd (lo + (o - b * 4 * fmtBits h.fmt)))) (fun _ => s.readByte ue (fc c))
        h.fmt (h.dim 0) b
      if blk.poisoned then none
      else some ⟨blk.e, ((List.range blk.m.length).zip blk.m).map fun jm => if sp.1 ≤ jm.1 ∧ jm.1 < sp.2 then jm.2 else 0⟩
  let fd := s.xlate d .r lo (32 * fmtBits h.fmt / 8)
  let fc := s.xlate d .r c 1
  let here := one fd fc
  if !isDelta d.words then here
  else match here, one (fun x => s.baseAddr d (fd x)) (fun x => s.baseAddr d (fc x)) with
    | some x, some y => some (blockAdd h.fmt y x).1
    | _, _ => none

/-- The mantissas of a weight column over some blocks, 32 for each. -/
def State.weightCol (s : State) (d : Delivered) (ue : List Nat) (h : Handle) (row : List Nat) (r : Nat × Nat) (bs : List Nat) :
    Bool × List Int :=
  bs.foldl (fun acc b =>
    match s.weightBlock d ue h row b (blockSpan r b) with
    | some x => (acc.1, acc.2 ++ (x.m ++ List.replicate (32 - x.m.length) (0 : Int)))
    | none => (true, acc.2 ++ List.replicate 32 (0 : Int))) (false, [])

/-- A list padded or cut to a length. -/
def padTo {α : Type} (n : Nat) (x : α) (l : List α) : List α := l.take n ++ List.replicate (n - l.length) x

/-- The lines of one staged tile: its 128-row parts one after another, missing columns and rows zero. -/
def State.stageTile (s : State) (d : Delivered) (ue : List Nat) (h : Handle) (cols : List (List Nat)) (r : Nat × Nat)
    (bs : List Nat) : List SLine :=
  let halves := (List.range (stageBlocks h.fmt / 4)).map fun i =>
    cols.map fun row => s.weightCol d ue h row r ((bs.drop (4 * i)).take 4)
  let poison := halves.any fun cs => cs.any Prod.fst
  let ms := halves.flatMap fun cs => padTo 16384 0 (cs.flatMap fun c => padTo 128 0 c.2)
  let bytes := (List.range (ms.length / 32)).flatMap fun i => blockBytes h.fmt ((ms.drop (32 * i)).take 32)
  (List.range (stageLines h.fmt)).map fun i => ⟨(bytes.drop (512 * i)).take 512, poison, d.stream, d.seq⟩

/-- The staged tiles of a core for a WPREFETCH, in ascending K. -/
def State.stageTiles (s : State) (core : Nat) (d : Delivered) (ue : List Nat) (h : Handle) : List SLine :=
  let np := s.slicePos core d
  let cols := (h.coreRows np).take 128
  let bs := h.coreBlocks np
  if cols = [] then []
  else (List.range (ceilDiv bs.length (stageBlocks h.fmt))).flatMap fun kt =>
    s.stageTile d ue h cols (h.part np 0) ((bs.drop (kt * stageBlocks h.fmt)).take (stageBlocks h.fmt))

/-- The sectors that a WPREFETCH reads: the weights', and the base mooring's too for a delta (R213). -/
def State.weightSectors (s : State) (d : Delivered) (h : Handle) : List Nat :=
  let own := (h.sectorList (s.xlate d .r) false).dedup
  own ++ (if isDelta d.words then (own.map (s.baseAddr d)).dedup else [])

/-- WPREFETCH: name the weight tiles of each core of the site, in ascending K; the sectors read are charged, those of the base too
for a delta.  A site with no column to stage completes at once. -/
def State.runWprefetch (s : State) (site : Nat) (d : Delivered) (ue : List Nat) : State :=
  let h := (s.handleOf d (opAddr (mOperand d.words 1))).getD default
  let secs := s.weightSectors d h
  s.metered (s.classOf d.ctx) d site secs [] fun t0 =>
    let t1 := (List.range 16).foldl (fun t i =>
      let core := site * 16 + i
      t.setCore core { t.core core with toStage := (t.core core).toStage ++ s.stageTiles core d ue h }) t0
    let fs := secs.filterMap fun a => (s.readCause ue a).map fun c => (a, c)
    let t2 := (t1.noteReads ue secs).partialFailure d (sectorRanges fs)
    let t3 := if fs = [] then t2 else t2.markStatus d stErr
    if t3.cores.any fun e => e.2.toStage.any fun l => l.stream == d.stream && l.seq == d.seq then t3 else t3.complete d 0

/-! ### The commands: each needs its manifest in flight on the core (WPREFETCH: issued) -/

/-- A hold freezes every unit of the core (R99): WEIGHT, BANK and PORT, not an issue delay. -/
def Core.frozen (c : Core) : Bool := c.hold == 1 || c.hold == 2 || c.hold == 3

/-- The manifest's entry on a core that no hold freezes, where it is in flight and not a NOP. -/
def State.onCore (s : State) (core : Nat) (d : Delivered) : Option Inflight :=
  if s.live d && !(s.core core).frozen then (s.core core).inflight.find? fun f => f.d == d else none

/-- Run a core operation where its manifest is in flight. -/
def State.coreOp (s : State) (core : Nat) (d : Delivered) (run : State → Nat → Inflight → State) :
    Host.Outcome State Fault Refusal :=
  s.actAt (core / 16) (match s.onCore core d with
    | some f => run s core f
    | none => s)

def execMatmul (core : Nat) (d : Delivered) (s : State) : Host.Outcome State Fault Refusal := s.coreOp core d State.runMatmul
def execRequant (core : Nat) (d : Delivered) (s : State) : Host.Outcome State Fault Refusal := s.coreOp core d State.runRequant
def execVec (core : Nat) (d : Delivered) (s : State) : Host.Outcome State Fault Refusal := s.coreOp core d State.runVec
def execVred (core : Nat) (d : Delivered) (s : State) : Host.Outcome State Fault Refusal := s.coreOp core d State.runVred
def execFunc (core : Nat) (d : Delivered) (s : State) : Host.Outcome State Fault Refusal := s.coreOp core d State.runFunc
def execTload (core : Nat) (d : Delivered) (s : State) : Host.Outcome State Fault Refusal := s.coreOp core d State.runTload
def execCopy (core : Nat) (d : Delivered) (s : State) : Host.Outcome State Fault Refusal := s.coreOp core d State.runCopy

def execWprefetch (site : Nat) (d : Delivered) (ue : List Nat) (s : State) : Host.Outcome State Fault Refusal :=
  s.act (if s.live d then s.runWprefetch site d ue else s)

end Sys2Proof.Machine
end

