-- ==== Sys2Proof/Machine/CoreTiming.lean ====
section
/-! DEFINITION. The core's timing state (R86, R87, R93 to R108, R141): issue with its footprint, reads checked against
the valid state, retirement, slips, staging lines and window steps. -/

namespace Sys2Proof.Machine

/-! ### Window steps (R93, R94, R112) -/

/-- The four words of window w of a core. -/
def State.winWordsOf (s : State) (core w : Nat) : Win :=
  [s.reg (F.WIN_BASE_BASE64.key core w), s.reg (F.WIN_LEN_LEN64.key core w), s.reg (F.WIN_STRIDE_STRIDE64.key core w),
   s.reg (F.WIN_HEAD_HEAD64.key core w)]

/-- Step window w: HEAD64 = (HEAD64 + STRIDE64) mod LEN64. -/
def State.stepWin (s : State) (core w : Nat) : State :=
  let len : Int := (s.rd F.WIN_LEN_LEN64 core w : Int)
  let h : Int := (s.rd F.WIN_HEAD_HEAD64 core w : Int) + signed 19 (s.rd F.WIN_STRIDE_STRIDE64 core w)
  s.wr F.WIN_HEAD_HEAD64 core w (h % len).toNat

/-- Step the windows of a mask. -/
def State.stepWins (s : State) (core mask : Nat) : State := (setBitsOf mask 8).foldl (fun t w => t.stepWin core w) s

def execWinStep (core mask : Nat) (s : State) : Host.Outcome State Fault Refusal := s.act (s.stepWins core mask)

/-- WIN_HEAD_WRITE: the write wins over a step of the same clock. -/
def State.headWrite (s : State) (core w : Nat) (v : Word) (stepSame : Bool) : State :=
  let s1 := s.writeField 0x01 core (0x58 + 0x20 * w) v
  if stepSame then s1.event 0x01 core 0 else s1

def execWinHeadWrite (core w : Nat) (v : Word) (stepSame : Bool) (s : State) : Host.Outcome State Fault Refusal :=
  s.act (if w < 8 then s.headWrite core w v stepSame else s)

/-! ### Footprints (R102) -/

/-- Objects of a footprint, each with the window it is accessed through. -/
abbrev Footprint := List (Obj × Nat)

/-- Each object once, with the window of its first access. -/
def Footprint.once (l : Footprint) : Footprint :=
  l.foldl (fun acc e => if acc.any fun x => x.1 == e.1 then acc else acc ++ [e]) []

/-- Lines of elements `r` of dimension 0 of a row, data and scale plane. -/
def rowLines (wins : List Win) (core : Nat) (h : Handle) (r : Nat × Nat) (row : List Nat) : Footprint :=
  (blocksOf r).flatMap fun b =>
    let by' := spanBytes h.fmt (blockSpan r b)
    ((winLines (wins.getD h.dwin []) core (h.dOff row b + by'.1) (by'.2 - by'.1)).map fun o => (o, h.dwin)) ++
      (if h.fmt = 4 then [] else (winLines (wins.getD h.swin []) core (h.sOff row b) 1).map fun o => (o, h.swin))

/-- Lines of a part of a handle. -/
def boxLines (wins : List Win) (core : Nat) (h : Handle) (x : Box) : Footprint :=
  x.rows.flatMap (rowLines wins core h (x.dim 0))

/-- Scale lines of the weight columns that a core takes (R59). -/
def weightScaleLines (wins : List Win) (core : Nat) (h : Handle) (m : MacPart) : Footprint :=
  m.cols.flatMap fun row => (blocksOf m.k).flatMap fun b =>
    (winLines (wins.getD h.swin []) core (h.sOff row b) 1).map fun o => (o, h.swin)

/-- The tiles of the rows of an operation. -/
def tileObjs (ws : List Word) (n : Nat) : Footprint := (tilesUsed ws n).map fun i => (Obj.tile i, 0)

/-- Objects a manifest reads on a core: what its operation reads there (R102, R123); a table only where it is resident (R89). -/
def State.readsOf (s : State) (wins : List Win) (core : Nat) (d : Delivered) : Footprint :=
  let ws := d.words
  let np := s.slicePos core d
  let h := fun i => s.coreHandle d i
  let x := s.outBox core d
  let l := match mOpcode ws with
    | 1 =>
      let m := s.macPart core d
      if m.rows = [] then []
      else boxLines wins core (h 0) ((h 0).box np) ++ weightScaleLines wins core (h 1) m
    | 3 => tileObjs ws (s.requantBox core d).rows.length
    | 5 => (s.vredRows core d).flatMap (rowLines wins core (h 1) ((h 1).part np 0))
    | 7 => (winLines (wins.getD (h 1).dwin []) core (h 1).woff 544).map fun o => (o, (h 1).dwin)
    | _ => ([1, 2, 3].filter (opIsHandle ws)).flatMap (fun i => boxLines wins core (h i) x) ++
        (if mOpcode ws = 6 ∧ ((s.core core).tables.any fun e => e.1 == mTable ws) then [(Obj.table (mTable ws), 0)] else [])
  Footprint.once l

/-- Objects a manifest writes on a core. DEDUCED, log entry 61. -/
def State.writesOf (s : State) (wins : List Win) (core : Nat) (d : Delivered) : Footprint :=
  let ws := d.words
  let h := s.coreHandle d 0
  let out := fun (x : Box) => boxLines wins core h x
  Footprint.once (match mOpcode ws with
    | 1 => tileObjs ws (s.macPart core d).rows.length
    | 3 => out (s.requantBox core d)
    | 5 => (s.vredRows core d).flatMap (rowLines wins core h (0, 1))
    | 7 => [(Obj.table (mTable ws), 0)]
    | _ => out (s.outBox core d))

/-! ### Timetable faults (R105, R106) -/

/-- Object address of a record: a line's address, a tile number or a table code. -/
def objAddr : Obj → Nat
  | .line a _ => a
  | .tile n => n
  | .table c => c

def objClass : Obj → Nat
  | .line _ _ => 0
  | .tile _ => 1
  | .table _ => 2

/-- Record a timetable fault: 1 READ_EARLY, 2 OVERWRITE, 3 DOUBLE_WRITE. -/
def State.ttFault (s : State) (core kind : Nat) (d : Delivered) (o : Obj) (operand window offset : Nat) : State :=
  let off := min offset (2 ^ 24 - 1)
  let s1 := (s.bump F.TC_TT_COUNT_COUNT core).traceRec (core / 16) 1 d.ctx core
    (kind + operand % 4 * 8 + window % 8 * 32 + off * 256) d.addr (objAddr o)
  let s2 := if s1.rd F.TC_TT_INFO_VALID core = 1 then s1
    else
      let t1 := (s1.wr F.TC_TT_MANIFEST_ADDR core 0 d.addr).wr F.TC_TT_LINE_ADDR core 0 (objAddr o)
      let t2 := ((t1.wr F.TC_TT_INFO_KIND core 0 kind).wr F.TC_TT_INFO_OPERAND core 0 operand).wr F.TC_TT_INFO_WINDOW core 0 window
      let t3 := ((t2.wr F.TC_TT_INFO_OBJECT core 0 (objClass o)).wr F.TC_TT_INFO_OFFSET core 0 off).wr F.TC_TT_INFO_VALID core 0 1
      t3.event 0x00 core 0
  if s2.rd F.TC_CTRL_TT_POLICY core = 1 then s2.raise d.ctx 4 0x00 core (objAddr o) d.addr else s2

/-! ### Issue (R98, R100, R102, R103, R105) -/

/-- Mark one written object, accessed through a window. -/
def State.markWrite (s : State) (core : Nat) (f : Inflight) (ow : Obj × Nat) : State :=
  let o := ow.1
  let x := (s.core core).obj o
  let others := x.readers - (if f.reads.contains o then 1 else 0)
  let s1 := if 0 < others then s.ttFault core 2 f.d o 0 ow.2 0 else s
  -- R103: an accumulating array operation follows the array's own earlier writers in order
  let dbl := !x.valid && !(mOpcode f.d.words == 1 && mFlag f.d.words 1)
  let s2 := if dbl then s1.ttFault core 3 f.d o 0 ow.2 0 else s1
  s2.setCore core ((s2.core core).setObj o { x with
    clobbered := x.clobbered || decide (0 < others), poisoned := x.poisoned || dbl, valid := false,
    writer := some (f.d.stream, f.d.seq), wasValid := x.valid })

/-- Mark one read object: its READERS rises. -/
def Core.markRead (c : Core) (o : Obj) : Core := c.setObj o { c.obj o with readers := min 8 ((c.obj o).readers + 1) }

/-- Raise a bad operand found at issue (R143): the event, and the record where none is latched. -/
def State.badOperand (s : State) (d : Delivered) (reason slot : Nat) : State :=
  let j := d.stream % 16
  let p := d.stream / 16
  let s1 := (s.event 0x03 p 1).markStatus d stBadop
  if s1.rd F.STR_BADOP_VALID p j = 1 then s1
  else (((s1.wr F.STR_BADOP_REASON p j reason).wr F.STR_BADOP_SLOT p j slot).wr F.STR_BADOP_ADDR_ADDR p j d.addr).wr
    F.STR_BADOP_VALID p j 1

/-- Reason 3 of a FUNC, which its issue on a core finds: of the reasons of one manifest STR_BADOP holds the lowest (R507). -/
def State.noTableFound (s : State) (d : Delivered) : State :=
  let j := d.stream % 16
  let p := d.stream / 16
  let mine : Bool := match s.issuedOf d with
    | some i => i.latched && s.rd F.STR_BADOP_VALID p j == 1 && s.rd F.STR_BADOP_ADDR_ADDR p j == d.addr
    | none => false
  if mine ∧ 3 < s.rd F.STR_BADOP_REASON p j then
    (((s.event 0x03 p 1).markStatus d stBadop).wr F.STR_BADOP_REASON p j 3).wr F.STR_BADOP_SLOT p j 0
  else s.badOperand d 3 0

/-- The code names neither a built-in nor a resident table (R75, R143 reason 3). -/
def State.noTable (s : State) (core code : Nat) : Bool := decide (8 ≤ code) && !((s.core core).tables.any fun e => e.1 == code)

/-- Every earlier entry of the site's sequence has issued on this core. -/
def State.inTurn (s : State) (core : Nat) (d : Delivered) : Bool :=
  let q := (s.pilot (core / 16)).seq
  q.contains d && ((q.takeWhile fun e => e != d).all fun e =>
    match s.issuedOf e with
    | some i => !i.cores.contains core || (s.core core).inflight.any fun f => f.d == e
    | none => true)

/-- The timeline clock at which a manifest issues: its predecessor's issue clock and its gap, not before the clock reached so far,
and later by the clocks it came late and by the issue delay (R98, R100). -/
def Core.issueAt (c : Core) (gap late : Nat) : Nat :=
  max c.timeline (match c.lastIssue with | some k => k + gap | none => 0) + late + c.delay

/-- Issue a manifest on a core: footprint marked, windows stepped after they are taken. A NOP steps its windows too (DEDUCED, log
entry 57). -/
def State.issueOn (s : State) (core : Nat) (d : Delivered) (nop : Bool) (late : Nat) : State :=
  let wins := (List.range 8).map fun w => s.winWordsOf core w
  let c := s.core core
  let rs := if nop then [] else (s.readsOf wins core d).map Prod.fst
  let wr := if nop then [] else s.writesOf wins core d
  let clk := c.issueAt (mGap d.words) late
  let fBad := !nop && mOpcode d.words == 6 && s.noTable core (mTable d.words)
  let f : Inflight := {
    d := d, reads := rs, writes := wr.map Prod.fst, tainted := [], windows := wins, issueClk := clk, tableOk := !fBad, done := 0,
    before := (wr.filter fun o => rs.contains o.1).map fun o => (o.1, c.obj o.1) }
  let s1 := if fBad then s.noTableFound d else s
  let c1 := rs.foldl Core.markRead c
  let s2 := wr.foldl (fun t o => t.markWrite core f o) (s1.setCore core c1)
  let c2 := s2.core core
  let tabs := if !nop ∧ mOpcode d.words = 7 ∧ !(c2.tables.any fun e => e.1 == mTable d.words)
    then Sparse.insert c2.tables (mTable d.words) default else c2.tables
  (s2.setCore core { c2 with
    inflight := c2.inflight ++ [f], tables := tabs, timeline := clk, lastIssue := some clk, delay := 0,
    hold := if c2.hold = 4 then 0 else c2.hold, ballast := false }).stepWins core (mStepMask d.words)

/-- CORE_ISSUE: with eight in flight the clock counts as an issue delay (R100); nothing issues on a held core (R99). -/
def State.coreIssue (s : State) (core : Nat) (d : Delivered) (late : Nat) : State :=
  match s.issuedOf d with
  | none => s
  | some i =>
    let c := s.core core
    if c.frozen ∨ !i.cores.contains core ∨ !s.inTurn core d ∨ c.inflight.any fun f => f.d == d then s
    else if 8 ≤ c.inflight.length then
      (s.setCore core { c with hold := 4, delay := c.delay + 1 }).bump F.TC_HOLD_ISSUE_COUNT core
    else s.issueOn core d i.asNop late

def execCoreIssue (core : Nat) (d : Delivered) (s : State) (late : Nat := 0) : Host.Outcome State Fault Refusal :=
  s.actAt (core / 16) (s.coreIssue core d late)

/-! ### Reads (R99, R102, R268, R269, R505) -/

/-- Replace the in-flight entry of a manifest. -/
def Core.setInflight (c : Core) (f : Inflight) : Core :=
  { c with inflight := c.inflight.map fun g => if g.d = f.d then f else g }

/-- Taint a manifest's input. -/
def State.taint (s : State) (core : Nat) (f : Inflight) (o : Obj) : State :=
  s.setCore core ((s.core core).setInflight { f with tainted := if f.tainted.contains o then f.tainted else f.tainted ++ [o] })

/-- The state a read is checked against: that before its own issue for an object the manifest also writes. -/
def Core.readState (c : Core) (f : Inflight) (o : Obj) : ObjSt :=
  match f.before.find? fun e => e.1 == o with
  | some e => e.2
  | none => c.obj o

/-- Package address of word i of a line: in a SPREAD window's line each word lies in the next bank (R92). -/
def lineWord (a : Nat) (spread : Bool) (i : Nat) : Nat := if spread then a + i * 0x10_0000 else a + i * 64

/-- What the bank gives for a read of a word: an asleep bank or a double-bit error gives zeros that poison the consumer; corrected
errors are counted. `fx` describes the word's cells. -/
def State.wordRead (s : State) (o : Obj) (i : Nat) (fx : MemFx) : Bool × State :=
  match o with
  | .line a sp =>
    let w := lineWord a sp i
    let site := w / 0x1000_0000
    if !s.bankAwake site (w / 0x10_0000 % 256) then (true, s.asleep site w)
    else
      let t := s.withFx w fx
      let fl := t.flaws 8 w 64
      (fl.any fun u => fxLost u.2, (fl.foldl (fun t u => t.sramFlaw site u) t).settleFx w fx)
  | _ => (false, s)

/-! #### Holds (R92, R95, R99) -/

/-- A hold clock of a cause: 1 WEIGHT, 2 BANK, 3 PORT (R99). -/
def State.holdClock (s : State) (core cause : Nat) : State :=
  let f := match cause with
    | 1 => F.TC_HOLD_WEIGHT_COUNT
    | 2 => F.TC_HOLD_BANK_COUNT
    | _ => F.TC_HOLD_PORT_COUNT
  (s.setCore core { s.core core with hold := cause, held := (s.core core).held + 1 }).bump f core

/-- An access of a core to a word of a line through a window, at a timeline clock. -/
structure Access where
  stream : Nat
  seq    : Nat
  obj    : Obj
  word   : Nat
  window : Nat
  write  : Bool
  clk    : Nat
  deriving DecidableEq, Repr

/-- Hold clocks before an access's clock: those of the clocks before it, not those that accesses of the same clock have brought. -/
def Core.heldBefore (c : Core) (clk : Nat) : Nat := if c.clk.1 = clk then c.clk.2 else c.held

/-- The bank of an access, if it is one to a bank. -/
def Access.bank (x : Access) : Option Nat :=
  match x.obj with
  | .line a sp => some (lineWord a sp x.word / 0x10_0000 % 16)
  | _ => none

/-- Real clock in which the bank's port takes an access: not before its own clock, and when the port is free (R92). -/
def Core.portClock (c : Core) (x : Access) : Nat :=
  let own := x.clk + c.heldBefore x.clk
  match x.bank with
  | some b => max own (Sparse.get (fun _ => 0) (if x.write then c.wport else c.rport) b)
  | none => own

/-- Clocks by which an access falls short of two clocks between a window's reads and writes (R95).  A write uses its window 4
clocks before it retires (R96). -/
def Core.portGap (c : Core) (x : Access) : Nat :=
  match x.bank with
  | none => 0
  | some _ =>
    let now := x.clk + c.held - (if x.write then 4 else 0)
    match Sparse.get (fun _ => 0) c.uses (2 * x.window + (if x.write then 0 else 1)) with
    | 0 => 0
    | u + 1 => if u = now then 0 else 3 - (if u < now then now - u else u - now)

/-- The hold an access meets: cause and clocks; none where it goes through. -/
def Core.holdOf (c : Core) (x : Access) : Option (Nat × Nat) :=
  let n := c.portClock x - (x.clk + c.held)
  if 0 < n then some (2, n) else if 0 < c.portGap x then some (3, c.portGap x) else none

/-- An access goes through: its port is taken, for two clocks by a write, and the window's use is noted. -/
def Core.accessed (c : Core) (x : Access) : Core :=
  let g := c.portClock x
  let k := 2 * x.window + (if x.write then 1 else 0)
  let c1 := { c with hold := 0, waiting := none, timeline := max c.timeline x.clk, clk := (x.clk, c.heldBefore x.clk) }
  match x.bank with
  | none => c1
  | some b =>
    let u := x.clk + c.held - (if x.write then 4 else 0) + 1
    if x.write then { c1 with wport := Sparse.put (fun _ => 0) c.wport b (g + 2), uses := Sparse.put (fun _ => 0) c.uses k u }
    else { c1 with rport := Sparse.put (fun _ => 0) c.rport b (g + 1), uses := Sparse.put (fun _ => 0) c.uses k u }

/-- The access is the one that waits. -/
def CoreWait.isFor (w : CoreWait) (x : Access) : Bool :=
  w.stream == x.stream && w.seq == x.seq && w.obj == x.obj && w.word == x.word && w.write == x.write

/-- Present an access: it holds the timeline one clock at a time until its port is free and its window's gap complete, and then
`go` follows.  Another access of a held core waits with it (R99).  The accesses of one clock come in window-number order (R92;
DEDUCED, log entry 140). -/
def State.access (s : State) (core : Nat) (x : Access) (go : State → State) : State :=
  let c := s.core core
  let hold := fun (cause n : Nat) =>
    (s.setCore core { c with
      waiting := some ⟨x.stream, x.seq, x.obj, x.word, x.write, cause, n - 1⟩
      clk := (x.clk, c.heldBefore x.clk), timeline := max c.timeline x.clk }).holdClock core cause
  let pass := go (s.setCore core (c.accessed x))
  match c.waiting with
  | some w =>
    if !w.isFor x then s
    else if 0 < w.owed then hold w.cause w.owed
    else if w.cause = 2 ∧ 0 < c.portGap x then hold 3 (c.portGap x)
    else pass
  | none =>
    if c.frozen then s
    else match c.holdOf x with
      | some (cause, n) => hold cause n
      | none => pass

/-- CORE_READ: the word's read, checked against the object's valid state. -/
def State.readWord (s : State) (core : Nat) (f : Inflight) (o : Obj) (word operand window offset : Nat) (fx : MemFx) : State :=
  let x := (s.core core).readState f o
  let r := s.wordRead o word fx
  if !x.valid then (r.2.ttFault core 1 f.d o operand window offset).taint core f o
  else if x.clobbered || x.poisoned || r.1 then r.2.taint core f o
  else r.2

def State.coreRead (s : State) (core stream seq : Nat) (o : Obj) (word operand window offset : Nat) (fx : MemFx) : State :=
  match (s.core core).inflight.find? fun f => f.d.stream == stream && f.d.seq == seq with
  | none => s
  | some f => s.access core ⟨stream, seq, o, word, window, false, f.issueClk + offset⟩ fun t =>
      t.readWord core f o word operand window offset fx

def execCoreRead (core stream seq : Nat) (o : Obj) (word operand window offset : Nat) (fx : MemFx) (s : State) :
    Host.Outcome State Fault Refusal := s.actAt (core / 16) (s.coreRead core stream seq o word operand window offset fx)

/-! ### Staging (R86, R87) -/

/-- Read the lines of a tile load in order into the shadow tile, clearing their fill bits, up to a line that has not landed. -/
def Core.loadLines (c : Core) (line : Nat) : Nat → Core
  | 0 => { c with awaiting := none }
  | n + 1 =>
    match c.staging.find? fun e => e.1 == line % 512 with
    | some e => Core.loadLines { c with shadow := c.shadow ++ [e.2], staging := c.staging.filter fun g => g.1 != e.1 } (line + 1) n
    | none => { c with awaiting := some (line % 512, n + 1) }

/-- Go on with a tile load; a line that has not landed holds the timeline (R87). -/
def State.loadFrom (s : State) (core line n : Nat) : State :=
  let c := (s.core core).loadLines line n
  let s1 := s.setCore core { c with hold := 0 }
  if c.awaiting.isSome then s1.holdClock core 1 else s1

/-- TILE_LOAD: the lines go to the shadow tile; a tile that waits there is swapped into the active one, or lost where the array
has not yet run that.  On a core that a line holds the load goes on waiting for it. -/
def State.tileLoad (s : State) (core firstLine lines : Nat) : State :=
  let c := s.core core
  if c.hold = 1 then s.holdClock core 1
  else if c.frozen then s
  else
    let c1 := if c.active = [] then { c with active := c.shadow, shadow := [] } else { c with shadow := [] }
    (s.setCore core c1).loadFrom core firstLine lines

def execTileLoad (core firstLine lines : Nat) (s : State) : Host.Outcome State Fault Refusal :=
  s.actAt (core / 16) (s.tileLoad core firstLine lines)

/-- STAGING_LINE_LANDS: the next line of the weight stream lands on a line whose fill bit is clear.  A tile load that waits for
that line ends its hold and goes on.  A WPREFETCH completes when its last line has landed. -/
def State.lineLands (s : State) (core line : Nat) : State :=
  let c := s.core core
  match c.toStage with
  | [] => s
  | x :: rest =>
    if 512 ≤ line ∨ c.staging.any fun e => e.1 == line then s
    else
      let s1 := s.setCore core { c with toStage := rest, staging := Sparse.insert c.staging line x }
      let s2 := match c.awaiting with
        | some (l, n) => if l = line then s1.loadFrom core line n else s1
        | none => s1
      if s2.cores.any fun e => e.2.toStage.any fun l => l.stream == x.stream && l.seq == x.seq then s2
      else s2.setStream x.stream { s2.stream x.stream with
        issued := (s2.stream x.stream).issued.map fun i => if i.d.seq = x.seq then i.done s2.tide else i }

def execStagingLineLands (core line : Nat) (s : State) : Host.Outcome State Fault Refusal := s.act (s.lineLands core line)

/-! ### Retirement (R102, R108) -/

/-- CORE_WRITE_RETIRE: the last write of the object's last-issued writer makes it VALID. -/
def State.writeRetire (s : State) (core stream seq : Nat) (o : Obj) (last : Bool) : State :=
  let x := (s.core core).obj o
  if last ∧ x.writer = some (stream, seq) then
    s.setCore core ((s.core core).setObj o { x with
      valid := true, poisoned := x.poisoned && !x.wasValid, writer := none, wasValid := true })
  else s

/-- The write that retires has passed its bank's port and its window's change of direction (R92, R95). -/
def State.coreWriteRetire (s : State) (core stream seq : Nat) (o : Obj) (word window offset : Nat) (last : Bool) : State :=
  match (s.core core).inflight.find? fun f => f.d.stream == stream && f.d.seq == seq with
  | none => if (s.core core).frozen then s else s.writeRetire core stream seq o last
  | some f => s.access core ⟨stream, seq, o, word, window, true, f.issueClk + offset⟩ fun t => t.writeRetire core stream seq o last

def execCoreWriteRetire (core stream seq : Nat) (o : Obj) (last : Bool) (s : State) (word : Nat := 0) (window : Nat := 0)
    (offset : Nat := 0) :
    Host.Outcome State Fault Refusal := s.actAt (core / 16) (s.coreWriteRetire core stream seq o word window offset last)

/-- Drop a reader of an object. -/
def Core.unread (c : Core) (o : Obj) : Core :=
  let x := c.obj o
  c.setObj o { x with readers := x.readers - 1, clobbered := x.clobbered && decide (1 < x.readers) }

/-- A slip of a manifest (R108). -/
def State.slip (s : State) (core : Nat) (d : Delivered) (actual held : Nat) : State :=
  if mDeclared d.words + s.rd F.TC_CTRL_SLIP_THRESH core < actual then
    let a := min actual (2 ^ 24 - 1)
    let h := min held (2 ^ 15 - 1)
    let s1 := s.bump F.TC_SLIP_COUNT_COUNT core
    let s2 := if s1.rd F.TC_CTRL_SLIP_TRACE core = 1 then
        s1.traceRec (core / 16) 2 d.ctx core (mDeclared d.words) (a + h * 2 ^ 24) d.addr else s1
    if s2.rd F.TC_SLIP_INFO_VALID core = 1 then s2
    else
      let t := ((s2.wr F.TC_SLIP_MANIFEST_ADDR core 0 d.addr).wr F.TC_SLIP_INFO_DECLARED core 0 (mDeclared d.words)).wr
        F.TC_SLIP_INFO_ACTUAL core 0 a
      ((t.wr F.TC_SLIP_INFO_HELD core 0 h).wr F.TC_SLIP_INFO_VALID core 0 1).event 0x00 core 1
  else s

/-- The manifest has retired on a core: its stream's record drops the core and is complete when none is left; the
site's sequence drops an entry that all its cores have retired. -/
def State.dropCore (s : State) (core : Nat) (d : Delivered) : State :=
  let st := s.stream d.stream
  let s1 := s.setStream d.stream { st with issued := st.issued.map fun i =>
    if i.d = d then
      (if (i.cores.filter (· != core)).isEmpty then { i with cores := [] }.done s.tide
        else { i with cores := i.cores.filter (· != core) })
    else i }
  let left := (st.issued.find? fun i => i.d == d).any fun i => (i.cores.filter (· != core)).any fun x => x / 16 == core / 16
  if left then s1
  else s1.setPilot (core / 16) { s1.pilot (core / 16) with seq := (s1.pilot (core / 16)).seq.filter (· != d) }

/-- CORE_MANIFEST_RETIRE: the oldest manifest in flight retires, with its duration and the hold clocks within it. -/
def State.manifestRetireOn (s : State) (core actual held : Nat) : State :=
  let c := s.core core
  match c.inflight with
  | [] => s
  | f :: rest =>
    if c.frozen then s else
    let c1 := f.reads.foldl Core.unread { c with inflight := rest }
    ((s.setCore core c1).slip core f.d actual held).dropCore core f.d

def execCoreManifestRetire (core actual held : Nat) (s : State) : Host.Outcome State Fault Refusal :=
  s.actAt (core / 16) (s.manifestRetireOn core actual held)

/-! ### Group delivery (R141) -/

/-- The entry number of an engine's queue. -/
def engineKey : Engine → Nat
  | .coreSeq n => n
  | .weights n => 0x400 + n
  | .copier n => 0x800 + n
  | .adder n => 0xC00 + n
  | .ferry n => 0x1000 + n
  | .landing n => 0x1400 + n
  | .mooring n => 0x1800 + n
  | .deferral n => 0x1C00 + n
  | .pontoon n => 0x2000 + n
  | .opt n => 0x2800 + n
  | .ckpt => 0x2C00

/-- Put an entry into an engine's queue. -/
def State.enqueue (s : State) (e : Engine) (d : Delivered) : State :=
  let q := s.engineQ (engineKey e)
  s.setEngineQ (engineKey e) { q with entries := q.entries ++ [d] }

/-- GROUP_DELIVER: a group manifest that was sent joins the site's core issue sequence. -/
def State.groupDeliver (s : State) (site : Nat) (d : Delivered) (late : Bool) : State :=
  let p := s.pilot site
  if p.group.contains d then
    let s1 := (s.setPilot site { p with group := p.group.erase d }).enqueue (.coreSeq site) d
    if late then (s1.bump F.PIL_GROUP_LATE_COUNT site).event 0x02 site 1 else s1
  else s

def execGroupDeliver (site : Nat) (d : Delivered) (late : Bool) (s : State) : Host.Outcome State Fault Refusal :=
  s.act (s.groupDeliver site d late)

end Sys2Proof.Machine
end

