-- ==== Sys2Proof/Machine/Engines.lean ====
section
/-! DEFINITION. Engine queues (R142, R400): which engine executes a manifest, taking the next entry, and finishing it. -/

namespace Sys2Proof.Machine

/-- The enabled stage whose main stream a stream is, the lowest of several (DEDUCED, log entry 18). -/
def State.stageOf (s : State) (stream : Nat) : Option Nat :=
  (List.range 16).find? fun g => s.rd F.DEF_CFG_ENABLE g == 1 && s.rd F.DEF_CFG_MAIN g == stream

/-- The engine that executes a manifest (R118); none for the pilot's own codes. -/
def State.engineOf (s : State) (stream : Nat) (ws : List Word) : Option Engine :=
  let site := stream / 256
  let op := mOpcode ws
  if coreOpcode op then some (.coreSeq site)
  else match op with
    | 0x02 => some (.weights site)
    | 0x09 => some (.copier (pilotOf site))
    | 0x0A => some (.adder (pilotOf site))
    | 0x10 => some (.ferry (bits (mImm ws) 0 7))
    | 0x11 => some (.landing (mArg ws % 64))
    | 0x12 => some (.landing (mArg ws % 64))
    | 0x13 => some (.mooring (mArg ws % 128 / 8))
    | 0x14 => some (.mooring (mArg ws % 128 / 8))
    | 0x15 => some (.deferral ((s.stageOf stream).getD 16))
    | 0x18 => some (.pontoon (mArg ws % 1024))
    | 0x19 => some (.pontoon (1024 + mArg ws / 65536 % 64))
    | 0x1C => some (.opt (mArg ws % 32))
    | 0x1D => some .ckpt
    | _ => none

/-- The manifest is live and its engine has taken it. -/
def State.ready (s : State) (d : Delivered) : Bool :=
  s.live d && match s.engineOf d.stream d.words with
    | some e => (s.engineQ (engineKey e)).cur == some d
    | none => true

/-- Give up the entry in hand of a manifest's engine. -/
def State.letGo (s : State) (d : Delivered) : State :=
  match s.engineOf d.stream d.words with
  | some e =>
    let q := s.engineQ (engineKey e)
    if q.cur = some d then s.setEngineQ (engineKey e) { q with cur := none } else s
  | none => s

/-- The engine reports a manifest complete with STATUS bits and is free again. -/
def State.finish (s : State) (d : Delivered) (status : Nat) : State := (s.letGo d).complete d status

/-- The operation of a foreign context is a segment violation, writes nothing, and completes with ERR (R185, R236,
R403; the completion DEDUCED, log entry 19). -/
def State.foreign (s : State) (d : Delivered) (block inst addr : Nat) : State :=
  (s.segViolation d.ctx block inst addr d.addr).finish d stErr

/-! ### Taking the next entry (R142) -/

/-- Priority of a context (R402). -/
def State.prio (s : State) (ctx : Nat) : Nat := s.rd F.CTX_CFG_PRIO ctx

/-- How recently an engine served a context: 0 never, larger later. -/
def lastServed (served : List Nat) (ctx : Nat) : Nat := if served.contains ctx then served.idxOf ctx + 1 else 0

/-- Entry x goes before the earlier entry y. -/
def State.beats (s : State) (served : List Nat) (x y : Delivered) : Bool :=
  decide (s.prio y.ctx < s.prio x.ctx) ||
    (s.prio x.ctx == s.prio y.ctx && decide (lastServed served x.ctx < lastServed served y.ctx))

/-- The entry an engine takes: the oldest of each context, by priority and least recent service. -/
def State.pick (s : State) (served : List Nat) : List Delivered → Option Delivered
  | [] => none
  | d :: ds =>
    match s.pick served ds with
    | none => some d
    | some x => if s.beats served x d then some x else some d

/-- A page takes no new work: QUIESCE set or ENABLE clear in PG_CTRL (R453). -/
def State.quiesced (s : State) (block inst : Nat) : Bool :=
  bit (s.reg (regKey block inst 0x10)) 0 || !bit (s.reg (regKey block inst 0x10)) 1

/-- The page whose PG_CTRL acts on an engine (R453). -/
def enginePage : Engine → Option (Nat × Nat)
  | .coreSeq site => some (0x02, site)
  | .ferry n => some (0x09, n)
  | .landing n => some (0x0A, n)
  | .deferral n => some (0x0C, n)
  | .pontoon n => if n < 1024 then some (0x0E, n) else none
  | .opt n => if n < 24 then some (0x0F, n) else none
  | .ckpt => some (0x10, 0)
  | _ => none

/-- A context's COMMIT is held at an optimiser unit (R318). -/
def State.behindCommit (s : State) (e : Engine) (ctx : Nat) : Bool :=
  match e with
  | .opt n => s.optHeld.any fun h => h.1 == n * 64 + ctx
  | _ => false

/-- The metered resource and instance that an engine itself is (R169). -/
def engineMeter : Engine → Option (Nat × Nat)
  | .coreSeq site => some (0, site)
  | .ckpt => some (5, 0)
  | _ => none

/-- An entry is eligible while its engine is not quiesced, its class is held neither in ENERGY nor in the engine's own instance
(R171) and no COMMIT of its context is held before it (R318). -/
def State.eligible (s : State) (e : Engine) (d : Delivered) : Bool :=
  let cls := if e == .ckpt then 60 else s.classOf d.ctx
  !s.tollHeld cls 6 0 && !s.behindCommit e d.ctx &&
    (match engineMeter e with
      | some (res, inst) => !s.tollHeld cls res inst
      | none => true) &&
    match enginePage e with
    | some (b, i) => !s.quiesced b i
    | none => true

/-- A stale entry leaves its stream's list: the teardown has already discarded its stream (R400). -/
def State.dropStale (s : State) (d : Delivered) : State := s.stale d.ctx

/-- ENGINE_TAKE: the chosen entry is dropped when its tag is stale; the core issue sequence takes it to its end, any
other engine takes it in hand. -/
def State.engineTake (s : State) (e : Engine) : State :=
  let k := engineKey e
  let q := s.engineQ k
  if q.cur.isSome then s
  else match s.pick q.served (q.entries.filter fun d => s.eligible e d) with
    | none => s
    | some d =>
      let q1 := { q with entries := q.entries.erase d }
      if d.gen ≠ s.gen d.ctx then (s.setEngineQ k q1).dropStale d
      else
        let served := (q.served.filter (· != d.ctx)) ++ [d.ctx]
        match e with
        | .coreSeq site =>
          let s1 := s.setEngineQ k { q1 with served := served }
          s1.setPilot site { s1.pilot site with seq := (s1.pilot site).seq ++ [d] }
        | _ => s.setEngineQ k { q1 with served := served, cur := some d }

def execEngineTake (e : Engine) (s : State) : Host.Outcome State Fault Refusal := s.act (s.engineTake e)

/-! ### Fetching manifests (R125, R128) -/

/-- The 16 words of 128 bytes. -/
def wordsOf (bs : List Byte) : List Word := (List.range 16).map fun i => BitVec.ofNat 64 (leNat ((bs.drop (8 * i)).take 8))

/-- Replace the words whose PATCH_MASK bit is set by the snapshot; bits 0 and 1 are ignored. -/
def patch (ws snap : List Word) : List Word :=
  (List.range 16).map fun i =>
    if 2 ≤ i ∧ mPatch ws / 2 ^ i % 2 = 1 then snap.getD i 0 else ws.getD i 0

/-- Addresses of the manifests of a list. -/
def listAddrs (a n : Nat) : List Nat := (List.range n).map fun i => a + 128 * i

/-- Have a stream walk a list of manifests before anything else of it (R119, R216). -/
def State.walkList (s : State) (id : Nat) (l : ListWalk) : State :=
  let st := s.stream id
  s.setStream id { st with lists := if l.addrs = [] then st.lists else l :: st.lists, registered := false, met := 0 }

end Sys2Proof.Machine
end

