-- ==== Sys2Proof/Machine/Ferries.lean ====
section
/-! DEFINITION. Ferries and landings (R186 to R206, R247, R250). -/

namespace Sys2Proof.Machine

/-! ### Finishing with partial failures (R408) -/

/-- Complete a manifest; failed parts add ERR and an error record. -/
def State.finishWith (s : State) (d : Delivered) (status : Nat) (fs : List FailRange) : State :=
  if fs = [] then s.finish d status else (s.partialFailure d fs).finish d (statusOr status stErr)

/-- Write bytes at an address that a manifest names. -/
def State.ctxWrite (s : State) (d : Delivered) (a : Nat) (bs : List Byte) : List FailRange × State :=
  s.writeThrough (s.xlate d .w a bs.length) a bs

/-- The sectors of a write at an address that a manifest names. -/
def State.writeSectors (s : State) (d : Delivered) (a n : Nat) : List Nat :=
  (sectors a n).map fun x => s.xlate d .w a n (max x a)

/-! ### Core-sliced layout and dense form (R186, R187) -/

/-- The cores of a stage, ascending. -/
def State.stageCores (s : State) (g : Nat) : List Nat :=
  (setBitsOf (s.rd F.DEF_SITES_MASK g) 64).flatMap fun site => (List.range 16).map fun c => site * 16 + c

/-- Row size of the dense form. -/
def denseRow (dim0 fmt : Nat) : Nat := roundUp (ceilDiv (dim0 * fmtBits fmt) 8) 64

/-- Scale bytes of a row. -/
def denseScale (dim0 fmt : Nat) : Nat := if fmt = 4 then 0 else ceilDiv dim0 32

/-- Rows of a tensor of extents `dims`. -/
def rowsOf (dims : List Nat) : Nat := nth dims 1 * nth dims 2 * nth dims 3

/-- Data and scale sizes of the dense form. -/
def Handle.denseData (h : Handle) : Nat := denseRow (h.dim 0) h.fmt * rowsOf h.dims
def Handle.denseScales (h : Handle) : Nat := denseScale (h.dim 0) h.fmt * rowsOf h.dims

/-- Where row (i1, rest) of a core-sliced tensor lies: its core, its row in the part and the part's extent of dimension
1; `rest` numbers dimensions 2 and 3 together. -/
def slicedRow (cores : List Nat) (dim1 i1 rest : Nat) : Nat × Nat × Nat :=
  let q := ceilDiv dim1 cores.length
  let p := i1 / q
  let part := min ((p + 1) * q) dim1 - p * q
  (nth cores p, i1 - p * q + part * rest, part)

/-- A one-row handle at given addresses. -/
def Handle.oneRow (h : Handle) (a c : Nat) : Handle := { h with addr := a, saddr := c, dims := [h.dim 0, 1, 1, 1] }

/-- Addresses of data and scales of a row of a ferry's payload: by ADDR and SADDR, or gathered from the cores' parts. -/
def State.payloadRow (s : State) (ferry : Nat) (h : Handle) (row : List Nat) : Nat × Nat :=
  if s.rd F.FRY_CFG_SLICED ferry = 1 then
    let r := slicedRow (s.stageCores (s.rd F.FRY_CFG_STAGE ferry)) (h.dim 1) (nth row 0) (nth row 1 + h.dim 2 * nth row 2)
    (r.1 * 0x100_0000 + h.addr % 0x100_0000 + denseRow (h.dim 0) h.fmt * r.2.1,
     r.1 * 0x100_0000 + h.saddr % 0x100_0000 + denseScale (h.dim 0) h.fmt * r.2.1)
  else (h.addr + h.rowOff row, h.saddr + h.scaleOff row)

/-- Translation for a payload: gathered parts are physical. -/
def State.payloadXl (s : State) (ferry : Nat) (d : Delivered) : Nat → Nat → Nat → Nat :=
  if s.rd F.FRY_CFG_SLICED ferry = 1 then fun _ _ => id else fun a n => s.xlate d .r a n

/-- The sectors that a payload is read from. -/
def State.payloadSectors (s : State) (ferry : Nat) (d : Delivered) (h : Handle) : List Nat :=
  (h.rows.flatMap fun row =>
    let a := s.payloadRow ferry h row
    (h.oneRow a.1 a.2).sectorList (s.payloadXl ferry d) false).dedup

/-- The bytes of a dense row. -/
def denseBytes (fmt r : Nat) (blocks : List Block) : List Byte :=
  let bs := (blocks.flatMap fun b => blockBytes fmt b.m).take r
  bs ++ List.replicate (r - bs.length) (0 : Byte)

/-- The payload of a transfer in dense form, data then scales, and the failed sectors. -/
def State.payload (s : State) (ferry : Nat) (d : Delivered) (ue : List Nat) (h : Handle) : List Byte × List (Nat × Nat) :=
  let rs := h.rows.map fun row =>
    let a := s.payloadRow ferry h row
    s.readTensor (s.payloadXl ferry d) ue (h.oneRow a.1 a.2)
  let blocks := rs.map fun t => t.rows.headD []
  let data := blocks.flatMap fun b => denseBytes h.fmt (denseRow (h.dim 0) h.fmt) b
  let sc := if h.fmt = 4 then [] else blocks.flatMap fun bl => bl.map fun b => BitVec.ofNat 8 (code 8 b.e)
  (data ++ sc, (rs.flatMap (·.fails)).dedup)

/-! ### FSEND (R189, R250) -/

/-- Transfers a ferry has queued. -/
def Ferry.full (f : Ferry) : Bool := decide (8 ≤ f.queue.length)

/-- An FSEND of a ferry completes with ERR (R227). -/
def State.failSend (s : State) (n : Nat) (d : Delivered) : State := (s.finish d stErr).bump F.FRY_ERR_COUNT n

/-- A manifest enters its ferry's queue; it stays in hand while the queue is full, and fails on a ferry that is down or
disabled (R189, R197). -/
def State.queueXfer (s : State) (d : Delivered) (mb version : Nat) (err : Bool) : State :=
  let n := bits (mImm d.words) 0 7
  let f := s.ferry n
  if s.rd F.FRY_CFG_CTX n ≠ d.ctx then (s.foreign d 0x09 n 0).bump F.FRY_ERR_COUNT n
  else if f.st = .disabled ∨ f.st = .routeDown then s.failSend n d
  else if f.full then s
  else
    let x : Xfer := ⟨d, { FerryHdr.zero with microBatch := mb, version := version }, [], err, false, []⟩
    (s.setFerry n { f with queue := f.queue ++ [x], st := if f.st = .idle then .sending else f.st }).letGo d

/-- FSEND: micro-batch and version from IMM. -/
def execFsend (d : Delivered) (s : State) : Host.Outcome State Fault Refusal :=
  s.act (if s.ready d ∧ mSubop d.words % 2 = 0 then s.queueXfer d (bits (mImm d.words) 16 24) (bits (mImm d.words) 40 16) false else s)

/-- FORWARD FSEND: micro-batch, version and ERR from the descriptor; nothing is sent on a disabled channel (ERR) or at the
ring's last hop. -/
def State.forward (s : State) (d : Delivered) : State :=
  let ch := mArg d.words % 4
  let hop := mArg d.words / 256 % 256
  let n := bits (mImm d.words) 0 7
  let a := opAddr (mOperand d.words 1)
  if s.rd F.PON_JOB_ENABLE 432 ch = 0 then s.failSend n d
  else if s.rd F.PON_JOB_SEQ_SIZE 432 ch - 1 ≤ hop then s.finish d 0
  else if (s.ferry n).full then s
  else
    let fs := s.structFails d a 16
    let s1 := s.noteStruct d 27 a 16
    if fs ≠ [] then (s1.partialFailure d (sectorRanges fs)).failSend n d
    else
      let desc := leNat ((s.winBytes d.wins a 16).getD [])
      s1.queueXfer d (desc % 2 ^ 24) (desc / 2 ^ 24 % 2 ^ 16) (desc / 2 ^ 42 % 2 == 1)

def execForwardFsend (d : Delivered) (s : State) : Host.Outcome State Fault Refusal :=
  s.act (if s.ready d ∧ mSubop d.words % 2 = 1 then s.forward d else s)

/-! ### Transfers (R190 to R196) -/

def State.bond (s : State) (n : Nat) : List Nat := setBitsOf (s.rd F.FRY_PORTS_MASK n) 48

/-- The header of the head transfer. -/
def State.header (s : State) (n : Nat) (x : Xfer) (slot : Nat) (h : Handle) : FerryHdr :=
  let mesh := s.rd F.FRY_CFG_MESH n == 1
  let inc := s.rd F.FRY_TICKET_INCREMENT n
  { destNode := if mesh then s.ownNode else s.rd F.FRY_DEST_NODE n
    srcNode := s.ownNode, ferry := n, landing := s.rd F.FRY_DEST_LANDING n, slot := slot, kind := s.rd F.FRY_CFG_KIND n
    xferSeq := (s.ferry n).xferSeq, srcStage := s.rd F.FRY_CFG_SRC_STAGE n, destStage := s.rd F.FRY_CFG_DEST_STAGE n
    ports := if mesh then 0 else (s.bond n).length
    format := h.fmt, microBatch := x.hdr.microBatch, rank := h.rank, version := x.hdr.version
    rgen := s.rd F.FRY_DEST_RGEN n
    ticket := mkTicket (s.rd F.FRY_TICKET_BOLLARD n) (if inc = 0 then 1 else inc) x.d.ctx x.d.gen x.errTick
    tensorId := h.tid, dataBytes := h.denseData % 2 ^ 32, scaleBytes := h.denseScales % 2 ^ 32, dims := h.dims }

/-- Payload flits of 240 bytes. -/
def chunks (n : Nat) (bs : List Byte) : List (List Byte) := (List.range (ceilDiv bs.length n)).map fun i => (bs.drop (n * i)).take n

/-- Queue a transfer's flits on port i of a bond of n: the header, then every n-th payload flit. -/
def State.sendOnPort (s : State) (ferry : Nat) (hdr : List Byte) (fl : List (List Byte)) (n i p : Nat) : State :=
  let mine := ((List.range fl.length).zip fl).filter fun jf => jf.1 % n == i
  let fs := ((List.range mine.length).zip mine).map fun kf => newFlit 3 1 ferry (kf.1 + 1 == mine.length) kf.2.2
  (newFlit 2 1 ferry mine.isEmpty hdr :: fs).foldl (fun t f => t.queueFlit p f) s

/-- Base and stride of a landing's slots. -/
def State.slotBase (s : State) (l slot : Nat) : Nat := s.rd F.LND_BUF_ADDR l * 64 + slot * (s.rd F.LND_SLOT_BYTES l * 64)

/-- The offset of a slot within a core's near banks, SLICED layout. -/
def State.slotOff (s : State) (l slot : Nat) : Nat :=
  s.rd F.LND_BUF_ADDR l * 64 % 0x100_0000 + slot * (s.rd F.LND_SLOT_BYTES l * 64)

/-- The address of payload byte x of a slot, and how many bytes follow it in one piece. -/
def State.slotPlace (s : State) (l slot : Nat) (h : FerryHdr) (x : Nat) : Nat × Nat :=
  let r := denseRow (nth h.dims 0) h.format
  let ss := denseScale (nth h.dims 0) h.format
  if s.rd F.LND_CFG_LAYOUT l = 0 then
    if x < h.dataBytes then (s.slotBase l slot + x, h.dataBytes - x)
    else (s.slotBase l slot + roundUp h.dataBytes 64 + (x - h.dataBytes), h.dataBytes + h.scaleBytes - x)
  else
    let cores := s.stageCores (l / 4)
    let d1 := nth h.dims 1
    if x < h.dataBytes then
      let p := slicedRow cores d1 (x / r % d1) (x / r / d1)
      (p.1 * 0x100_0000 + s.slotOff l slot + r * p.2.1 + x % r, r - x % r)
    else
      let y := x - h.dataBytes
      let p := slicedRow cores d1 (y / ss % d1) (y / ss / d1)
      (p.1 * 0x100_0000 + s.slotOff l slot + roundUp (r * (p.2.2 * nth h.dims 2 * nth h.dims 3)) 64 + ss * p.2.1 + y % ss,
       ss - y % ss)

/-- The node whose source router sends a mesh-route payload. -/
def payloadNode (h : Handle) : Nat := pilotOf (if h.addr < sramEnd then h.addr / 0x1000_0000 else 27)

/-- The parts of a payload that lie in one piece at their landing and fit a WRITE packet, as (address, offset, length). -/
def placePieces (place : Nat → Nat × Nat) : Nat → Nat → Nat → List (Nat × Nat × Nat)
  | 0, _, _ => []
  | fuel + 1, x, left =>
    if left = 0 then []
    else
      let p := place x
      let n := min (min 4096 left) (max 1 p.2)
      (p.1, x, n) :: placePieces place fuel (x + n) (left - n)

/-- The WRITE packets of a mesh route, of up to 8 data flits, addressed to the slot (R191). -/
def State.writePackets (s : State) (x : Xfer) (hdr : FerryHdr) (src : Nat) (payload : List Byte) : List Packet :=
  (placePieces (s.slotPlace hdr.landing hdr.slot hdr) payload.length 0 payload.length).map fun p =>
    { (default : Packet) with
      dest := s.homeNode p.1, src := src, vc := 1, len := ceilDiv p.2.2 512, op := 2, ctx := x.d.ctx, gen := x.d.gen, addr := p.1
      data := (payload.drop p.2.1).take p.2.2 }

/-- The header of a mesh route, a CTRL packet to the landing in the hub (R191). -/
def ctrlHeader (x : Xfer) (src : Nat) (hdr : List Byte) : Packet :=
  { (default : Packet) with dest := 27, src := src, vc := 0, op := 6, ctx := x.d.ctx, gen := x.d.gen, inlineLen := hdr.length, inl := hdr }

/-- Start the head transfer of a ferry, whose sectors have passed their meters. -/
def State.startHead (s : State) (n : Nat) (ue : List Nat) (x : Xfer) (rest : List Xfer) (slot : Nat) (h : Handle) : State :=
  let f := s.ferry n
  let hdr := s.header n x slot h
  let pl := s.payload n x.d ue h
  let src := payloadNode h
  let mesh := s.rd F.FRY_CFG_MESH n = 1
  let pks := if mesh then s.writePackets x hdr src pl.1 else []
  let s1 := s.noteReads ue (s.payloadSectors n x.d h)
  let s2 := s1.setFerry n { f with
    st := .sending, credits := f.credits.drop 1, xferSeq := (f.xferSeq + 1) % 2 ^ 16,
    queue := { x with hdr := hdr, payload := pl.1, started := true, packets := pks } :: rest }
  let fs := sectorRanges pl.2
  let s3 := if fs = [] then s2 else (s2.partialFailure x.d fs).markStatus x.d (statusOr stErr stPoison)
  if mesh then
    { s3 with net := s3.net ++ ((ctrlHeader x src (hdrBytes hdr) :: pks).map fun p => (src, p)) }.bump F.FRY_SENT_COUNT n 0
      (1 + (pks.map fun (p : Packet) => 1 + p.len).sum)
  else
    let fl := chunks 240 pl.1
    let ports := s.bond n
    ((List.range ports.length).zip ports).foldl (fun t ip => t.sendOnPort n (hdrBytes hdr) fl ports.length ip.1 ip.2) s3

/-- The meter at which a ferry's class is held: ENERGY, MESH at the source node of a mesh route, or VERATH on a port of the bond
(R171, R195). -/
def State.ferryHeld (s : State) (n : Nat) (h : Handle) : Option Nat :=
  let cls := s.classOf (s.rd F.FRY_CFG_CTX n)
  if s.tollHeld cls 6 0 then some 6
  else if s.rd F.FRY_CFG_MESH n = 1 then (if s.tollHeld cls 3 (payloadNode h) then some 3 else none)
  else if (s.bond n).any fun p => s.tollHeld cls 4 p then some 4 else none

/-- A ferry waits for its class's toll. -/
def State.tollWait (s : State) (n : Nat) : State := s.setFerry n { s.ferry n with st := .tollWait }

/-- FERRY_TRANSFER_START: the head transfer takes the head credit.  It waits without error for a bond port that is
training or paused, and in TOLL_WAIT while its class is held, at a meter or at the regulator of a sector of its payload. -/
def State.ferryStart (s : State) (n : Nat) (ue : List Nat) : State :=
  let f := s.ferry n
  match f.queue, f.st with
  | x :: rest, st =>
    if x.started ∨ st = .disabled ∨ st = .routeDown then s
    else if s.rd F.FRY_CFG_MESH n = 0 ∧ ((s.bond n).isEmpty ∨ (s.bond n).any fun p => (s.port p).st != .up) then s
    else match f.credits with
      | [] => s.setFerry n { f with st := .creditWait }
      | slot :: _ =>
        let h := (s.handleOf x.d (opAddr (mOperand x.d.words 0))).getD default
        let cls := s.classOf (s.rd F.FRY_CFG_CTX n)
        match s.ferryHeld n h with
        | some res => (s.tollWait n).markHeld cls res
        | none =>
          let r := s.admitSectors cls ((s.owedOf x.d).getD (s.payloadSectors n x.d h))
          let t := r.2.setOwed x.d r.1
          if r.1 = [] then t.startHead n ue x rest slot h else t.tollWait n
  | [], _ => s

def execFerryTransferStart (ferry : Nat) (ue : List Nat) (s : State) : Host.Outcome State Fault Refusal :=
  s.act (if ferry < 128 then s.ferryStart ferry ue else s)

/-- Flits of the head transfer still to be sent for the first time. -/
def State.unsent (s : State) (n : Nat) : Bool :=
  (s.bond n).any fun p => (s.port p).txQueue.any fun f => (f.type == 2 || f.type == 3) && f.chan == n

/-- The payload of a transfer had failed sectors: the manifest's record carries POISON. -/
def State.payloadFailed (s : State) (d : Delivered) : Bool := (s.issuedOf d).any fun i => i.status / stPoison % 2 == 1

/-- FERRY_SEND_COMPLETE (R194): the last flit has been sent for the first time, or the last WRITE packet has left its source
router. -/
def State.sendComplete (s : State) (n : Nat) : State :=
  let f := s.ferry n
  match f.queue with
  | x :: rest =>
    let sent := if s.rd F.FRY_CFG_MESH n = 1 then !s.net.any fun e => x.packets.contains e.2 && e.1 == e.2.src && e.1 != e.2.dest
      else !s.unsent n
    if x.started ∧ sent then
      let s1 := (s.setFerry n { f with queue := rest, st := if rest = [] then .idle else .sending }).complete x.d 0
      if (s.payloadFailed x.d) then s1.bump F.FRY_ERR_COUNT n else s1
    else s
  | [] => s

def execFerrySendComplete (ferry : Nat) (s : State) : Host.Outcome State Fault Refusal := s.act (s.sendComplete ferry)

/-- Complete FSENDs of a ferry with ERR and count them. -/
def State.failSends (s : State) (n : Nat) (ds : List Delivered) : State :=
  ds.foldl (fun t d => ((t.setOwed d []).complete d stErr).bump F.FRY_ERR_COUNT n) s

/-- Complete transfers with ERR and count them. -/
def State.failXfers (s : State) (n : Nat) (xs : List Xfer) : State := s.failSends n (xs.map (·.d))

/-- The FSENDs that a ferry has accepted and not yet queued complete with ERR (R197). -/
def State.failAccepted (s : State) (n : Nat) : State :=
  let k := engineKey (.ferry n)
  let q := s.engineQ k
  (s.setEngineQ k { q with entries := [], cur := none }).failSends n (q.cur.toList ++ q.entries)

/-- FERRY_ENABLE: a disabled ferry becomes IDLE with its credits reloaded. -/
def State.ferryEnable (s : State) (n : Nat) : State :=
  let f := s.ferry n
  let s1 := s.wr F.FRY_CTRL_ENABLE n 0 1
  if f.st = .disabled then
    s1.setFerry n { f with
      st := if f.queue = [] then .idle else .sending
      credits := (List.range (s.rd F.FRY_CREDIT_COUNT n)).map fun i => s.rd F.FRY_CREDIT_FIRST n + i }
  else s1

def execFerryEnable (ferry : Nat) (s : State) : Host.Outcome State Fault Refusal :=
  s.act (if ferry < 128 then s.ferryEnable ferry else s)

/-- Flits of a stopped transfer leave the ports' queues, and its packets their source router. -/
def State.dropFlits (s : State) (n : Nat) : State :=
  let pks := (s.ferry n).queue.flatMap (·.packets)
  { (s.bond n).foldl (fun t p => t.setPort p { t.port p with
      txQueue := (t.port p).txQueue.filter fun f => !((f.type == 2 || f.type == 3) && f.chan == n) }) s with
    net := s.net.filter fun e => !(pks.contains e.2 && e.1 == e.2.src) }

/-- Send ABORT for a ferry's transfer in progress to the landing it feeds (R345, R405): on the lowest open port of its
bond, or over the control channel on a mesh route (DEDUCED, log entry 27). -/
def State.sendAbort (s : State) (n : Nat) : State :=
  match (s.ferry n).queue.find? (·.started) with
  | none => s
  | some x =>
    let h := x.hdr
    if s.rd F.FRY_CFG_MESH n = 1 then
      { s with out := s.out ++ [Out.ctrl 27 "ABORT" [h.srcNode, h.ferry, h.xferSeq]] }
    else match (s.bond n).find? fun p => s.portOpen p with
      | some p => s.queueFlit p (newFlit 4 (msgVc msgAbort) 0 false (msgPayload h.destNode s.ownNode msgAbort
          (s.rd F.VPT_TRANSIT_TTL 48) (leBytes 2 h.srcNode ++ leBytes 1 h.ferry ++ leBytes 2 h.xferSeq)))
      | none => s

/-- FERRY_DISABLE: the ferry's transfers complete with ERR (DEDUCED, log entry 20). -/
def State.ferryDisable (s : State) (n : Nat) : State :=
  let f := s.ferry n
  let s1 := ((s.wr F.FRY_CTRL_ENABLE n 0 0).dropFlits n).sendAbort n
  ((s1.setFerry n { f with st := .disabled, queue := [] }).failXfers n f.queue).failAccepted n

def execFerryDisable (ferry : Nat) (s : State) : Host.Outcome State Fault Refusal :=
  s.act (if ferry < 128 then s.ferryDisable ferry else s)

/-- FERRY_FLUSH (R227): the transfers not yet started complete with ERR. -/
def State.ferryFlush (s : State) (n : Nat) : State :=
  let f := s.ferry n
  let keep := f.queue.filter (·.started)
  let st := if keep = [] ∧ (f.st = .sending ∨ f.st = .creditWait ∨ f.st = .tollWait) then .idle else f.st
  (s.setFerry n { f with queue := keep, st := st }).failXfers n (f.queue.filter fun x => !x.started)

def execFerryFlush (ferry : Nat) (s : State) : Host.Outcome State Fault Refusal := s.act (s.ferryFlush ferry)

/-- CREDIT_RETURN (R193): the slot joins the tail of the FIFO; a ferry that waited for it sends. -/
def State.creditReturn (s : State) (n slot : Nat) : State :=
  let f := s.ferry n
  s.setFerry n { f with credits := f.credits ++ [slot], st := if f.st = .creditWait then .sending else f.st }

def execCreditReturn (ferry slot : Nat) (s : State) : Host.Outcome State Fault Refusal :=
  s.act (if ferry < 128 then s.creditReturn ferry slot else s)

/-- The ferry enters ROUTE_DOWN (R197). -/
def State.routeDown (s : State) (n : Nat) : State :=
  let f := s.ferry n
  if f.st = .disabled ∨ f.st = .routeDown then s
  else
    (((((s.dropFlits n).sendAbort n).setFerry n { f with st := .routeDown, queue := [] }).event 0x09 n 0).failXfers n f.queue).failAccepted n

/-! ### Landings (R198 to R206) -/

def Landing.entry (l : Landing) (slot : Nat) : LEntry := Sparse.get (fun _ => LEntry.reset) l.entries slot
def Landing.setEntry (l : Landing) (slot : Nat) (e : LEntry) : Landing :=
  { l with entries := Sparse.put (fun _ => LEntry.reset) l.entries slot e }

/-- Bytes of a payload flit: 240 on Verath, 512 on the mesh. -/
def hdrChunk (h : FerryHdr) : Nat := if h.ports = 0 then 512 else 240

/-- Every payload flit of an entry has landed. -/
def LEntry.complete (e : LEntry) : Bool :=
  (List.range (ceilDiv (e.hdr.dataBytes + e.hdr.scaleBytes) (hdrChunk e.hdr))).all fun j => e.placed.contains j

/-- The entry's handle (R200). -/
def State.entryHandle (s : State) (l slot : Nat) (h : FerryHdr) : Handle :=
  let sliced := s.rd F.LND_CFG_LAYOUT l = 1
  let st1 := denseRow (nth h.dims 0) h.format / 64
  let bytes := s.rd F.LND_SLOT_BYTES l * 64
  { addr := (s.slotPlace l slot h 0).1
    saddr := if h.scaleBytes = 0 then 0 else (s.slotPlace l slot h h.dataBytes).1
    woff := (s.rd F.LND_WOFF_DATA l + slot * bytes) % 2 ^ 32
    swoff := (s.rd F.LND_WOFF_SCALE l + slot * bytes) % 2 ^ 32
    tid := h.tensorId, fmt := h.format, windows := s.rd F.LND_CFG_DWIN l + 8 * s.rd F.LND_CFG_SWIN l, rank := h.rank
    slice := if sliced then 0x81 else 0
    dims := h.dims, strides := [st1, st1 * nth h.dims 1, st1 * nth h.dims 1 * nth h.dims 2]
    sstride := denseScale (nth h.dims 0) h.format }

/-- Apply an entry's ticket in the landing's context (R200). -/
def State.landTicket (s : State) (l : Nat) (h : FerryHdr) (err : Bool) : State :=
  let ctx := s.rd F.LND_CFG_CTX l
  let t := setBits (setBits h.ticket 32 12 (s.gen ctx)) 44 6 ctx
  s.ticket (if err then setBits t 15 1 1 else t)

/-- Return an entry's slot to its ferry (R193). -/
def State.slotCredit (s : State) (port : Nat) (h : FerryHdr) : State :=
  if h.ports = 0 then { s with out := s.out ++ [.ctrl 27 "CREDIT_RETURN" [h.ferry, h.slot]] }
  else s.sendMsg port h.srcNode msgCredit (leBytes 1 h.ferry ++ leBytes 1 h.slot)

/-- Make an entry READY: its handle, its place in the order of READY entries, ERR, which is counted, and the ticket (R200,
R229). -/
def State.makeReady (s : State) (l slot : Nat) (err : Bool) : State :=
  let x := s.landing l
  let e := x.entry slot
  let e' := { e with st := .ready, err := err, order := x.clock + 1, handle := (s.entryHandle l slot e.hdr).bytes }
  let s1 := s.setLanding l { x.setEntry slot e' with clock := x.clock + 1 }
  (if err then s1.bump F.LND_ERR_COUNT l else s1).landTicket l e.hdr err

/-- The ferry's previous entry is still FILLING (R201). -/
def Landing.waits (l : Landing) (e : LEntry) : Bool :=
  l.entries.any fun x => x.2.st == .filling && x.2.hdr.srcNode == e.hdr.srcNode && x.2.hdr.ferry == e.hdr.ferry &&
    decide (x.2.serial < e.serial)

/-- The failed entries of a landing become READY with ERR, each once its ferry's previous entry is READY (R201, R202). -/
def State.settleFailed (s : State) (l : Nat) : Nat → State
  | 0 => s
  | fuel + 1 =>
    match (s.landing l).entries.find? fun x => x.2.st == .filling && x.2.fail != 0 && !(s.landing l).waits x.2 with
    | none => s
    | some (slot, e) =>
      let s1 := s.makeReady l slot true
      State.settleFailed (if e.fail = 1 then s1.event 0x0A l 3 else s1) l fuel

/-- A header copy belongs to a transfer whose first copy has arrived on another port of the bond. -/
def Landing.copyOf (x : Landing) (port : Nat) (h : FerryHdr) : Bool :=
  x.seen.any fun e => e.1 == (h.srcNode, h.ferry, h.xferSeq) && !e.2.contains port

/-- Note the port of a header copy; a transfer all of whose copies have arrived is forgotten. -/
def Landing.note (x : Landing) (port : Nat) (h : FerryHdr) : Landing :=
  let k := (h.srcNode, h.ferry, h.xferSeq)
  let ports := match x.seen.find? fun e => e.1 == k && !e.2.contains port with
    | some e => e.2 ++ [port]
    | none => [port]
  let rest := x.seen.filter fun e => e.1 != k
  { x with seen := if h.ports ≤ ports.length then rest else rest ++ [(k, ports)] }

/-- The first header of a transfer: the checks of R199 in their order. -/
def State.firstHeader (s : State) (port : Nat) (h : FerryHdr) : State :=
  let l := h.landing
  let x := s.landing l
  let e := x.entry h.slot
  if s.rd F.LND_CTRL_ENABLE l = 0 then s.event 0x0A l 4
  else if h.rgen ≠ s.gen (s.rd F.LND_CFG_CTX l) then
    ((s.bump F.LND_DROP_COUNT l).stale (s.rd F.LND_CFG_CTX l)).slotCredit port h
  else if h.destStage ≠ s.rd F.DEF_CFG_GSTAGE (l / 4) then (s.event 0x0A l 5).slotCredit port h
  else if s.rd F.LND_CFG_ENTRIES l ≤ h.slot ∨ e.st ≠ .free then s.event 0x0A l 4
  else
    let tooBig := decide (s.rd F.LND_SLOT_BYTES l * 64 < h.dataBytes + h.scaleBytes)
    let e' : LEntry := { LEntry.reset with
      st := .filling, hdr := if tooBig then { h with rank := 0 } else h, port := port, feeds := [port], serial := x.clock + 1
      fail := if tooBig then 2 else 0 }
    let s1 := s.setLanding l { x.setEntry h.slot e' with clock := x.clock + 1 }
    if tooBig then (s1.event 0x0A l 1).settleFailed l 65 else s1

/-- LANDING_HEADER (R199): the header comes once on every port of the bond (R191); the first copy is checked, a further one only
adds its port to those that feed the entry. -/
def State.headerIn (s : State) (port : Nat) (h : FerryHdr) : State :=
  let l := h.landing
  let x := s.landing l
  let e := x.entry h.slot
  let s1 := s.setLanding l (x.note port h)
  if x.copyOf port h then
    if e.st = .filling ∧ e.hdr.srcNode = h.srcNode ∧ e.hdr.ferry = h.ferry ∧ e.hdr.xferSeq = h.xferSeq then
      s1.setLanding l ((s1.landing l).setEntry h.slot { e with feeds := if e.feeds.contains port then e.feeds else e.feeds ++ [port] })
    else s1
  else s1.firstHeader port h

def execLandingHeader (port : Nat) (h : FerryHdr) (s : State) : Host.Outcome State Fault Refusal :=
  s.act (if h.landing < 64 then s.headerIn port h else s)

/-- LANDING_PAYLOAD: flit `pos` of bond port `port`; on a mesh route (port 48) flit `pos` itself, whose WRITE packet leaves the mesh
with its last flit.  The sectors are charged to the landing's class, and a flit waits while a regulator holds it (R169, R171). -/
def State.payloadIn (s : State) (l slot port pos : Nat) (bs : List Byte) : State :=
  let x := s.landing l
  let e := x.entry slot
  let j := if e.hdr.ports = 0 then pos else pos * e.hdr.ports + port
  let lo := j * (hdrChunk e.hdr)
  let total := e.hdr.dataBytes + e.hdr.scaleBytes
  if e.st ≠ .filling ∨ e.fail ≠ 0 ∨ total ≤ lo ∨ e.placed.contains j then s
  else
    let data := (bs.take (hdrChunk e.hdr)).take (total - lo)
    let ps := placePieces (s.slotPlace l slot e.hdr) (data.length + 1) lo data.length
    let ok := s.admitAll (s.classOf (s.rd F.LND_CFG_CTX l)) 27 0 ((ps.flatMap fun p => sectors p.1 p.2.2).dedup)
    if !ok.1 then ok.2
    else
      let s1 := ps.foldl (fun t p => t.store p.1 ((data.drop (p.2.1 - lo)).take p.2.2)) ok.2
      let fin := match ps.getLast? with
        | some p => p.1 + p.2.2
        | none => 0
      let net := if e.hdr.ports = 0 then s1.net.eraseP fun q => q.2.op == 2 && q.2.addr + q.2.data.length == fin else s1.net
      { s1 with net := net }.setLanding l ((s1.landing l).setEntry slot { e with placed := e.placed ++ [j] })

def execLandingPayload (landing slot port pos : Nat) (bytes : List Byte) (s : State) : Host.Outcome State Fault Refusal :=
  s.act (s.payloadIn landing slot port pos bytes)

/-- LANDING_ENTRY_READY; an entry whose ticket carries ERROR has its ERR bit set (DEDUCED, log entry 21). -/
def State.entryReady (s : State) (l slot : Nat) : State :=
  let e := (s.landing l).entry slot
  if e.st = .filling ∧ e.fail = 0 ∧ e.complete ∧ !(s.landing l).waits e then
    (s.makeReady l slot (tktError e.hdr.ticket)).settleFailed l 65
  else s

def execLandingEntryReady (landing slot : Nat) (s : State) : Host.Outcome State Fault Refusal :=
  s.act (s.entryReady landing slot)

/-- Scale byte k of a stopped entry is poisoned: it or a byte of its block did not land (R202). -/
def LEntry.lostScale (e : LEntry) (k : Nat) : Bool :=
  let h := e.hdr
  let gone := fun x => !e.placed.contains (x / hdrChunk h)
  let r := denseRow (nth h.dims 0) h.format
  let ss := denseScale (nth h.dims 0) h.format
  let lo := k / ss * r + k % ss * 4 * fmtBits h.format
  let hi := min (lo + 4 * fmtBits h.format) (k / ss * r + ceilDiv (nth h.dims 0 * fmtBits h.format) 8)
  gone (h.dataBytes + k) || (List.range (hi - lo)).any fun i => gone (lo + i)

/-- A transfer stopped before its payload was complete (R202); an entry that only waits for its ferry's previous one is not
touched. -/
def State.stopEntry (s : State) (l slot : Nat) : State :=
  let e := (s.landing l).entry slot
  if e.st ≠ .filling ∨ e.fail ≠ 0 ∨ e.complete then s
  else
    let lost := (List.range e.hdr.scaleBytes).filter e.lostScale
    let s1 := lost.foldl (fun t k => t.store (s.slotPlace l slot e.hdr (e.hdr.dataBytes + k)).1 [0x80]) s
    (s1.setLanding l ((s1.landing l).setEntry slot { e with fail := 1 })).settleFailed l 65

/-- LANDING_DRAIN (R206). -/
def State.drain (s : State) (l : Nat) : State :=
  (s.landing l).entries.foldl (fun t e =>
    if e.2.st = .ready ∨ e.2.st = .taken then
      (t.setLanding l ((t.landing l).setEntry e.1 LEntry.reset)).slotCredit e.2.port e.2.hdr
    else t) s

def execLandingDrain (landing : Nat) (s : State) : Host.Outcome State Fault Refusal := s.act (s.drain landing)

/-! ### LTAKE and LFREE (R203 to R206) -/

/-- The context that owns a landing, mooring or deferral queue of a stage (R185). -/
def State.stageCtx (s : State) (g : Nat) : Nat := s.rd F.DEF_CFG_CTX g

def viewOf (ws : List Word) : Nat := min 2 (mArg ws / 256 % 4)

/-- The first of two READY entries that a view takes. -/
def viewFirst (view : Nat) (a b : Nat × LEntry) : Bool :=
  if view = 2 then decide (a.2.order < b.2.order) else !atOrAfter 24 a.2.hdr.microBatch b.2.hdr.microBatch

/-- The READY entry that a view takes. -/
def Landing.choose (l : Landing) (view : Nat) : Option (Nat × LEntry) :=
  (l.entries.filter fun e => e.2.st == .ready && (view == 2 || e.2.hdr.kind == view)).foldl (fun acc e =>
    match acc with
    | none => some e
    | some x => if viewFirst view e x then some e else acc) none

/-- The 16-byte descriptor of an entry (R203). -/
def entryDesc (slot : Nat) (e : LEntry) : List Byte :=
  leBytes 16 (e.hdr.microBatch + e.hdr.version * 2 ^ 24 + e.hdr.kind * 2 ^ 40 + e.err.toNat * 2 ^ 42 + slot * 2 ^ 48)

/-- Take an entry: handle, descriptor, and the last micro-batch taken. -/
def State.takeEntry (s : State) (d : Delivered) (l : Nat) (slot : Nat) (e : LEntry) : State :=
  let ws := d.words
  let x := s.landing l
  let w1 := s.ctxWrite d (opAddr (mOperand ws 0)) e.handle
  let w2 := if opPresent (mOperand ws 1) then w1.2.ctxWrite d (opAddr (mOperand ws 1)) (entryDesc slot e) else ([], w1.2)
  let x1 := { x.setEntry slot { e with st := .taken, view := viewOf ws, order := x.clock + 1 } with
    clock := x.clock + 1
    lastFwd := if e.hdr.kind = 0 then e.hdr.microBatch else x.lastFwd
    lastBwd := if e.hdr.kind = 1 then e.hdr.microBatch else x.lastBwd }
  let s1 := w2.2.setLanding l x1
  if mArg ws / 1024 % 2 = 1 ∧ bits (mImm ws) 0 24 ≠ e.hdr.microBatch then
    (s1.event 0x0A l 2).finishWith d stErr (w1.1 ++ w2.1)
  else s1.finishWith d 0 (w1.1 ++ w2.1)

/-- LTAKE: an empty view is an underrun, which writes a handle of RANK 0. DEDUCED, log entry 77. -/
def State.ltake (s : State) (d : Delivered) : State :=
  let l := mArg d.words % 64
  if s.stageCtx (l / 4) ≠ d.ctx then s.foreign d 0x0A l 0
  else
    let a1 := opAddr (mOperand d.words 1)
    let secs := s.writeSectors d (opAddr (mOperand d.words 0)) 64 ++
      (if opPresent (mOperand d.words 1) then s.writeSectors d a1 16 else [])
    s.metered (s.classOf d.ctx) d 27 [] secs fun t =>
      match (t.landing l).choose (viewOf d.words) with
      | some (slot, e) => t.takeEntry d l slot e
      | none =>
        let w := t.ctxWrite d (opAddr (mOperand d.words 0)) (List.replicate 64 (0 : Byte))
        (w.2.event 0x0A l 0).finishWith d 0 w.1

def execLtake (d : Delivered) (s : State) : Host.Outcome State Fault Refusal := s.act (if s.ready d then s.ltake d else s)

/-- LFREE: the oldest entry taken through the view. -/
def State.lfree (s : State) (d : Delivered) : State :=
  let l := mArg d.words % 64
  let x := s.landing l
  if s.stageCtx (l / 4) ≠ d.ctx then s.foreign d 0x0A l 0
  else
    let taken := x.entries.filter fun e => e.2.st == .taken && e.2.view == viewOf d.words
    match taken.foldl (fun (acc : Option (Nat × LEntry)) e =>
      match acc with
      | none => some e
      | some y => if e.2.order < y.2.order then some e else acc) none with
    | none => s.finish d stErr
    | some (slot, e) => ((s.setLanding l (x.setEntry slot LEntry.reset)).slotCredit e.port e.hdr).finish d 0

def execLfree (d : Delivered) (s : State) : Host.Outcome State Fault Refusal := s.act (if s.ready d then s.lfree d else s)

end Sys2Proof.Machine
end

