-- ==== Sys2Proof/Machine/Stages.lean ====
section
/-! DEFINITION. Moorings, the deferral queue and phase timers (R207 to R226). -/

namespace Sys2Proof.Machine

/-! ### Moorings (R207 to R211) -/

/-- A field of mooring m. -/
def State.mor (s : State) (f : FieldRef) (m : Nat) : Nat := s.rd f (m / 8) (m % 8)

/-- The mooring that a DELTA mooring is based on, of the same stage. -/
def State.morBase (s : State) (m : Nat) : Nat := m / 8 * 8 + s.mor F.MOR_CFG_BASE m

/-- Publish a mooring: false where it is refused with BUSY (R208). DEDUCED, log entry 78. -/
def State.publish (s : State) (m : Nat) : Bool × State :=
  let delta := s.mor F.MOR_CFG_FORM m = 1
  let b := s.morBase m
  if (s.mooring m).live ∨ (delta ∧ (!(s.mooring b).live ∨ s.mor F.MOR_CFG_FORM b = 1 ∨ (s.mooring b).count = 65535)) then
    (false, s.event 0x0B (m / 8) 4)
  else
    let s1 := s.setMooring m { count := 1, live := true }
    (true, if delta then s1.setMooring b { s1.mooring b with count := (s1.mooring b).count + 1 } else s1)

/-- MOORING_PUBLISH. -/
def execMooringPublish (mooring : Nat) (s : State) : Host.Outcome State Fault Refusal :=
  s.act (if mooring < 128 then (s.publish mooring).2 else s)

/-- Drop a reference; a mooring whose count reaches 0 becomes FREE, signals REL_BOL and drops its base (R211). `fuel`:
a base is never DELTA, so two levels suffice. -/
def State.dropRef (s : State) : Nat → Nat → State
  | 0, _ => s
  | fuel + 1, m =>
    let x := s.mooring m
    if 1 < x.count then s.setMooring m { x with count := x.count - 1 }
    else
      let s1 := s.setMooring m { count := 0, live := false }
      let s2 := (s1.signal (s.stageCtx (m / 8)) (s.mor F.MOR_CFG_REL_BOL m) 1 false 0).event 0x0B (m / 8) 5
      if s.mor F.MOR_CFG_FORM m = 1 then State.dropRef s2 fuel (s.morBase m) else s2

/-- A mooring operation that is not applied completes with ERR (R209, R210). -/
def State.morFail (s : State) (d : Delivered) (m ev : Nat) : State :=
  ((s.event 0x0B (m / 8) ev).bump F.MOR_ERR_COUNT (m / 8)).finish d stErr

/-- A mooring operation of another context (R185, R231). -/
def State.morForeign (s : State) (d : Delivered) (m : Nat) : State :=
  (s.foreign d 0x0B (m / 8) 0).bump F.MOR_ERR_COUNT (m / 8)

/-- MGET. -/
def State.mget (s : State) (d : Delivered) : State :=
  let m := mArg d.words % 128
  let x := s.mooring m
  if s.stageCtx (m / 8) ≠ d.ctx then s.morForeign d m
  else if !x.live then s.morFail d m 3
  else if x.count = 65535 then s.morFail d m 2
  else if bit (mImm d.words) 16 ∧ bits (mImm d.words) 0 16 ≠ s.mor F.MOR_CFG_VERSION m then s.morFail d m 0
  else (s.setMooring m { x with count := x.count + 1 }).finish d 0

def execMget (d : Delivered) (s : State) : Host.Outcome State Fault Refusal := s.act (if s.ready d then s.mget d else s)

/-- MPUT. -/
def State.mput (s : State) (d : Delivered) : State :=
  let m := mArg d.words % 128
  if s.stageCtx (m / 8) ≠ d.ctx then s.morForeign d m
  else if (s.mooring m).count = 0 then s.morFail d m 1
  else (s.dropRef 2 m).finish d 0

def execMput (d : Delivered) (s : State) : Host.Outcome State Fault Refusal := s.act (if s.ready d then s.mput d else s)

/-- MOORING_HOST_RELEASE: an MPUT by the host. -/
def State.hostRelease (s : State) (m : Nat) : State :=
  if (s.mooring m).count = 0 then (s.event 0x0B (m / 8) 1).bump F.MOR_ERR_COUNT (m / 8) else s.dropRef 2 m

def execMooringHostRelease (mooring : Nat) (s : State) : Host.Outcome State Fault Refusal :=
  s.act (if mooring < 128 then s.hostRelease mooring else s)

/-! ### Manifests of lists (R119, R219) -/

/-- A SUBRING or DPUSH that waits for a list to retire. -/
def Issued.waitsList (i : Issued) (op : Nat) : Bool := mOpcode i.d.words == op && !i.complete && !i.asNop

/-- A manifest of a list may retire past the container that waits for the list. -/
def Issued.passes (i c : Issued) : Bool :=
  (decide (1 ≤ i.place) && c.waitsList 0x21) || (decide (3 ≤ i.place) && c.waitsList 0x15)

/-- Complete the last waiting container of a code in a stream, the innermost: a SUBRING or DPUSH whose list has retired. -/
def completeLast (t : Tide) (op : Nat) : List Issued → List Issued
  | [] => []
  | i :: is => if i.waitsList op && !is.any (fun x => x.waitsList op) then i.done t :: is else i :: completeLast t op is

/-- The container of a list completes. -/
def State.listDone (s : State) (id op : Nat) : State :=
  s.setStream id { s.stream id with issued := completeLast s.tide op (s.stream id).issued }

/-! ### Phase records (R224 to R226) -/

/-- Write a phase record into a stage's ring. -/
def State.phaseRecord (s : State) (g start stop mb phase flags info : Nat) : State :=
  let len := s.rd F.PHT_LEN_LEN g
  if len = 0 then s
  else
    let x := s.stage g
    let i := x.phtIdx % len
    let bs := leBytes 8 start ++ leBytes 8 stop ++ leBytes 3 mb ++ leBytes 1 phase ++
      leBytes 2 (s.rd F.DEF_CFG_GSTAGE g) ++ leBytes 2 flags ++ leBytes 8 info
    let ctx := s.rd F.DEF_CFG_CTX g
    let s1 := s.recordWrite ctx (s.classOf ctx) (s.rd F.PHT_RING_BASE g * 32 + 32 * i) bs
    let s2 := s1.setStage g { s1.stage g with phtIdx := (i + 1) % len }
    if i + 1 = len then s2.event 0x0D g 0 else s2

/-- INFO of a mark: IMM [63:24] for USER. -/
def markInfo (ws : List Word) (phase : Nat) : Nat := if phase = 6 then bits (mImm ws) 24 40 else 0

/-- FLAGS [3] of a phase record: ERR, where a manifest of the phase retired with ERR (DEDUCED, log entry 148). -/
def phaseErr (err : Bool) : Nat := if err then 8 else 0

/-- A start mark issued at `t`: an open record of the phase is written with END = 0. -/
def State.phaseStart (s : State) (g : Nat) (ws : List Word) (t : Nat) : State :=
  let ph := mSubop ws % 8
  let x := s.stage g
  let s1 := match x.openPh.find? fun o => o.phase == ph with
    | some o => s.phaseRecord g o.start 0 o.mb ph (phaseErr o.err) o.info
    | none => s
  s1.setStage g { s1.stage g with
    openPh := x.openPh.filter (fun o => o.phase != ph) ++ [⟨ph, bits (mImm ws) 0 24, t, markInfo ws ph, false⟩] }

/-- An end mark, reached at `t`, writes the open record; without one it writes none. -/
def State.phaseEnd (s : State) (g : Nat) (ws : List Word) (t : Nat) : State :=
  let ph := mSubop ws % 8
  let x := s.stage g
  match x.openPh.find? fun o => o.phase == ph with
  | some o =>
    let s1 := s.phaseRecord g o.start t (bits (mImm ws) 0 24) ph (phaseErr o.err) (markInfo ws ph)
    s1.setStage g { s1.stage g with openPh := x.openPh.filter fun o => o.phase != ph }
  | none => s

/-- Every manifest of the stream before this one has retired, the containers of the lists it stands in aside. -/
def State.oldest (s : State) (d : Delivered) : Bool :=
  match (s.stream d.stream).issued.find? fun i => i.d == d with
  | some m => ((s.stream d.stream).issued.takeWhile fun i => i.d != d).all fun c => m.passes c
  | none => false

/-- PHASE_MARK: a STAMP with SUBOP [7] (R225).  A start mark records the tide of its issue; an end mark waits until every earlier
manifest has retired, and records when the last of them did. -/
def State.phaseMark (s : State) (d : Delivered) : State :=
  let ws := d.words
  let t := ((s.issuedOf d).map (·.tide)).getD 0
  match s.stageOf d.stream with
  | none => s.complete d 0
  | some g =>
    if mSubop ws / 64 % 2 = 0 then (s.phaseStart g ws t).complete d 0
    else if s.oldest d then (s.phaseEnd g ws (max t (s.stream d.stream).lastRetire)).complete d 0 else s

def execPhaseMark (d : Delivered) (s : State) : Host.Outcome State Fault Refusal :=
  s.act (if s.live d ∧ mOpcode d.words = 0x23 ∧ 128 ≤ mSubop d.words then s.phaseMark d else s)

/-- A manifest of a stage's main stream retired with ERR: the open phases and the entry being run carry it (R224). -/
def State.phaseFailed (s : State) (id place : Nat) : State :=
  match s.stageOf id with
  | none => s
  | some g =>
    let x := s.stage g
    s.setStage g { x with
      openPh := x.openPh.map fun o => { o with err := true }
      runs := match x.runs with
        | r :: rest => (if 3 ≤ place then { r with flags := r.flags % 8 + 8 } else r) :: rest
        | [] => [] }

/-! ### The deferral queue (R215 to R220) -/

/-- Landing bollards of a stage, with the landing. -/
def State.landingBollards (s : State) (g : Nat) : List (Nat × Nat) :=
  (List.range 4).flatMap fun i =>
    let l := 4 * g + i
    [(s.rd F.LND_BOL_FBOL l, l), (s.rd F.LND_BOL_BBOL l, l), (s.rd F.LND_BOL_GBOL l, l)]

/-- The landings of a stage that some wait slots of a manifest name, by slot. -/
def State.landingSlots (s : State) (g : Nat) (d : Decoded) (slots : List Nat) : List (Nat × Nat) :=
  slots.filterMap fun i =>
    ((s.landingBollards g).find? fun bl => bl.1 == wordBollard (mWait d.words i)).map fun bl => (i, bl.2)

/-- The landings on which the head of a stage's main stream waits (R217). -/
def State.landingWaits (s : State) (g : Nat) : List Nat :=
  let st := s.stream (s.rd F.DEF_CFG_MAIN g)
  match st.store with
  | d :: _ => (s.landingSlots g d (setBitsOf (s.unmet st) 4)).map Prod.snd
  | [] => []

/-- Write the LWAIT record of a wait on landing `l` (R226).  Its micro-batch number is not stated: a free value (log entry 22). -/
def State.lwait (s : State) (g l start stop : Nat) (err : Bool) : State :=
  if s.rd F.PHT_CFG_AUTO g = 0 ∨ start = stop ∨ s.rd F.PHT_LEN_LEN g = 0 then s
  else { s.phaseRecord g start stop (Config.freeNat s.free % 2 ^ 24) 3 (phaseErr err) l with free := s.free + 1 }

/-- The head's waits on landings that have been met end at their arrival (R226). -/
def State.metWaits (s : State) (id : Nat) : State :=
  let st := s.stream id
  match s.stageOf id, st.store with
  | some g, d :: _ =>
    (s.landingSlots g d (st.metAt.map Prod.fst)).foldl (fun t e =>
      match st.metAt.find? fun m => m.1 == e.1 with
      | some m => t.lwait g e.2 m.2.1 m.2.2 st.headErr
      | none => t) s
  | _, _ => s

/-- The head's waits on landings that are not met end as the stream leaves WAITING: a fill starts, a timeout, a STOP, a CANCEL or a
teardown (R226). -/
def State.endWaits (s : State) (id : Nat) : State :=
  match s.stageOf id with
  | some g =>
    if (s.stream id).st = .waiting ∧ (s.stream id).parked = none then
      (s.landingWaits g).foldl (fun t l => t.lwait g l (s.stream id).waitSince (s.siteNow (id / 256)) false) s
    else s
  | none => s

/-- Walk a deferral entry in the main stream, ahead of what is decoded (R216). -/
def State.runEntry (s : State) (g : Nat) (e : DefEntry) (flags : Nat) (push : Option DefEntry) : State :=
  let id := s.rd F.DEF_CFG_MAIN g
  let st := s.stream id
  let s1 := s.setStage g { s.stage g with runs := ⟨e, flags, none, push⟩ :: (s.stage g).runs }
  s1.walkList id ⟨listAddrs e.list e.count, e.wins, e.snap, st.issueIdx, st.replay, 3, false, 0⟩

/-- Keep the head's waits while a fill runs ahead of it. DEDUCED, log entry 125. -/
def State.park (s : State) (id : Nat) : State :=
  let st := s.stream id
  let s1 := s.setStream id { st with
    parked := some ⟨st.met, st.headErr, st.headLate, st.dlIgnored, st.dlRaised, st.nbReleased⟩ }
  { s1 with waiters := s1.waiters.map fun w => if w.stream = id ∧ w.slot < 4 then { w with slot := w.slot + 8 } else w }

/-- The fill has retired: the head waits again as before. -/
def State.unpark (s : State) (id : Nat) : State :=
  let st := s.stream id
  match st.parked with
  | none => s
  | some p =>
    let s1 := s.setStream id { st with
      parked := none, registered := true, met := p.met, headErr := p.headErr, headLate := p.headLate,
      dlIgnored := p.dlIgnored, dlRaised := p.dlRaised, nbReleased := p.nbReleased, waitSince := s.siteNow (id / 256) }
    let ws := s1.waiters.map fun (w : Waiter) => if w.stream = id ∧ 8 ≤ w.slot then { w with slot := w.slot - 8 } else w
    { s1 with waiters := ws }.refresh id

/-- The rule of R217; 5 ⁄ 9 ns is a site clock. -/
def State.fillDue (s : State) (g : Nat) : Bool :=
  let id := s.rd F.DEF_CFG_MAIN g
  let st := s.stream id
  s.rd F.DEF_CFG_FILL_EN g == 1 && st.st == .waiting && !st.ending && st.parked.isNone &&
    (s.stage g).runs.isEmpty && !(s.stage g).queue.isEmpty && !(s.landingWaits g).isEmpty &&
    decide (s.rd F.DEF_FILL_MIN_WAIT_CLK g * 5 ≤ (s.siteNow (id / 256) - st.waitSince) * 9) && !s.quiesced 0x0C g

/-- BUBBLE_FILL: the oldest entry runs ahead of the waiting head; an arrival of the same clock wins (R218). -/
def State.bubbleFill (s : State) (g : Nat) (arrivalSame : Bool) : State :=
  match (s.stage g).queue with
  | e :: rest =>
    if s.fillDue g ∧ !arrivalSame then
      let id := s.rd F.DEF_CFG_MAIN g
      let s1 := (s.endWaits id).park id
      let s2 := s1.setStage g { s1.stage g with queue := rest }
      ((s2.runEntry g e 1 none).bump F.DEF_FILLS_COUNT g).refresh id
    else s
  | [] => s

def execBubbleFill (stage : Nat) (arrivalSame : Bool) (s : State) : Host.Outcome State Fault Refusal :=
  s.act (if stage < 16 then s.bubbleFill stage arrivalSame else s)

/-- The stream goes on after a SUBRING or DPUSH has been walked. -/
def State.walked (s : State) (id : Nat) : State := (s.setStream id { s.stream id with walking := false }).registerHead id

/-- Run the oldest entry of a full queue for a DPUSH, whose own entry is enqueued when it has run (R219). -/
def State.force (s : State) (g : Nat) (o : DefEntry) (rest : List DefEntry) (e : DefEntry) : State :=
  (((s.setStage g { s.stage g with queue := rest }).runEntry g o 2 (some e)).bump F.DEF_FORCED_COUNT g).event 0x0C g 0

/-- DPUSH with a count: a full queue first runs its oldest entry in the main stream, and the DPUSH waits for it, then enqueues its
own (R219).  Of a stream that is being cancelled nothing more issues, so there the DPUSH completes with ERR (log entry 69). -/
def State.dpush (s : State) (d : Delivered) : State :=
  match s.stageOf d.stream with
  | none => (s.finish d stErr).walked d.stream
  | some g =>
    let x := s.stage g
    let e : DefEntry := ⟨opAddr (mOperand d.words 0), bits (mImm d.words) 0 13, bits (mImm d.words) 16 24, d.snap, d.wins⟩
    if s.stageCtx g ≠ d.ctx then (s.foreign d 0x0C g 0).walked d.stream
    else if x.queue.length < 32 then ((s.setStage g { x with queue := x.queue ++ [e] }).finish d 0).walked d.stream
    else match x.queue with
      | o :: rest =>
        if (s.stream d.stream).cancelling then (s.finish d stErr).walked d.stream else (s.letGo d).force g o rest e
      | [] => s

def execDpush (d : Delivered) (s : State) : Host.Outcome State Fault Refusal :=
  s.act (if s.ready d ∧ bits (mImm d.words) 0 13 ≠ 0 then s.dpush d else s)

/-- DPUSH with a count of 0: every queued entry runs, and the ring waits for the last (R219). -/
def State.dpushDrain (s : State) (d : Delivered) : State :=
  match s.stageOf d.stream with
  | none => (s.finish d stErr).walked d.stream
  | some g =>
    let x := s.stage g
    if s.stageCtx g ≠ d.ctx then (s.foreign d 0x0C g 0).walked d.stream
    else match x.queue with
      | [] => (s.finish d 0).walked d.stream
      | e :: rest =>
        if (s.stream d.stream).cancelling then (s.finish d stErr).walked d.stream
        else ((s.setStage g { x with queue := rest, draining := true }).letGo d).runEntry g e 4 none

def execDpushDrain (d : Delivered) (s : State) : Host.Outcome State Fault Refusal :=
  s.act (if s.ready d ∧ bits (mImm d.words) 0 13 = 0 then s.dpushDrain d else s)

/-- The DPUSH whose run or drain has ended completes, and the ring goes on. -/
def State.pushDone (s : State) (id : Nat) : State := (s.listDone id 0x15).walked id

/-- The entry of a forced run's DPUSH is enqueued; a queue that has filled again is forced again. -/
def State.pushAfter (s : State) (id g : Nat) (e : DefEntry) : State :=
  let x := s.stage g
  if x.queue.length < 32 then (s.setStage g { x with queue := x.queue ++ [e] }).pushDone id
  else match x.queue with
    | o :: rest => s.force g o rest e
    | [] => s

/-- The last manifest of a deferral entry has retired (R218, R219, R226); of a run that a CANCEL has dropped only the container
is left. -/
def State.runDone (s : State) (id : Nat) : State :=
  match (List.range 16).find? fun g => s.rd F.DEF_CFG_MAIN g == id && !(s.stage g).runs.isEmpty with
  | none => s.pushDone id
  | some g =>
    match (s.stage g).runs with
    | [] => s
    | r :: rest =>
      let now := s.siteNow (id / 256)
      let s1 := if s.rd F.PHT_CFG_AUTO g = 1 then s.phaseRecord g (r.start.getD now) now r.entry.mb 2 r.flags 0 else s
      let s2 := s1.setStage g { s1.stage g with runs := rest }
      if r.flags % 8 = 1 then s2.unpark id
      else if r.flags % 8 = 4 then
        match (s2.stage g).queue with
        | e' :: q => (s2.setStage g { s2.stage g with queue := q }).runEntry g e' 4 none
        | [] => (s2.setStage g { s2.stage g with draining := false }).pushDone id
      else match r.push with
        | some e => s2.pushAfter id g e
        | none => s2.pushDone id

/-- The first manifest of the running entry issues: W starts (R226). -/
def State.runStarted (s : State) (id : Nat) : State :=
  match (List.range 16).find? fun g => s.rd F.DEF_CFG_MAIN g == id && !(s.stage g).runs.isEmpty with
  | none => s
  | some g =>
    let x := s.stage g
    s.setStage g { x with runs := match x.runs with
      | r :: rest => (if r.start.isSome then r else { r with start := some (s.siteNow (id / 256)) }) :: rest
      | [] => [] }

end Sys2Proof.Machine
end

