-- ==== Sys2Proof/Machine/Streams.lean ====
section
/-! DEFINITION. Streams (R113 to R133, R140 to R149, R175 to R178, R275 to R276): decode with patches and the gate,
issue with its findings and segment checks, retirement, the stream commands, deadlines, and the pilot's own operation
codes. -/

namespace Sys2Proof.Machine

/-! ### States of a stream -/

/-- The states in which a stream decodes and issues (R131). -/
def StreamSt.active : StreamSt → Bool
  | .running | .waiting | .held => true
  | _ => false

def State.ringLen (s : State) (id : Nat) : Nat := s.str F.STR_RING_LEN_LEN id
def State.replays (s : State) (id : Nat) : Nat := s.str F.STR_RING_LEN_REPLAYS id
def State.queueMode (s : State) (id : Nat) : Bool := s.str F.STR_CFG_MODE id == 1

/-- Store entries in use in a pilot (R128). -/
def State.storeUsed (s : State) (pilot : Nat) : Nat :=
  ((s.streams.filter fun e => pilotOf (e.1 / 256) == pilot).map fun e => e.2.store.length).sum

/-! ### Snapshots (R125, R126) -/

/-- Take the snapshot of replay n: copy the parameters, then advance each by its stride. -/
def Stream.snapshot (st : Stream) (n : Nat) : Stream :=
  { st with snaps := (st.snaps.filter fun x => x.1 != n && decide (st.replay ≤ x.1)) ++ [(n, st.params)],
            params := List.zipWith (· + ·) st.params st.strides }

def Stream.snapOf (st : Stream) (n : Nat) : Option (List Word) := (st.snaps.find? fun x => x.1 == n).map Prod.snd

/-- A QUEUE stream's index-0 entry becomes fetchable: the snapshot of its pass. -/
def Stream.queueSnapshot (st : Stream) : Stream :=
  let n := if st.decIdx = 0 then st.decReplay else st.decReplay + 1
  if (st.snapOf n).isSome then st else st.snapshot n

/-- What was patched from snapshot `n` follows a write of parameter `i` that the snapshot takes in (R126). -/
def Decoded.repatch (n i : Nat) (v : Word) (snap : List Word) (d : Decoded) : Decoded :=
  if d.replay = n ∧ d.place < 3 then
    { d with snap := snap, words := if 2 ≤ i ∧ mPatch d.words / 2 ^ i % 2 = 1 then setNth d.words i v else d.words }
  else d

/-- PARAM_WRITE of a live parameter; in the clock of a snapshot the written value is taken into it, patched into what
was decoded from it, and the stride is added to it (R126). -/
def Stream.writeParam (st : Stream) (i : Nat) (v : Word) (snapSame : Bool) : Stream :=
  match snapSame, st.snaps.getLast? with
  | true, some (n, snap) =>
    let snap' := setNth snap i v
    { st with
      snaps := st.snaps.filter (fun x => x.1 != n) ++ [(n, snap')]
      params := setNth st.params i (v + st.strides.getD i 0)
      store := st.store.map (Decoded.repatch n i v snap')
      lists := st.lists.map fun l => if l.replay = n ∧ l.place = 1 then { l with snap := snap' } else l }
  | _, _ => { st with params := setNth st.params i v }

/-- PARAM_WRITE: a head whose words it changes registers its waits as they now read (R126). -/
def State.paramWrite (s : State) (id i : Nat) (v : Word) (snapSame : Bool) : State :=
  let st := s.stream id
  let st' := st.writeParam i v snapSame
  if st.registered ∧ st'.store.head? ≠ st.store.head? then
    { s.setStream id { st' with registered := false } with
      waiters := s.waiters.filter fun w => !(w.stream == id && decide (w.slot < 4)) }.registerHead id
  else s.setStream id st'

def execParamWrite (stream i : Nat) (v : Word) (snapSame : Bool) (s : State) : Host.Outcome State Fault Refusal :=
  s.act (if i < 16 then s.paramWrite stream i v snapSame else s)

/-- The tail passes index 0 of the ring. -/
def passesZero (old new : Nat) : Bool := (old == 0 && new != 0) || (decide (new < old) && new != 0)

/-- STR_TAIL_WRITE (R124, R125). -/
def State.tailWrite (s : State) (id : Nat) (v : Word) : State :=
  let old := s.str F.STR_TAIL_TAIL id
  let s1 := s.writeField 0x03 (id / 16) (0x220 + 0x80 * (id % 16)) v
  let new := s1.str F.STR_TAIL_TAIL id
  let st := s1.stream id
  let s2 := if s1.queueMode id ∧ st.st ≠ .idle ∧ passesZero old new then s1.setStream id st.queueSnapshot else s1
  s2.refresh id

def execStrTailWrite (stream : Nat) (v : Word) (s : State) : Host.Outcome State Fault Refusal := s.act (s.tailWrite stream v)

/-! ### Decode (R124 to R128) -/

/-- The activity class of a stream. -/
def State.strClass (s : State) (id : Nat) : Nat := s.classOf (s.strCtx id)

/-- The next entry of the ring may be decoded. -/
def State.ringDue (s : State) (id : Nat) : Bool :=
  let st := s.stream id
  decide ((st.store.filter fun d => d.place == 0).length < s.str F.STR_CFG_RUNAHEAD id) && !s.tailEmpty id st &&
    (s.queueMode id || s.replays id == 0 || decide (st.decReplay < s.replays id)) &&
    (!s.queueMode id || st.decIdx != 0 || (st.snapOf st.decReplay).isSome)

/-- The innermost list that a stream walks, where its next manifest may be decoded. -/
def State.listDue (s : State) (id : Nat) : Option ListWalk :=
  match (s.stream id).lists with
  | l :: _ => if l.addrs ≠ [] ∧ l.ahead < s.str F.STR_CFG_RUNAHEAD id then some l else none
  | [] => none

/-- The address of the manifest that a stream fetches next, a list's before the ring's; none where it may decode none (R119, R124,
R128). -/
def State.nextFetch (s : State) (id : Nat) : Option Nat :=
  let st := s.stream id
  if !st.st.active ∨ st.ending ∨ s.idHole id ∨ 4096 ≤ s.storeUsed (pilotOf (id / 256)) then none
  else match s.listDue id with
    | some l =>
      let a := l.addrs.headD 0
      some (((s.segIn l.wins .r a 128).getD fun x => x) a)
    | none => if s.ringDue id then some (s.str F.STR_RING_BASE_BASE id * 128 + 128 * st.decIdx) else none

/-- The next decode begins a gated replay whose gate has not been met (R127); a gate that names a hole is ignored (R143). -/
def State.gated (s : State) (id : Nat) : Bool :=
  let st := s.stream id
  (s.listDue id).isNone && s.str F.STR_CFG_GATE_EN id == 1 && st.decIdx == 0 && decide (1 ≤ st.decReplay) && !st.gateMet &&
    !s.idHole (s.str F.STR_GATE_BOLLARD id)

/-- The gate's target for a replay. -/
def State.gateTarget (s : State) (id n : Nat) : Nat :=
  (s.str F.STR_GATE_TARGET id + (n - 1) * s.str F.STR_GATE_STRIDE id) % 2 ^ 32

/-- The meter that holds the fetch of a manifest (R169, R171). -/
def State.fetchHeld (s : State) (id a : Nat) : Option Nat :=
  let node := pilotOf (id / 256)
  s.heldMeter (s.strClass id) node (s.meshFlits node false (sectors a 128)) (sectors a 128)

/-- Streams whose run-ahead is not full take store entries in rotation (R128): no other stream of the pilot that could decode now
comes between the stream that last took an entry and this one. -/
def State.decodeTurn (s : State) (id : Nat) : Bool :=
  let p := pilotOf (id / 256)
  let rank := fun (x : Nat) => (x + 2 ^ 14 - (s.pilot p).last - 1) % 2 ^ 14
  s.streams.all fun e => e.1 == id || pilotOf (e.1 / 256) != p || decide (rank id ≤ rank e.1) || s.gated e.1 ||
    match s.nextFetch e.1 with
    | some a => (s.fetchHeld e.1 a).isSome
    | none => true

/-- Fetch a manifest: its words as stored, whether the fetch failed, and the state after.  DEDUCED, log entry 67. -/
def State.fetch (s : State) (id a : Nat) : List Word × Bool × State :=
  let node := pilotOf (id / 256)
  let cls := s.strClass id
  let secs := sectors a 128
  let r := ((s.chargeMesh cls node (s.meshFlits node false secs)).chargeSectors cls secs).memRead node false a 128 MemFx.clean
  (wordsOf r.1, r.2.1 != 0, r.2.2.bump F.PIL_DECODED_COUNT node)

/-- Fetch, patch and store the next manifest of the ring; a replay's snapshot is taken once (R125, R148).  DEDUCED, log entry 68. -/
def State.decodeRing (s : State) (id a : Nat) : State :=
  let f := s.fetch id a
  let st0 := f.2.2.stream id
  let st := if st0.decIdx = 0 ∧ !s.queueMode id ∧ (st0.snapOf st0.decReplay).isNone then st0.snapshot st0.decReplay else st0
  let snap := (st.snapOf st.decReplay).getD st.params
  let wrap := s.ringLen id ≤ st.decIdx + 1
  let d : Decoded := ⟨patch f.1 snap, a, st.decIdx, st.decReplay, snap, 0, f.2.1⟩
  (f.2.2.setStream id { st with
    store := st.store ++ [d]
    decIdx := if wrap then 0 else st.decIdx + 1
    decReplay := if wrap then st.decReplay + 1 else st.decReplay
    gateReg := false, gateMet := false }).registerHead id

/-- Mark the last issued manifest of the innermost subring list as the list's last, newest first; none where none is left. -/
def markLast : List Issued → Option (List Issued)
  | [] => none
  | i :: is =>
    if i.waitsList 0x21 then none
    else if i.place = 1 then some ({ i with place := 2 } :: is)
    else (markLast is).map fun r => i :: r

/-- The rest of a list is skipped: the manifest before it is the last to retire, and with none left the SUBRING completes. -/
def State.closeOut (s : State) (id : Nat) : State :=
  let st := s.stream id
  match st.lists with
  | [] => s
  | l :: rest =>
    if l.ahead ≠ 0 then
      s.setStream id { st with store := (st.store.take (l.ahead - 1)) ++
        ((st.store.drop (l.ahead - 1)).take 1).map (fun d => { d with place := d.place + 1 }) ++ st.store.drop l.ahead }
    else match markLast st.issued.reverse with
      | some is => (s.setStream id { st with lists := rest, issued := is.reverse }).registerHead id
      | none => ((s.setStream id { st with lists := rest }).listDone id 0x21).registerHead id

/-- Fetch, patch and store the next manifest of a list, ahead of what the store holds beside the list (R119, R216); of a recompute
walk only the flagged ones are kept (R223). -/
def State.decodeList (s : State) (id a : Nat) (l : ListWalk) : State :=
  let f := s.fetch id a
  let st := f.2.2.stream id
  let ws := patch f.1 l.snap
  let left := l.addrs.drop 1
  let d : Decoded := ⟨ws, l.addrs.headD 0, l.idx, l.replay, l.snap, if left = [] then l.place + 1 else l.place, f.2.1⟩
  if !l.only ∨ mFlag ws 3 then
    (f.2.2.setStream id { st with
      store := st.store.take l.ahead ++ d :: st.store.drop l.ahead
      lists := { l with addrs := left, ahead := l.ahead + 1 } :: st.lists.drop 1 }).registerHead id
  else
    let s1 := f.2.2.setStream id { st with lists := { l with addrs := left } :: st.lists.drop 1 }
    if left = [] then s1.closeOut id else s1

/-- Decode the manifest at an address that `nextFetch` gave. -/
def State.decodeNext (s : State) (id a : Nat) : State :=
  let p := pilotOf (id / 256)
  let s1 := match s.listDue id with
    | some l => s.decodeList id a l
    | none => s.decodeRing id a
  s1.setPilot p { s1.pilot p with last := id }

/-- MANIFEST_DECODE: a gated replay first registers its gate's wait; a held fetch waits for its toll. -/
def State.decode (s : State) (id : Nat) : State :=
  let st := s.stream id
  match s.nextFetch id with
  | none => s
  | some a =>
    if s.gated id then
      if st.gateReg then s
      else ((s.setStream id { st with gateReg := true }).registerWait id 4 (s.str F.STR_GATE_BOLLARD id)
        (s.gateTarget id st.decReplay) (s.strCtx id) 0).refresh id
    else match s.fetchHeld id a with
      | some res => s.markHeld (s.strClass id) res
      | none => if s.decodeTurn id then s.decodeNext id a else s

def execManifestDecode (stream : Nat) (s : State) : Host.Outcome State Fault Refusal := s.actAt (stream / 256) (s.decode stream)

/-! ### Findings (R143, R507) -/

/-- Operand forms of a code by slot (R118): 0 none, 1 handle, 2 address, 3 list, 4 handle or scalar; 8 added where the
operand is optional. -/
def operandForms (ws : List Word) : List Nat :=
  match mOpcode ws with
  | 0x01 => [1, 1, 0, 0]
  | 0x02 => [0, 1, 0, 0]
  | 0x03 => [1, 0, 0, 0]
  | 0x04 => if mSubop ws = 7 then [1, 1, 0, 0] else if mSubop ws = 6 then [1, 1, 4, 4] else [1, 1, 4, 0]
  | 0x05 => [1, 1, 0, 0]
  | 0x06 => [1, 1, 0, 0]
  | 0x07 => [0, 1, 0, 0]
  | 0x08 => [1, 1, 0, 0]
  | 0x09 => [1, 1, 0, 0]
  | 0x0A => [1, 1, 0, 0]
  | 0x10 => if mSubop ws % 2 = 1 then [1, 2, 0, 0] else [1, 0, 0, 0]
  | 0x11 => [2, 10, 0, 0]
  | 0x15 => if bits (mImm ws) 0 13 = 0 then [11, 0, 0, 0] else [3, 0, 0, 0]
  | 0x18 => [0, 1, 0, 0]
  | 0x19 => [1, 10, 0, 0]
  | 0x1C => if mSubop ws = 2 then [0, 0, 0, 0] else [2, 2, 0, 0]
  | 0x1D => [2, 0, 0, 0]
  | 0x21 => [3, 0, 0, 0]
  | _ => [0, 0, 0, 0]

/-- Number of SUBOP values a code defines, 0 where the code uses bits of SUBOP or none. -/
def subopCount (op : Nat) : Nat :=
  match op with
  | 0x04 => 8
  | 0x05 => 3
  | 0x0A => 3
  | 0x1C => 3
  | 0x1D => 3
  | 0x22 => 3
  | _ => 0

/-- Reason 1: the code or its SUBOP is not defined. -/
def undefinedOp (ws : List Word) : Bool :=
  !definedOpcode (mOpcode ws) || (subopCount (mOpcode ws) != 0 && decide (subopCount (mOpcode ws) ≤ mSubop ws))

/-- Address operands given as a parameter take its value (R116; DEDUCED, log entry 23). -/
def resolveOperand (snap : List Word) (form : Nat) (w : Word) : Word :=
  if opPresent w ∧ opIsParam w ∧ (form % 8 = 2 ∨ form % 8 = 3) then
    setBits (setBits (snap.getD (opParam w) 0) 0 6 0) 0 1 1
  else w

/-- The value of an address operand before its low bits are dropped. -/
def rawAddr (snap : List Word) (w : Word) : Nat := if opIsParam w then (snap.getD (opParam w) 0).toNat else opAddr w

/-- The manifest with its address operands resolved. -/
def resolveWords (d : Decoded) : List Word :=
  let fs := operandForms d.words
  (List.range 16).map fun i =>
    if 2 ≤ i ∧ i < 6 then resolveOperand d.snap (nth fs (i - 2)) (mword d.words i) else mword d.words i

/-- Reason 2 of one operand slot. -/
def operandMalformed (snap : List Word) (form : Nat) (w : Word) : Bool :=
  if !opPresent w then form != 0 && decide (form < 8)
  else match form % 8 with
    | 0 => true
    | 1 => opIsParam w
    | 2 => rawAddr snap w % 64 != 0
    | 3 => rawAddr snap w % 128 != 0
    | _ => false

/-- Reason 2 of the other words: counts, a nested SUBRING, an unaligned STAMP. -/
def wordsMalformed (d : Decoded) : Bool :=
  let ws := d.words
  match mOpcode ws with
  | 0x15 => decide (4096 < bits (mImm ws) 0 13)
  | 0x21 => d.place != 0 || (mImm ws).toNat == 0 || decide (4096 < (mImm ws).toNat)
  | 0x23 => decide (mSubop ws < 128) && (mImm ws).toNat % 8 != 0
  | _ => false

/-- Largest part of a dimension that a core of n takes. -/
def Handle.maxPart (h : Handle) (n k : Nat) : Nat :=
  if h.sliceOn ∧ h.sliceDim = k then min (ceilDiv (h.dim k) n) (h.dim k) else h.dim k

/-- Most rows of a tensor on one core (R85, R123). -/
def Handle.maxRows (h : Handle) (n : Nat) : Nat := h.maxPart n 1 * h.maxPart n 2 * h.maxPart n 3

/-- Reason 4: a FORMAT or a shape that the operation does not accept. DEDUCED, log entry 63.  A VRED's shapes are compared where its
OPERAND0 handle can be read. -/
def handleRefused (ws : List Word) (cores slot : Nat) (h : Handle) (out : Option Handle) : Bool :=
  let rows := decide (128 * mTiles ws < h.maxRows cores)
  match mOpcode ws with
  | 0x01 => decide (3 ≤ h.fmt) || (slot == 0 && rows)
  | 0x02 => decide (3 ≤ h.fmt)
  | 0x03 => h.fmt == 4 || rows
  | 0x05 => slot == 1 && match out with
    | some o => o.dim 0 != 1 || o.dim 1 != h.dim 1 || o.dim 2 != h.dim 2 || o.dim 3 != h.dim 3
    | none => false
  | _ => false

/-- The slots that hold a handle. -/
def handleSlots (ws : List Word) : List Nat :=
  (List.range 4).filter fun i =>
    let f := nth (operandForms ws) i % 8
    opPresent (mOperand ws i) && (f == 1 || (f == 4 && !opIsParam (mOperand ws i)))

/-- A finding: reason, slot, and whether it makes the manifest a NOP (R143, R144). -/
abbrev Finding := Nat × Nat × Bool

/-- The findings of a decoded manifest (R143).  Handles are judged as they stand at issue (R205).  DEDUCED, log entry 65.  A finding
that is tied to no operand, wait or signal slot has slot 0, and a VRED's shapes slot 1 (DESIGN CHOICE, log entry 149).  A manifest
whose fetch failed has none. -/
def State.findings (s : State) (id : Nat) (d : Decoded) : List Finding :=
  let ws := d.words
  let fs := operandForms ws
  let undef := undefinedOp ws
  let core := coreOpcode (mOpcode ws)
  let ctx := s.strCtx id
  let n := if mFlag ws 2 then 16 * s.rd F.PIL_GROUP_SIZE (id / 256) else 16
  let at' := fun i => s.handleAt ctx (opAddr (mOperand ws i))
  if d.lost then [] else
  (if undef then [(1, 0, true)] else []) ++
    (if undef then [] else ((List.range 4).filter fun i => operandMalformed d.snap (nth fs i) (mOperand ws i)).map (2, ·, true)) ++
    (if !undef ∧ wordsMalformed d then [(2, 0, true)] else []) ++
    (if mOpcode ws = 0x07 ∧ !(0x10 ≤ mTable ws ∧ mTable ws ≤ 0x1F) then [(3, 0, true)] else []) ++
    (if undef then [] else ((handleSlots ws).filter fun i =>
      match at' i with
      | some h => h.bad core || handleRefused ws n i h (at' 0)
      | none => false).map (4, ·, true)) ++
    (((List.range 4).filter fun i => wordEnable (mWait ws i) && s.idHole (wordBollard (mWait ws i))).map (5, ·, false)) ++
    (((List.range 2).filter fun i => wordEnable (mSignal ws i) && s.idHole (wordBollard (mSignal ws i))).map (5, ·, false)) ++
    (if s.str F.STR_CFG_GATE_EN id = 1 ∧ d.idx = 0 ∧ 1 ≤ d.replay ∧ d.place = 0 ∧ s.idHole (s.str F.STR_GATE_BOLLARD id)
      then [(5, 0, false)] else []) ++
    (if mOpcode ws = 0x22 ∧ s.idHole (mArg ws % 2 ^ 14) then [(5, 0, true)] else []) ++
    (if isHub (id / 256) ∧ 1 ≤ mOpcode ws ∧ mOpcode ws ≤ 8 then [(6, 0, true)] else [])

/-- Some finding makes the manifest a NOP. -/
def findingNop (fs : List Finding) : Bool := fs.any fun f => f.2.2

/-- The lowest finding. -/
def lowestFinding : List Finding → Option Finding
  | [] => none
  | f :: fs => match lowestFinding fs with
    | none => some f
    | some g => if g.1 < f.1 ∨ (g.1 = f.1 ∧ g.2.1 < f.2.1) then some g else some f

/-! ### Segment ranges (R275, R276) -/

/-- The ranges a MOVE writes: padded blocks in memory (R46), whole 8-byte units of the rows in register space (R460). -/
def State.moveRanges (s : State) (h : Handle) : List (Nat × Nat) :=
  if s.region h.addr = .regs then (h.ranges false).map fun r => (r.1, (r.2 + 7) / 8 * 8) else h.ranges true

/-- The ranges that a manifest's addresses and handles name, with the permission each needs.  Ranges that an engine
finds later (a shard descriptor's, a region list's, a pontoon entry's) are checked by that engine. -/
def State.rangesOf (s : State) (ctx : Nat) (ws : List Word) : List (Perm × Nat × Nat) :=
  let at' := fun i => (s.handleAt ctx (opAddr (mOperand ws i))).getD default
  let a := fun i => opAddr (mOperand ws i)
  let rd := fun i => ((at' i).ranges false).map fun r => (Perm.r, r.1, r.2)
  let opt := fun i (r : Perm × Nat × Nat) => if opPresent (mOperand ws i) then [r] else []
  let msg := fun p => s.rd F.PON_CFG_OP p == 3
  ((handleSlots ws).filterMap fun i => if mOpcode ws = 0x19 then none else some (Perm.r, a i, 64)) ++
    match mOpcode ws with
    | 0x02 => rd 1
    | 0x09 => rd 1 ++ (s.moveRanges (at' 0)).map fun r => (Perm.w, r.1, r.2)
    | 0x0A => rd 1 ++ ((at' 0).ranges true).map fun r => (Perm.a, r.1, r.2)
    | 0x10 => (if s.rd F.FRY_CFG_SLICED (bits (mImm ws) 0 7) = 1 then [] else rd 0) ++
        (if mSubop ws % 2 = 1 then [(Perm.r, a 1, 16)] else [])
    | 0x11 => (Perm.w, a 0, 64) :: opt 1 (Perm.w, a 1, 16)
    | 0x15 => [(Perm.r, a 0, 128 * bits (mImm ws) 0 13)]
    | 0x18 => if msg (mArg ws % 1024) then [] else rd 1
    | 0x19 => opt 1 (Perm.w, a 1, 16)
    | 0x1C => if mSubop ws = 2 then [] else [(Perm.r, a 0, 128), (Perm.r, a 1, 64)]
    | 0x1D => [(Perm.r, a 0, 64)]
    | 0x21 => [(Perm.r, a 0, 128 * (mImm ws).toNat)]
    | 0x23 => if mSubop ws < 128 then [(Perm.w, (mImm ws).toNat, 8)] else []
    | _ => []

/-- The first range the context's windows refuse. -/
def State.refusedRange (s : State) (ctx : Nat) (ws : List Word) : Option Nat :=
  ((s.rangesOf ctx ws).find? fun r => (s.seg ctx r.1 r.2.1 r.2.2).isNone).map fun r => r.2.1

/-! ### Issue (R129, R130, R141, R170, R171) -/

/-- The cores that execute a manifest of a stream: the site's, or those of every site of its group. -/
def State.targetSites (s : State) (id : Nat) (ws : List Word) : List Nat :=
  let site := id / 256
  let members := if mFlag ws 2 then
      (List.range 64).filter fun x => x != site && s.rd F.PIL_GROUP_MEMBER x == 1 && s.rd F.PIL_GROUP_LEADER x == site
    else []
  (site :: members).filter fun x => !isHub x && !s.outOfService x

/-- The addresses of the handles that a manifest's issue reads. -/
def handleAddrs (ws : List Word) : List Nat := (handleSlots ws).map fun i => opAddr (mOperand ws i)

/-- The sectors of some handles, as a context's windows translate them. -/
def State.handleSectors (s : State) (ctx : Nat) (as : List Nat) : List Nat :=
  as.flatMap fun a => match s.seg ctx .r a 64 with
    | some f => (sectors a 64).map fun x => f (max x a)
    | none => []

/-- A toll holds the manifest: ENERGY for all, ISSUE at every site that executes a core-executed code, and the meters of the handles
it reads (R169 to R171). -/
def State.issueHeld (s : State) (id : Nat) (ws : List Word) : Option Nat :=
  let cls := s.strClass id
  let node := pilotOf (id / 256)
  let secs := s.handleSectors (s.strCtx id) (handleAddrs ws)
  if s.tollHeld cls 6 0 then some 6
  else if coreOpcode (mOpcode ws) ∧ (s.targetSites id ws).any (fun x => s.tollHeld cls 0 x) then some 0
  else s.heldMeter cls node (s.meshFlits node false secs) secs

/-- The ferry of an FSEND takes another entry. DEDUCED, log entry 76. -/
def State.ferryTakes (s : State) (ws : List Word) : Bool :=
  let n := bits (mImm ws) 0 7
  let f := s.ferry n
  f.st != .disabled && f.st != .routeDown &&
    decide (f.queue.length + (s.engineQ (engineKey (.ferry n))).entries.length +
      (s.engineQ (engineKey (.ferry n))).cur.isSome.toNat < 8)

/-- The stream's page and its pilot's take work (R453). -/
def State.takesWork (s : State) (id : Nat) : Bool := !s.quiesced 0x03 (id / 16) && !s.quiesced 0x02 (pilotOf (id / 256))

/-- The engine accepts the manifest (R130). -/
def State.accepts (s : State) (ws : List Word) : Bool :=
  (mOpcode ws != 0x10 || s.ferryTakes ws) &&
    (mOpcode ws != 0x1C || decide ((s.engineQ (engineKey (.opt (mArg ws % 32)))).entries.length < 16))

/-- The head's conditions hold, tolls and engine aside. -/
def State.headReady (s : State) (id : Nat) : Bool :=
  let st := s.stream id
  match st.store with
  | [] => false
  | d :: _ => st.st.active && !st.ending && st.registered && !st.behind d && s.unmet st == 0 && !s.beforeNB id &&
      s.takesWork id

/-- The delivered form of a decoded manifest that issues next. -/
def State.deliver (s : State) (id : Nat) (d : Decoded) : Delivered :=
  let ctx := s.strCtx id
  { words := resolveWords d, addr := d.addr, stream := id, seq := (s.stream id).nextSeq, ctx := ctx, gen := s.gen ctx,
    snap := d.snap, wins := s.segWins ctx }

/-- STATUS bits the head carries into its record. -/
def Stream.headStatus (st : Stream) : Nat :=
  st.headLate.toNat * stLate + st.dlRaised.toNat * stTimeout + st.headErr.toNat * stErr

/-- A manifest of the innermost list issues; a list whose last has issued is done with. -/
def takeListed : List ListWalk → List ListWalk
  | [] => []
  | l :: ls => if l.addrs = [] ∧ l.ahead ≤ 1 then ls else { l with ahead := l.ahead - 1 } :: ls

/-- Move the head from the store to the issued list (R129). -/
def Stream.takeHead (st : Stream) (d : Decoded) (i : Issued) (len : Nat) : Stream :=
  let ring := d.place = 0
  let wrap := len ≤ d.idx + 1
  { st with
    store := st.store.drop 1, registered := false, met := 0, metAt := [], headErr := false, headLate := false,
    dlIgnored := false, dlRaised := false, nbReleased := false, nextSeq := st.nextSeq + 1, issued := st.issued ++ [i]
    issueIdx := if ring then (if wrap then 0 else d.idx + 1) else st.issueIdx
    replay := if ring ∧ wrap then d.replay + 1 else st.replay
    lists := if ring then st.lists else takeListed st.lists
    walking := st.walking || (!i.asNop && (mOpcode d.words == 0x15 || mOpcode d.words == 0x21)) }

/-- Hand a manifest that issues to its cores or its engine (R140, R141). -/
def State.route' (s : State) (id : Nat) (e : Delivered) (sites : List Nat) : State :=
  if mFlag e.words 2 then
    sites.foldl (fun t x => t.setPilot x { t.pilot x with group := (t.pilot x).group ++ [e] }) s
  else s.enqueue (.coreSeq (id / 256)) e

/-- How a manifest issues: the range that the windows refuse, and whether what it must read of memory failed (R276, R285). -/
def State.issueFails (s : State) (id : Nat) (d : Decoded) (e : Delivered) : Option Nat × Bool :=
  if findingNop (s.findings id d) then (none, d.lost)
  else match s.refusedRange e.ctx e.words with
    | some a => (some a, d.lost)
    | none => (none, d.lost || (handleAddrs e.words).any fun a => s.structFails e a 64 != [])

/-- The manifest executes as NOP: a finding, a refused range or a failed read (DESIGN CHOICE for the last, log entry 147). -/
def State.issuesNop (s : State) (id : Nat) (d : Decoded) (e : Delivered) : Bool :=
  findingNop (s.findings id d) || (s.issueFails id d e).1.isSome || (s.issueFails id d e).2

/-- Give a manifest that issues to its cores or its engine; a core-executed code is charged at each site that executes it (R169). -/
def State.hand (s : State) (id : Nat) (e : Delivered) (sites : List Nat) (asNop : Bool) : State :=
  let ws := e.words
  if coreOpcode (mOpcode ws) ∧ !isHub (id / 256) then
    (sites.foldl (fun t x => t.charge (t.strClass id) 0 x (mDeclared ws)) s).route' id e sites
  else if asNop then s
  else match s.engineOf id ws with
    | some en => if mOpcode ws = 0x18 then s else s.enqueue en e
    | none => s

/-- Issue the head (R130): findings latched, ranges checked, handles read, tolls charged, the manifest given to its engine. -/
def State.issueNow (s : State) (id : Nat) (d : Decoded) : State :=
  let e := s.deliver id d
  let ws := e.words
  let low := lowestFinding (s.findings id d)
  let fails := s.issueFails id d e
  let asNop := s.issuesNop id d e
  let sites := s.targetSites id ws
  let onCores := coreOpcode (mOpcode ws) && !isHub (id / 256)
  let cores := if onCores then sites.flatMap fun x => (List.range 16).map fun c => x * 16 + c else []
  let done := if onCores then cores.isEmpty else asNop
  let i : Issued := {
    d := e, idx := d.idx, replay := d.replay, place := d.place, complete := false, asNop := asNop, cores := cores
    status := statusOr (s.stream id).headStatus (if fails.1.isSome ∨ fails.2 then stErr else 0)
    tide := s.siteNow (id / 256), latched := low.isSome && s.str F.STR_BADOP_VALID id == 0 }
  let s0 := (if asNop then [] else handleAddrs ws).foldl (fun t a => t.noteStruct e (pilotOf (id / 256)) a 64) (s.metWaits id)
  let s1 := s0.setStream id ((s0.stream id).takeHead d (if done then i.done s.tide else i) (s.ringLen id))
  let s2 := match low with
    | some f => s1.badOperand e f.1 f.2.1
    | none => s1
  let s3 := match fails.1 with
    | some a => s2.segViolation e.ctx 0x03 (id / 16) a d.addr
    | none => s2
  let s4 := if 3 ≤ d.place then s3.runStarted id else s3
  (s4.hand id e sites asNop).registerHead id

/-- Manifests issue only in ACTIVE, after an exit has completed (R442). -/
def State.powerActive (s : State) : Bool := s.power.st == .active && !s.power.transition

/-- MANIFEST_ISSUE: the head issues when its waits, NOT_BEFORE, toll and engine allow.  A PPUT issues at its grant. -/
def State.issue (s0 : State) (id : Nat) : State :=
  let s := s0.refresh id
  match (s.stream id).store with
  | [] => s
  | d :: _ =>
    let ws := resolveWords d
    if !s.headReady id || !s.powerActive then s
    else match s.issueHeld id ws with
      | some res => (s.setStream id { s.stream id with st := .held }).markHeld (s.strClass id) res
      | none =>
        let s1 := if (s.stream id).st = .held then s.setStream id { s.stream id with st := .running } else s
        let nop := s.issuesNop id d (s.deliver id d)
        if mOpcode ws = 0x18 ∧ !nop then s1
        else if nop ∨ s1.accepts ws then s1.issueNow id d
        else s1

def execManifestIssue (stream : Nat) (s : State) : Host.Outcome State Fault Refusal := s.actAt (stream / 256) (s.issue stream)

/-! ### Retirement (R119, R129, R133, R144) -/

/-- The next manifest to retire, given those it must not pass. -/
def nextRetire (before : List Issued) : List Issued → Option Issued
  | [] => none
  | i :: is => if i.complete ∧ before.all (fun c => i.passes c) then some i else nextRetire (before ++ [i]) is

/-- The 16 bytes of a completion record (R133). -/
def completionRecord (i : Issued) (now : Nat) : List Byte :=
  leBytes 2 i.idx ++ leBytes 2 i.status ++ leBytes 4 i.replay ++ leBytes 8 now

/-- The context's teardown runs (R405). -/
def State.tearing (s : State) (ctx : Nat) : Bool := (s.ctx ctx).st == .tearing

/-- Write the completion record; its sectors are charged to the context's class (R169). -/
def State.record (s : State) (id : Nat) (i : Issued) : State :=
  let len := s.str F.STR_CREC_LEN_LEN id
  if !mFlag i.d.words 4 ∨ len = 0 ∨ s.tearing i.d.ctx then s
  else
    let x := (s.stream id).crecIdx % len
    let s1 := s.recordWrite i.d.ctx (s.classOf i.d.ctx) (s.str F.STR_CREC_BASE_BASE id * 16 + 16 * x)
      (completionRecord i (s.siteNow (id / 256)))
    s1.setStream id { s1.stream id with crecIdx := (x + 1) % len }

/-- Send a manifest's signals; a teardown of its context sends none (R405). -/
def State.sendSignals (s : State) (i : Issued) : State :=
  if s.tearing i.d.ctx then s
  else (List.range 2).foldl (fun t k =>
    let w := mSignal i.d.words k
    if wordEnable w then t.signal i.d.ctx (wordBollard w) (wordValue w) i.asNop i.d.addr else t) s

/-- A list's container that its engine has done its part of: it waits for the list alone. -/
def State.container (s : State) (i : Issued) : Bool :=
  i.waitsList 0x21 || (i.waitsList 0x15 && match s.engineOf i.d.stream i.d.words with
    | some e => !(s.engineQ (engineKey e)).entries.contains i.d && (s.engineQ (engineKey e)).cur != some i.d
    | none => true)

/-- A STOP or CANCEL whose issued manifests have all retired takes effect (R145, R146); at a STOP a list's container does not
count, since its list cannot retire. -/
def State.settle (s : State) (id : Nat) : State :=
  let st := s.stream id
  let busy := if st.cancelling then !st.issued.isEmpty else st.issued.any fun i => !s.container i
  if !st.ending ∨ busy then s
  else
    let s0 := s.endWaits id
    let s1 := s0.setStream id { s0.stream id with st := .stopped, stopping := false, cancelling := false }
    if st.cancelling then s1.event 0x03 (id / 16) 2 else s1

/-- The last replay has retired (R131); a STOP that is still pending then ends in DONE (DESIGN CHOICE, log entry 150). -/
def State.finishReplays (s : State) (id : Nat) : State :=
  let st := s.stream id
  if st.st.active && !st.cancelling && !s.queueMode id && s.replays id != 0 && decide (s.replays id ≤ st.replay) &&
      st.issued.isEmpty && st.store.isEmpty && st.lists.isEmpty then
    (s.setStream id { st with st := .done, stopping := false }).event 0x03 (id / 16) 3
  else s

/-- Retire one manifest of a stream. -/
def State.retireOne (s : State) (id : Nat) (i : Issued) : State :=
  let st := s.stream id
  let now := s.siteNow (id / 256)
  let s1 := s.setStream id { st with
    issued := st.issued.filter fun x => x.d.seq != i.d.seq
    retired := wrap48 (st.retired + 1), lastRetire := now
    retireIdx := if i.place = 0 then (if s.ringLen id ≤ i.idx + 1 then 0 else i.idx + 1) else st.retireIdx }
  let c := s1.ctx i.d.ctx
  let s2 := s1.setCtx i.d.ctx { c with retired := wrap48 (c.retired + 1), lastRetire := now }
  let s3 := (s2.record id i).sendSignals i
  let s4 := if i.status / 8 % 2 = 1 then s3.phaseFailed id i.place else s3
  let s5 := if i.place = 2 then s4.listDone id 0x21 else if i.place = 4 then s4.runDone id else s4
  (((s5.finishReplays id).settle id).refresh id)

/-- MANIFEST_RETIRE: the oldest complete manifest of the stream, in order. -/
def State.retire (s : State) (id : Nat) : State :=
  match nextRetire [] (s.stream id).issued with
  | some i => s.retireOne id i
  | none => s

def execManifestRetire (stream : Nat) (s : State) : Host.Outcome State Fault Refusal := s.actAt (stream / 256) (s.retire stream)

/-! ### Stream commands (R131, R132, R145 to R147) -/

/-- What START, STOP, CANCEL, RESUME and REWIND do where the state lists them. -/
inductive StrCmd where
  | start | stop | cancel | resume | rewind
  deriving DecidableEq, Repr

/-- START. -/
def State.start (s : State) (id : Nat) : State :=
  let st := s.stream id
  if st.ending ∨ s.idHole id then s
  else if st.st = .idle then
    let st1 := if s.queueMode id ∧ s.str F.STR_TAIL_TAIL id ≠ 0 then st.queueSnapshot else st
    (s.setStream id { st1 with st := .running }).refresh id
  else if st.st = .stopped then ((s.setStream id { st with st := .running }).registerHead id).refresh id
  else s

/-- STOP. -/
def State.stop (s : State) (id : Nat) : State :=
  let st := s.stream id
  if st.st.active ∧ !st.ending then (s.setStream id { st with stopping := true }).settle id else s

/-- Forget the deferral runs of a stream whose lists are discarded; what a DPUSH was to enqueue after them is enqueued. -/
def State.dropRuns (s : State) (id : Nat) : State :=
  (List.range 16).foldl (fun t g =>
    let x := t.stage g
    if t.rd F.DEF_CFG_MAIN g = id ∧ x.runs ≠ [] then
      t.setStage g { x with runs := [], draining := false, queue := (x.queue ++ x.runs.reverse.filterMap (·.push)).take 32 }
    else t) s

/-- The lists of a stream are discarded: of each the last manifest that issued is its last, and a container none of whose list is
left completes.  Newest first; the flags say that the innermost open subring and deferral list have their last. -/
def closeLists (t : Tide) (container : Issued → Bool) : List Issued → Bool → Bool → List Issued
  | [], _, _ => []
  | i :: is, sub, run =>
    let opens := container i
    let inSub := opens && mOpcode i.d.words == 0x21
    let inRun := opens && mOpcode i.d.words == 0x15
    let i1 := if (inSub && !sub) || (inRun && !run) then i.done t else i
    let sub1 := sub && !inSub
    let run1 := run && !inRun
    (if (i.place = 1 && !sub1) || (i.place = 3 && !run1) then { i1 with place := i.place + 1 } else i1) ::
      closeLists t container is (sub1 || i.place == 1 || i.place == 2) (run1 || i.place == 3 || i.place == 4)

/-- Discard the store: its manifests count as prefetched, its waiters are freed (R146, R148), the waits of its head end (R226).  A
list's container completes with what has issued of its list (DEDUCED, log entry 69). -/
def State.discard (s : State) (id : Nat) : State :=
  let s1 := ((s.metWaits id).endWaits id).freeWaiters id
  let st := s1.stream id
  let s2 := (s1.setStream id { st with
    store := [], lists := [], registered := false, met := 0, metAt := [], walking := false, parked := none, gateReg := false,
    gateMet := false, decIdx := st.issueIdx, decReplay := st.replay
    issued := (closeLists s.tide s.container st.issued.reverse false false).reverse }).dropRuns id
  s2.bump F.PIL_PREFETCH_COUNT (pilotOf (id / 256)) 0 st.store.length

/-- CANCEL; readiness of the same clock is discarded and counted (R147). -/
def State.cancel (s : State) (id : Nat) (readySame : Bool) : State :=
  let st := s.stream id
  if st.st.active ∨ st.st = .timeout then
    let s1 := s.discard id
    let s2 := s1.setStream id { s1.stream id with cancelling := true, stopping := false }
    ((if readySame then s2.bump F.STR_RACE_COUNT (id / 16) (id % 16) else s2)).settle id
  else s

/-- RESUME: WAITING again with the deadline ignored. -/
def State.resume (s : State) (id : Nat) : State :=
  let st := s.stream id
  if st.st = .timeout ∧ !st.ending then (s.setStream id { st with st := .waiting, dlIgnored := true, waitSince := s.siteNow (id / 256) }).refresh id else s

/-- A stream at index 0 and replay 0 with its store cleared; configuration, parameters and counts stay. -/
def Stream.rewound (st : Stream) : Stream :=
  { st with
    st := .idle, issueIdx := 0, retireIdx := 0, replay := 0, decIdx := 0, decReplay := 0, store := [], snaps := [],
    registered := false, met := 0, metAt := [], headErr := false, headLate := false, dlIgnored := false, dlRaised := false,
    nbReleased := false, gateReg := false, gateMet := false, stopping := false, cancelling := false, issued := [],
    walking := false, parked := none, lists := [] }

/-- REWIND. -/
def State.rewind (s : State) (id : Nat) : State :=
  let st := s.stream id
  if (st.st = .stopped ∨ st.st = .done) ∧ !st.ending then
    let s1 := s.discard id
    s1.setStream id (s1.stream id).rewound
  else s

/-- One stream command. -/
def State.strCmd (s : State) (id : Nat) (c : StrCmd) (readySame : Bool) : State :=
  match c with
  | .start => s.start id
  | .stop => s.stop id
  | .cancel => s.cancel id readySame
  | .resume => s.resume id
  | .rewind => s.rewind id

/-- The command a write of STR_CTRL means: the one of highest precedence (R132). -/
def ctrlCommand (v : Word) : Option StrCmd :=
  if bit v 2 then some .cancel
  else if bit v 1 then some .stop
  else if bit v 4 then some .rewind
  else if bit v 3 then some .resume
  else if bit v 0 then some .start
  else none

def execStrStart (stream : Nat) (s : State) : Host.Outcome State Fault Refusal := s.act (s.start stream)
def execStrStop (stream : Nat) (s : State) : Host.Outcome State Fault Refusal := s.act (s.stop stream)
def execStrCancel (stream : Nat) (readySame : Bool) (s : State) : Host.Outcome State Fault Refusal :=
  s.act (s.cancel stream readySame)
def execStrResume (stream : Nat) (s : State) : Host.Outcome State Fault Refusal := s.act (s.resume stream)
def execStrRewind (stream : Nat) (s : State) : Host.Outcome State Fault Refusal := s.act (s.rewind stream)

/-! ### Time (R149, R175 to R178) -/

/-- The head's bounded waits whose target has not been reached; a poll may have been met and not yet seen (R137). -/
def State.boundedUnmet (s : State) (id : Nat) (d : Decoded) : Bool :=
  (setBitsOf (s.unmet (s.stream id)) 4).any fun i => waitBounded (mWait d.words i) &&
    !s.waiters.any fun w => w.hit && w.stream == id && w.slot == i

/-- The site's tide has reached a deadline. -/
def State.past (s : State) (id : Nat) (ws : List Word) : Bool :=
  mDeadline ws != 0 && decide (mDeadline ws ≤ s.siteNow (id / 256))

/-- Count a timeout of a stream. -/
def State.timeoutMark (s : State) (id : Nat) : State := (s.bump F.STR_TIMEOUT_COUNT (id / 16) (id % 16)).event 0x03 (id / 16) 0

/-- Completion deadlines of the issued manifests; one that completes in the same tick, by its issue number, wins and is LATE
(R177). -/
def State.completionDeadlines (s : State) (id : Nat) (doneSame : List Nat) : State :=
  let st := s.stream id
  let isDue := fun (i : Issued) => !i.complete && mFlag i.d.words 5 && s.past id i.d.words && i.status / 2 % 2 == 0
  let wins := fun (i : Issued) => doneSame.contains i.d.seq
  let n := (st.issued.filter fun i => isDue i && !wins i).length
  let mark := fun (i : Issued) =>
    if isDue i then { i with status := statusOr i.status (if wins i then stLate else stTimeout) } else i
  (List.range n).foldl (fun t _ => t.timeoutMark id) (s.setStream id { st with issued := st.issued.map mark })

/-- The head's own completion deadline. -/
def State.headCompletion (s : State) (id : Nat) (doneSame : List Nat) : State :=
  let st := s.stream id
  match st.store with
  | d :: _ =>
    if st.registered ∧ mFlag d.words 5 ∧ s.past id d.words ∧ !st.dlRaised then
      if doneSame.contains st.nextSeq then s.setStream id { st with headLate := true }
      else (s.setStream id { st with dlRaised := true }).timeoutMark id
    else s
  | [] => s

/-- DEADLINE_TIMEOUT: what is decided at the end of a tide tick for a stream (R176); `waitSame` says that the head's bounded waits
are met in that tick, `doneSame` which manifests complete in it. DEDUCED, log entry 70. -/
def State.deadline (s : State) (id : Nat) (waitSame : Bool) (doneSame : List Nat) : State :=
  let s1 := (s.completionDeadlines id doneSame).headCompletion id doneSame
  let st := s1.stream id
  match st.store with
  | d :: _ =>
    if st.st.active ∧ !st.ending ∧ st.registered ∧ !st.dlIgnored ∧ s1.past id d.words ∧ s1.boundedUnmet id d then
      if waitSame then s1.setStream id { st with headLate := true }
      else
        let s2 := s1.endWaits id
        (s2.setStream id { s2.stream id with st := .timeout }).timeoutMark id
    else s1
  | [] => s1

def execDeadlineTimeout (stream : Nat) (waitSame : Bool) (s : State) (doneSame : List Nat := []) : Host.Outcome State Fault Refusal :=
  s.act (s.deadline stream waitSame doneSame)

/-- NOT_BEFORE_RELEASE: the first tick at or after NOT_BEFORE. -/
def State.notBefore (s : State) (id : Nat) : State :=
  let st := s.stream id
  match st.store with
  | d :: _ => if mNotBefore d.words ≤ s.siteNow (id / 256) then (s.setStream id { st with nbReleased := true }).refresh id else s
  | [] => s

def execNotBeforeRelease (stream : Nat) (s : State) : Host.Outcome State Fault Refusal := s.act (s.notBefore stream)

/-! ### The pilot's own operation codes (R118 to R120, R223) -/

/-- A live manifest of a code. -/
def State.liveOp (s : State) (d : Delivered) (op : Nat) : Bool := s.live d && mOpcode d.words == op

/-- NOP: waits and signals only. -/
def execNop (d : Delivered) (s : State) : Host.Outcome State Fault Refusal :=
  s.act (if s.liveOp d 0 then s.complete d 0 else s)

/-- PSET: a host write of the same clock wins (R120). -/
def State.pset (s : State) (d : Delivered) (hostSame : Bool) : State :=
  let st := s.stream d.stream
  let s1 := if hostSame then s
    else s.setStream d.stream { st with params := setNth st.params (mSubop d.words % 16) (mImm d.words) }
  s1.complete d 0

def execPset (d : Delivered) (hostSame : Bool) (s : State) : Host.Outcome State Fault Refusal :=
  s.act (if s.liveOp d 0x20 then s.pset d hostSame else s)

/-- Walk a SUBRING's list, all of it or the manifests flagged RECOMPUTE (R119, R223). -/
def State.subring (s : State) (d : Delivered) (only : Bool) : State :=
  match s.issuedOf d with
  | none => s
  | some i =>
    if !(s.stream d.stream).walking then s
    else (s.walkList d.stream ⟨listAddrs (opAddr (mOperand d.words 0)) (mImm d.words).toNat, d.wins, d.snap, i.idx, i.replay, 1, only,
      0⟩).walked d.stream

def execSubring (d : Delivered) (s : State) : Host.Outcome State Fault Refusal :=
  s.act (if s.liveOp d 0x21 ∧ mSubop d.words % 2 = 0 then s.subring d false else s)

/-- SUBRING_RECOMPUTE: only the manifests flagged RECOMPUTE (R223). -/
def execSubringRecompute (d : Delivered) (s : State) : Host.Outcome State Fault Refusal :=
  s.act (if s.liveOp d 0x21 ∧ mSubop d.words % 2 = 1 then s.subring d true else s)

/-- SCTRL: a stream of another context is a segment violation, and the command is not applied (R139). -/
def State.sctrl (s : State) (d : Delivered) (c : StrCmd) (readySame : Bool) : State :=
  let id := mArg d.words % 2 ^ 14
  if s.strCtx id ≠ d.ctx then (s.segViolation d.ctx 0x03 (id / 16) id d.addr).complete d stErr
  else (s.complete d 0).strCmd id c readySame

def execSctrlStart (d : Delivered) (s : State) : Host.Outcome State Fault Refusal :=
  s.act (if s.liveOp d 0x22 ∧ mSubop d.words = 0 then s.sctrl d .start false else s)
def execSctrlStop (d : Delivered) (s : State) : Host.Outcome State Fault Refusal :=
  s.act (if s.liveOp d 0x22 ∧ mSubop d.words = 1 then s.sctrl d .stop false else s)
def execSctrlCancel (d : Delivered) (readySame : Bool) (s : State) : Host.Outcome State Fault Refusal :=
  s.act (if s.liveOp d 0x22 ∧ mSubop d.words = 2 then s.sctrl d .cancel readySame else s)

/-- STAMP: the tide time of its issue, as the site reads it, to IMM (R118). -/
def State.stamp (s : State) (d : Delivered) : State :=
  let a := (mImm d.words).toNat
  let t := ((s.issuedOf d).map (·.tide)).getD 0
  s.metered (s.classOf d.ctx) d (pilotOf (d.stream / 256)) [] (s.writeSectors d a 8) fun u =>
    let w := u.ctxWrite d a (leBytes 8 t)
    w.2.finishWith d 0 w.1

def execStamp (d : Delivered) (s : State) : Host.Outcome State Fault Refusal :=
  s.act (if s.liveOp d 0x23 ∧ mSubop d.words < 128 then s.stamp d else s)

end Sys2Proof.Machine
end

