-- ==== Sys2Proof/Machine/Pontoon.lean ====
section
/-! DEFINITION. Pontoons and their receivers (R236 to R243, R262, R263), and combining blocks with what the operation
table leaves open. -/

namespace Sys2Proof.Machine

/-! ### Combining -/

/-- The formats that an operation combines (R237). -/
def combineLegal (op fmt : Nat) : Bool :=
  match op with
  | 0 => decide (fmt < 4)
  | 1 => decide (3 ≤ fmt)
  | _ => true

/-- Combine two blocks; for a format that the operation does not list the mantissas are free values (log entry 24). -/
def State.combineAt (s : State) (op fmt : Nat) (entry b : Block) : Combine × State :=
  if combineLegal op fmt then (combine op fmt entry b, s)
  else
    let n := max entry.m.length b.m.length
    (⟨⟨entry.e, (List.range n).map fun i => readMant fmt (Config.freeNat (s.free + i) % 2 ^ fmtBits fmt)⟩, 0, 0, false⟩,
     { s with free := s.free + n })

/-- Combine two rows of blocks. -/
def State.combineRow (s : State) (op fmt : Nat) : List Block → List Block → List Combine × State
  | x :: xs, y :: ys =>
    let c := s.combineAt op fmt x y
    let r := State.combineRow c.2 op fmt xs ys
    (c.1 :: r.1, r.2)
  | _, _ => ([], s)

/-- Combine two tensors row by row. -/
def State.combineRows (s : State) (op fmt : Nat) : List (List Block) → List (List Block) → List (List Combine) × State
  | x :: xs, y :: ys =>
    let c := s.combineRow op fmt x y
    let r := State.combineRows c.2 op fmt xs ys
    (c.1 :: r.1, r.2)
  | _, _ => ([], s)

/-- A dense tensor of a shape at given addresses (R187). -/
def denseHandle (fmt : Nat) (dims : List Nat) (a c : Nat) : Handle :=
  let st1 := denseRow (nth dims 0) fmt / 64
  { (default : Handle) with
    addr := a, saddr := c, fmt := fmt, rank := 4, dims := dims,
    strides := [st1, st1 * nth dims 1, st1 * nth dims 1 * nth dims 2], sstride := denseScale (nth dims 0) fmt }

def Handle.denseSize (h : Handle) : Nat := h.denseData + h.denseScales

/-- The identity translation of physical ranges. -/
def physXl : Nat → Nat → Nat → Nat := fun _ _ => id

/-! ### A pontoon -/

/-- The number names a pontoon: not at a hub position (R236), not of a site out of service. DEDUCED, log entry 82. -/
def State.isPontoon (s : State) (p : Nat) : Bool := decide (p < 1024) && !isHub (p / 16) && !s.outOfService (p / 16)

def State.ponDepth (s : State) (p : Nat) : Nat := s.rd F.PON_ENTRY_DEPTH p
def State.ponBytes (s : State) (p : Nat) : Nat := s.rd F.PON_ENTRY_BYTES64 p * 64

def Pontoon.entry (x : Pontoon) (i : Nat) : PEntry := Sparse.get (fun _ => PEntry.reset) x.entries i
def Pontoon.setEntry (x : Pontoon) (i : Nat) (e : PEntry) : Pontoon :=
  { x with entries := Sparse.put (fun _ => PEntry.reset) x.entries i e }

/-- The tensor that entry i of a pontoon holds. -/
def State.entryTensor (s : State) (p i : Nat) (dims : List Nat) : Handle :=
  let a := s.rd F.PON_BUF_ADDR p * 64 + i * s.ponBytes p
  let h := denseHandle (s.rd F.PON_CFG_FORMAT p) dims a 0
  { h with saddr := a + h.denseData }

/-- The entry of the oldest round, where it is READY. -/
def State.deliverable (s : State) (p : Nat) : Option PEntry :=
  let x := s.pontoon p
  let e := x.entry (x.next % s.ponDepth p)
  if e.applied ≠ [] ∧ e.round = x.next ∧ s.rd F.PON_CFG_EXPECT p ≤ e.applied.length then some e else none

/-- The pontoon serves PPUTs and PTAKEs (R262, R453). -/
def State.ponOn (s : State) (p : Nat) : Bool := s.isPontoon p && s.rd F.PON_CTRL_ENABLE p == 1 && !s.quiesced 0x0E p

/-- Signal that an entry or a message has become deliverable (R241). DEDUCED, log entry 81. -/
def State.ponSignal (s : State) (p : Nat) (err : Bool) : State :=
  let inc := s.rd F.PON_BOL_INCREMENT p
  s.signal (s.rd F.PON_CFG_CTX p) (s.rd F.PON_BOL_BOLLARD p) (if inc = 0 then 1 else inc) err 0

/-! ### PPUT (R239, R240) -/

def pputIndex (ws : List Word) : Nat := bits (mImm ws) 0 12
def pputRound (ws : List Word) : Nat := bits (mImm ws) 16 24

/-- The manifest still stands at the head of its stream, ready to issue. -/
def State.stillHead (s : State) (d : Delivered) : Option Decoded :=
  match (s.stream d.stream).store with
  | [] => none
  | h :: _ =>
    if s.headReady d.stream ∧ s.deliver d.stream h = d ∧ mOpcode d.words = 0x18 then some h else none

/-- Put a PPUT in arrival order: of one clock the lower source node stands first (R239). -/
def queuePput (w : Delivered × List Nat × Nat) : List (Delivered × List Nat × Nat) → List (Delivered × List Nat × Nat)
  | [] => [w]
  | x :: xs => if x.2.2 = w.2.2 ∧ w.1.stream / 256 < x.1.stream / 256 then w :: x :: xs else x :: queuePput w xs

/-- PPUT: ask the pontoon for a grant; the manifest stays at the head of its stream.  `same`: it asks in the clock of the PPUT that
asked last. -/
def State.pput (s : State) (d : Delivered) (ue : List Nat) (same : Bool) : State :=
  let p := mArg d.words % 1024
  let x := s.pontoon p
  match s.stillHead d with
  | none => s
  | some h =>
    if s.issuesNop d.stream h d ∨ (s.issueHeld d.stream d.words).isSome ∨ !s.accepts d.words ∨
        x.waiting.any (fun w => w.1 == d) then s
    else
      let clk := (x.waiting.map fun w => w.2.2).foldl max 0
      s.setPontoon p { x with waiting := queuePput (d, ue, if same then clk else clk + 1) x.waiting }

def execPput (d : Delivered) (ue : List Nat) (s : State) (same : Bool := false) : Host.Outcome State Fault Refusal :=
  s.act (s.pput d ue same)

/-- The contribution's handle. -/
def State.contribution (s : State) (d : Delivered) : Handle :=
  (s.handleOf d (opAddr (mOperand d.words 1))).getD default

/-- The pontoon rejects the PPUT (R240). DEDUCED, log entry 80. -/
def State.pputRejected (s : State) (p : Nat) (d : Delivered) : Bool :=
  let x := s.pontoon p
  let h := s.contribution d
  let r := pputRound d.words
  let e := x.entry (r % s.ponDepth p)
  s.rd F.PON_CFG_OP p != 3 &&
    (decide (s.rd F.PON_CFG_EXPECT p ≤ pputIndex d.words) || (e.round == r && e.applied.contains (pputIndex d.words)) ||
      x.granted.any (fun g => g.1 != d && pputRound g.1.words == r && pputIndex g.1.words == pputIndex d.words) ||
      !atOrAfter 24 r x.next || h.fmt != s.rd F.PON_CFG_FORMAT p || decide (s.ponBytes p < h.denseSize))

/-- The pontoon grants the PPUT (R239, R242). -/
def State.pputGranted (s : State) (p : Nat) (d : Delivered) : Bool :=
  let x := s.pontoon p
  let r := pputRound d.words
  let e := x.entry (r % s.ponDepth p)
  if s.rd F.PON_CFG_OP p = 3 then decide (x.msgs.length < s.ponDepth p * s.rd F.PON_ENTRY_BYTES64 p)
  else
    decide ((r + 2 ^ 24 - x.next) % 2 ^ 24 < s.ponDepth p) && (e.applied.isEmpty || e.round == r) &&
      (s.rd F.PON_CFG_ORDERED p == 0 || pputIndex d.words == e.applied.length)

/-- The PPUT is decided now: another context's, rejected, or granted. -/
def State.pputDecided (s : State) (p : Nat) (d : Delivered) : Bool :=
  s.rd F.PON_CFG_CTX p != d.ctx || s.pputRejected p d || s.pputGranted p d

/-- Write the combined blocks and count what combining found (R237, R263); the failures and the state. -/
def State.storeCombined (s : State) (p : Nat) (h : Handle) (rows : List (List Combine)) : List FailRange × State :=
  let all := rows.flatten
  let w := s.writeTensor physXl h (rows.map fun r => r.map (·.block))
  let s1 := (w.2.bump F.PON_SAT_COUNT p 0 ((all.map (·.sat)).sum)).bump F.PON_WRAP_COUNT p 0 ((all.map (·.wrap)).sum)
  (w.1, if all.any (·.mism) then s1.event 0x0E p 2 else s1)

/-- Apply a granted contribution: the first one is copied, a later one combined (R237). -/
def State.contribute (s : State) (p : Nat) (d : Delivered) (ue : List Nat) : State :=
  let x := s.pontoon p
  let r := pputRound d.words
  let i := r % s.ponDepth p
  let e := x.entry i
  let h := s.contribution d
  let plain := s.rd F.PON_CFG_OP p == 1
  let t := s.readTensor (s.xlate d .r) ue h plain
  let s0 := s.noteReads ue (h.sectorList (s.xlate d .r) false)
  let eh := s.entryTensor p i h.dims
  let et := s.readTensor physXl [] eh plain
  let cs := if e.applied = [] then (t.rows.map fun row => row.map fun b => (⟨b, 0, 0, false⟩ : Combine), s0)
    else (s0.noteReads [] (eh.sectorList physXl false)).combineRows (s.rd F.PON_CFG_OP p) h.fmt et.rows t.rows
  let w := cs.2.storeCombined p eh cs.1
  let bad := cs.1.flatten.any fun c => h.fmt != 4 && c.block.poisoned
  let inErr := (s.issuedOf d).any fun j => j.status / stErr % 2 == 1
  let lost := t.fails ++ (if e.applied = [] then [] else et.fails)
  let e' : PEntry := { round := r, applied := e.applied ++ [pputIndex d.words], err := e.err || inErr || !lost.isEmpty || !w.1.isEmpty,
                       poison := e.poison || bad, dims := if e.applied = [] then h.dims else e.dims }
  let x' := w.2.pontoon p
  let s2 := (w.2.setPontoon p ({ x' with granted := x'.granted.filter fun g => g.1 != d }.setEntry i e')).bump F.PON_APPLIED_COUNT p
  let s3 := if e'.applied.length = s.rd F.PON_CFG_EXPECT p ∧ r = x.next then s2.ponSignal p e'.err else s2
  s3.finishWith d (if bad then stPoison else 0) (sectorRanges lost ++ w.1)

/-- A granted contribution moves through its meters and is applied. -/
def State.applyGrant (s : State) (p : Nat) (d : Delivered) (ue : List Nat) : State :=
  let h := s.contribution d
  let eh := s.entryTensor p (pputRound d.words % s.ponDepth p) h.dims
  s.metered (s.classOf d.ctx) d (p / 16) (h.sectorList (s.xlate d .r) false).dedup (eh.sectorList physXl true).dedup
    fun t => t.contribute p d ue

/-- A message joins the pontoon (R242). -/
def State.message (s : State) (p : Nat) (d : Delivered) : State :=
  let x := s.pontoon p
  let bs := (s.winBytes d.wins (opAddr (mOperand d.words 1)) 64).getD []
  let s1 := (s.setPontoon p { x with msgs := x.msgs ++ [bs] }).bump F.PON_APPLIED_COUNT p
  (s1.ponSignal p false).finish d 0

/-- Issue a decided PPUT and carry it out. -/
def State.grant (s : State) (p : Nat) (d : Delivered) (ue : List Nat) (h : Decoded) : State :=
  let x := s.pontoon p
  let s0 := s.setPontoon p { x with waiting := x.waiting.filter fun w => w.1 != d }
  let s1 := s0.issueNow d.stream h
  if !s1.live d then s1
  else if s.rd F.PON_CFG_CTX p ≠ d.ctx then s1.foreign d 0x0E p 0
  else if s.pputRejected p d then ((s1.bump F.PON_ERR_COUNT p).event 0x0E p 0).finish d stErr
  else if s.rd F.PON_CFG_OP p = 3 then s1.message p d
  else
    let x1 := s1.pontoon p
    (s1.setPontoon p { x1 with granted := x1.granted ++ [(d, ue)] }).applyGrant p d ue

/-- PONTOON_GRANT: granted contributions that a meter held go on, and the first PPUT in arrival order that can be decided is. -/
def State.pontoonGrant (s : State) (p : Nat) : State :=
  if !s.ponOn p then s
  else
    let s1 := (s.pontoon p).granted.foldl (fun (t : State) g => t.applyGrant p g.1 g.2) s
    let x := s1.pontoon p
    let live := x.waiting.filter fun w => (s1.stillHead w.1).isSome
    let s2 := s1.setPontoon p { x with waiting := live }
    match live.find? fun w => s1.pputDecided p w.1 with
    | none => s2
    | some (d, ue, _) => match s1.stillHead d with
      | some h => s2.grant p d ue h
      | none => s2

def execPontoonGrant (pontoon : Nat) (s : State) : Host.Outcome State Fault Refusal := s.act (s.pontoonGrant pontoon)

/-- PONTOON_RESET: all entries FREE and NEXT_ROUND at ROUND_BASE (R262). -/
def State.pontoonReset (s : State) (p : Nat) : State :=
  if s.isPontoon p then
    s.setPontoon p { s.pontoon p with entries := [], granted := [], msgs := [], next := s.rd F.PON_BOL_ROUND_BASE p }
  else s

def execPontoonReset (pontoon : Nat) (s : State) : Host.Outcome State Fault Refusal := s.act (s.pontoonReset pontoon)

/-! ### PTAKE (R242, R243) -/

/-- The pontoons of a receiver set, ascending. -/
def receiverSet (ws : List Word) : List Nat := (setBitsOf (mArg ws % 65536) 16).map fun i => mArg ws / 65536 % 64 * 16 + i

/-- The pontoon has something to deliver. -/
def State.hasDelivery (s : State) (p : Nat) : Bool :=
  s.ponOn p && (if s.rd F.PON_CFG_OP p = 3 then !(s.pontoon p).msgs.isEmpty else (s.deliverable p).isSome)

/-- Of two pontoons in ascending order, the later goes first. -/
def State.laterFirst (s : State) (rotate : Bool) (a b : Nat) : Bool :=
  if rotate then decide ((s.pontoon b).lastTake < (s.pontoon a).lastTake)
  else decide (s.rd F.PON_CFG_PRIO a < s.rd F.PON_CFG_PRIO b)

/-- The pontoon a PTAKE selects. -/
def State.select (s : State) (ws : List Word) : Option Nat :=
  (((receiverSet ws).filter fun p => s.hasDelivery p).foldl (fun (acc : Option Nat) p =>
    match acc with
    | none => some p
    | some q => if s.laterFirst (mSubop ws % 2 == 1) q p then some p else some q) none)

/-- After a delivery the next round may be READY at once (R241). -/
def State.nextDeliverable (s : State) (p : Nat) : State :=
  match s.deliverable p with
  | some e => s.ponSignal p e.err
  | none => s

/-- Free the delivered entry: NEXT_ROUND and PON_LAST_TAKE advance. -/
def State.freeEntry (s : State) (p : Nat) : State :=
  let x := s.pontoon p
  let x1 := x.setEntry (x.next % s.ponDepth p) PEntry.reset
  (s.setPontoon p { x1 with next := (x.next + 1) % 2 ^ 24, lastTake := s.siteNow (p / 16) }).nextDeliverable p

/-- The descriptor of a delivery (R242). -/
def ponDesc (round p : Nat) (err poison : Bool) : List Byte :=
  leBytes 16 (round + p * 2 ^ 24 + err.toNat * 2 ^ 34 + poison.toNat * 2 ^ 35)

/-- Write the descriptor that a PTAKE asks for (R242). -/
def State.writeDesc (s : State) (d : Delivered) (bs : List Byte) : List FailRange × State :=
  if opPresent (mOperand d.words 1) then s.ctxWrite d (opAddr (mOperand d.words 1)) bs else ([], s)

/-- The sectors of that descriptor. -/
def State.descSectors (s : State) (d : Delivered) : List Nat :=
  if opPresent (mOperand d.words 1) then s.writeSectors d (opAddr (mOperand d.words 1)) 16 else []

/-- Deliver a tensor entry to the OPERAND0 handle in dense form. -/
def State.takeTensor (s : State) (d : Delivered) (p : Nat) (e : PEntry) : State :=
  let x := s.pontoon p
  let eh := s.entryTensor p (x.next % s.ponDepth p) e.dims
  match s.handleOf d (opAddr (mOperand d.words 0)) with
  | none => s.foreign d 0x0E p (opAddr (mOperand d.words 0))
  | some h =>
    let dst := denseHandle eh.fmt e.dims h.addr h.saddr
    let plain := s.rd F.PON_CFG_OP p == 1
    if !s.segsOf d .w (dst.ranges true) then s.foreign d 0x0E p h.addr
    else s.metered (s.classOf d.ctx) d (p / 16) (eh.sectorList physXl false).dedup
        ((dst.sectorList (s.xlate d .w) true).dedup ++ s.descSectors d) fun s0 =>
      let t := s0.readTensor physXl [] eh plain
      let n := (t.rows.flatten.filter fun b => eh.fmt != 4 && b.poisoned).length
      let w := (s0.noteReads [] (eh.sectorList physXl false)).writeTensor (s0.xlate d .w) dst t.rows
      let w2 := w.2.writeDesc d (ponDesc x.next p e.err (decide (0 < n)))
      (((w2.2.bump F.PON_POISON_COUNT p 0 n).freeEntry p)).finishWith d (if 0 < n then stPoison else 0)
        (w.1 ++ w2.1 ++ sectorRanges t.fails)

/-- Deliver the oldest message to the OPERAND0 address itself. -/
def State.takeMessage (s : State) (d : Delivered) (p : Nat) : State :=
  let x := s.pontoon p
  let a := opAddr (mOperand d.words 0)
  match x.msgs with
  | [] => s
  | m :: rest =>
    if !s.segsOf d .w [(a, 64)] then s.foreign d 0x0E p a
    else s.metered (s.classOf d.ctx) d (p / 16) [] (s.writeSectors d a 64 ++ s.descSectors d) fun t =>
      let w := t.ctxWrite d a m
      let w2 := w.2.writeDesc d (ponDesc x.next p false false)
      (w2.2.setPontoon p { w2.2.pontoon p with msgs := rest, lastTake := s.siteNow (p / 16) }).finishWith d 0 (w.1 ++ w2.1)

/-- An empty receiver set: nothing is written, ERR, UNDERRUN on the lowest pontoon (R243). -/
def State.underrun (s : State) (d : Delivered) : State :=
  let s1 := match (receiverSet d.words).head? with
    | some p => if s.isPontoon p then (s.bump F.PON_ERR_COUNT p).event 0x0E p 1 else s
    | none => s
  s1.finish d stErr

/-- PTAKE. -/
def State.ptake (s : State) (d : Delivered) : State :=
  match (receiverSet d.words).find? fun p => s.isPontoon p && s.rd F.PON_CFG_CTX p != d.ctx with
  | some p => s.foreign d 0x0E p 0
  | none =>
    match s.select d.words with
    | none => s.underrun d
    | some p =>
      if s.rd F.PON_CFG_OP p = 3 then s.takeMessage d p
      else match s.deliverable p with
        | some e => s.takeTensor d p e
        | none => s.underrun d

def execPtake (d : Delivered) (s : State) : Host.Outcome State Fault Refusal := s.act (if s.ready d then s.ptake d else s)

end Sys2Proof.Machine
end

