-- ==== Sys2Proof/Machine/Optimiser.lean ====
section
/-! DEFINITION. The optimiser units (R308 to R320, R334, R335): PREPARE with its update rules, COMMIT with its hold on
the veto result, and PUBLISH. -/

namespace Sys2Proof.Machine

/-! ### Descriptor, factor block and slots (R310 to R312) -/

structure Shard where
  w      : Nat
  ws     : Nat
  wd     : Nat
  wds    : Nat
  g      : Nat
  gs     : Nat
  slot   : Nat
  commit : Nat
  wTid   : Nat
  fmt    : Nat
  mTid   : Nat
  rule   : Nat
  vTid   : Nat
  zero   : Bool
  decay  : Bool
  efloor : Int
  n      : Nat
  e0     : Nat
  rlen   : Nat
  stride : Nat
  deriving DecidableEq, Repr

/-- Read a shard descriptor; RULE 3 reads as 0. -/
def Shard.ofBytes (bs : List Byte) : Shard :=
  let f := fun o n => leNat ((bs.drop o).take n)
  { w := f 0 8, ws := f 8 8, wd := f 0x10 8, wds := f 0x18 8, g := f 0x20 8, gs := f 0x28 8, slot := f 0x30 8,
    commit := f 0x38 8, wTid := f 0x40 3, fmt := f 0x43 1, mTid := f 0x44 3, rule := if f 0x47 1 ≤ 2 then f 0x47 1 else 0,
    vTid := f 0x48 3, zero := f 0x4B 1 % 2 == 1, decay := f 0x4B 1 / 2 % 2 == 1, efloor := signed 8 (f 0x4C 1),
    n := roundUp (f 0x50 4) 32, e0 := f 0x54 4, rlen := f 0x58 4, stride := f 0x5C 4 }

structure Factors where
  b1     : Nat
  b2     : Nat
  alphaM : Nat
  alphaE : Int
  epsE   : Int
  wdE    : Int
  epsM   : Nat
  wdM    : Nat
  step   : Nat
  deriving DecidableEq, Repr

def Factors.ofBytes (bs : List Byte) : Factors :=
  let f := fun o n => leNat ((bs.drop o).take n)
  { b1 := f 0 4, b2 := f 4 4, alphaM := f 8 4, alphaE := signed 8 (f 0xC 1), epsE := signed 8 (f 0xD 1),
    wdE := signed 8 (f 0xE 1), epsM := f 0x10 4, wdM := f 0x14 4, step := f 0x18 4 }

/-- Bytes of one part of a slot: data, then scale plane. -/
def partBytes (n fmt : Nat) : Nat := roundUp (n * fmtBits fmt / 8 + n / 32) 64

def Shard.momentBytes (h : Shard) : Nat := partBytes h.n 2
def Shard.offV (h : Shard) : Nat := 64 + h.momentBytes
def Shard.offW (h : Shard) : Nat := h.offV + (if h.rule = 2 then 0 else h.momentBytes)
def Shard.slotBytes (h : Shard) : Nat := h.offW + partBytes h.n h.fmt
def Shard.slotAddr (h : Shard) (i : Nat) : Nat := h.slot + i * h.slotBytes

/-- The logical index of element j (R310); of a shard whose RLEN is 0 it is open (log entry 159). -/
def Shard.logical (h : Shard) (j : Nat) : Nat :=
  if h.rlen = 0 then Config.divZero j else h.e0 + j / h.rlen * h.stride + j % h.rlen

/-- A run of n elements as a tensor. -/
def flatTensor (fmt n a c : Nat) : Handle := denseHandle fmt [n, 1, 1, 1] a c

def Shard.weights (h : Shard) : Handle := flatTensor h.fmt h.n h.w h.ws
def Shard.dest (h : Shard) : Handle := flatTensor h.fmt h.n h.wd h.wds
def Shard.grad (h : Shard) : Handle := flatTensor 3 h.n h.g h.gs
def Shard.m (h : Shard) (i : Nat) : Handle :=
  flatTensor 2 h.n (h.slotAddr i + 64) (h.slotAddr i + 64 + 2 * h.n)
def Shard.v (h : Shard) (i : Nat) : Handle :=
  flatTensor 2 h.n (h.slotAddr i + h.offV) (h.slotAddr i + h.offV + 2 * h.n)
def Shard.staged (h : Shard) (i : Nat) : Handle :=
  flatTensor h.fmt h.n (h.slotAddr i + h.offW) (h.slotAddr i + h.offW + h.n * fmtBits h.fmt / 8)

/-! ### The update rules (R313) -/

/-- a × 2^ea at exponent x. -/
def al (a ea x : Int) : Int := rneShift a (x - ea)

def sat48 (v : Int) : Nat × Nat := if 2 ^ 48 ≤ v then (2 ^ 48 - 1, 1) else (v.toNat, 0)

def sgn (v : Int) : Int := if 0 < v then 1 else if v < 0 then -1 else 0

/-- What a block's update gives. -/
structure Upd where
  m   : Block
  v   : Block
  w   : Block
  sat : Nat
  deriving DecidableEq, Repr

/-- The update of one block; `rq v x fmt tid` requantises with the block's rounding bits.
A root of 0 gives 0 (DEDUCED, log entry 88). -/
def updateBlock (h : Shard) (k : Factors) (rq : List Int → Int → Nat → Nat → Block × Nat) (w g m v : Block) : Upd :=
  let lane := fun (b : Block) (i : Nat) => b.m.getD i 0
  let is := List.range 32
  let x := max w.e h.efloor - 24
  let dk := fun i => if h.decay then al (k.wdM * lane w i) (k.wdE - 32 + w.e) x else 0
  let one : Int := 2 ^ 32
  match h.rule with
  | 1 =>
    let xm := max (m.e - 32) g.e - 8
    let m' := rq (is.map fun i => al (k.b1 * lane m i) (m.e - 32) xm + al (lane g i) g.e xm) xm 2 h.mTid
    let c := is.map fun i => al (lane w i) w.e x - al (k.alphaM * lane m'.1 i) (k.alphaE - 32 + m'.1.e) x - dk i
    let w' := rq c x h.fmt h.wTid
    ⟨m'.1, v, w'.1, m'.2 + w'.2⟩
  | 2 =>
    let xm := max (m.e - 32) (g.e - 32) - 8
    let d := fun i => al (k.b1 * lane m i) (m.e - 32) xm + al ((one - k.b1) * lane g i) (g.e - 32) xm
    let c := is.map fun i => al (lane w i) w.e x - sgn (d i) * al k.alphaM (k.alphaE - 32) x - dk i
    let a := is.map fun i => al (k.b2 * lane m i) (m.e - 32) xm + al ((one - k.b2) * lane g i) (g.e - 32) xm
    let m' := rq a xm 2 h.mTid
    let w' := rq c x h.fmt h.wTid
    ⟨m'.1, v, w'.1, m'.2 + w'.2⟩
  | _ =>
    let xm := max (m.e - 32) (g.e - 32) - 8
    let m' := rq (is.map fun i => al (k.b1 * lane m i) (m.e - 32) xm + al ((one - k.b1) * lane g i) (g.e - 32) xm) xm 2 h.mTid
    let xv := max (v.e - 32) (2 * g.e - 32) - 8
    let b := is.map fun i =>
      al (k.b2 * lane v i) (v.e - 32) xv + al ((one - k.b2) * lane g i * lane g i) (2 * g.e - 32) xv
    let v' := rq b xv 2 h.vTid
    let xs0 := v'.1.e - 24
    let xs := if xs0 % 2 = 0 then xs0 else xs0 - 1
    let ss := is.map fun i => sat48 (al (lane v'.1 i) v'.1.e xs + al k.epsM (k.epsE - 32) xs)
    let rs := ss.map fun t => fnRsqrt t.1
    let c := is.map fun i =>
      let r := (rs.getD i ((0, 0), 0)).1
      al (lane w i) w.e x - al (k.alphaM * lane m'.1 i * r.1) (k.alphaE - 32 + m'.1.e + r.2 - xs / 2) x - dk i
    let w' := rq c x h.fmt h.wTid
    ⟨m'.1, v'.1, w'.1, m'.2 + v'.2 + w'.2 + (ss.map Prod.snd).sum + (rs.map Prod.snd).sum⟩

/-- The block's part of the squared gradient norm, in units of 2⁻³² (R315). -/
def normPart (g : Block) : Nat :=
  (g.m.map fun m => if 0 ≤ 2 * g.e + 32 then m.natAbs ^ 2 * 2 ^ (2 * g.e + 32).toNat
    else m.natAbs ^ 2 / 2 ^ (-(2 * g.e + 32)).toNat).sum

/-! ### Shared parts of the OSTEPs -/

def ostepUnit (ws : List Word) : Nat := mArg ws % 32

/-- An OSTEP's unit counts and records that it completes with ERR (R334). -/
def State.ostepNote (s : State) (d : Delivered) (reason : Nat) : State :=
  let u := ostepUnit d.words
  if u < 24 then
    (((s.bump F.OPT_ERR_COUNT u).wr F.OPT_ERR_ADDR_ADDR u 0 (opAddr (mOperand d.words 0))).wr F.OPT_ERR_INFO_REASON u 0
      reason).event 0x0F u 0
  else s

/-- An OSTEP that does nothing and completes with ERR (R334). -/
def State.ostepErr (s : State) (d : Delivered) (reason status : Nat) (fs : List FailRange) : State :=
  (s.ostepNote d reason).finishWith d (statusOr stErr status) fs

/-- An OSTEP that has done its work: with failed parts it completes with ERR. -/
def State.ostepDone (s : State) (d : Delivered) (fs : List FailRange) : State :=
  if fs = [] then s.finish d 0 else s.ostepErr d 0 0 fs

/-- An OSTEP that its context's windows or a foreign mooring refuse. -/
def State.ostepForeign (s : State) (d : Delivered) (block inst addr : Nat) : State :=
  (s.ostepNote d 0).foreign d block inst addr

/-- Descriptor and factor block of an OSTEP. -/
def State.ostepArgs (s : State) (d : Delivered) : Shard × Factors :=
  (Shard.ofBytes ((s.winBytes d.wins (opAddr (mOperand d.words 0)) 128).getD []),
   Factors.ofBytes ((s.winBytes d.wins (opAddr (mOperand d.words 1)) 64).getD []))

/-- What the reads of descriptor and factor block count and record, and the parts that failed (log entry 147). -/
def State.readArgs (s : State) (d : Delivered) : List FailRange × State :=
  let node := portNode (2 * ostepUnit d.words)
  let a := opAddr (mOperand d.words 0)
  let b := opAddr (mOperand d.words 1)
  (sectorRanges (s.structFails d a 128 ++ s.structFails d b 64), (s.noteStruct d node a 128).noteStruct d node b 64)

/-- The unit is missing or disabled, or the steps differ: the reason (R308, R311, R334). -/
def State.ostepRefused (s : State) (d : Delivered) : Option Nat :=
  if 24 ≤ ostepUnit d.words then some 0
  else if s.rd F.OPT_CTRL_ENABLE (ostepUnit d.words) = 0 then some 6
  else if mStep d.words ≠ (s.ostepArgs d).2.step then some 4
  else none

/-- The commit word, and the failed part of its read. -/
def State.commitWord (s : State) (d : Delivered) (h : Shard) : Word :=
  BitVec.ofNat 64 (leNat ((List.range 8).map fun i => s.readByte [] (s.xlate d .w h.commit 8 (h.commit + i))))

def State.commitFails (s : State) (d : Delivered) (h : Shard) : List FailRange :=
  sectorRanges (s.failures [] (s.xlate d .w h.commit 8) h.commit 8)

def cwActive (w : Word) : Nat := bits w 0 1
def cwPrep (w : Word) : Bool := bit w 1
def cwStep (w : Word) : Nat := bits w 32 32

/-- PSTEP of a slot. -/
def State.pstep (s : State) (d : Delivered) (h : Shard) (i : Nat) : Nat :=
  leNat ((List.range 4).map fun j => s.readByte [] (s.xlate d .w (h.slotAddr i) 64 (h.slotAddr i + j)))

/-! ### PREPARE (R314, R315, R317) -/

/-- The updates of the blocks up to the first poisoned one, and whether one was met. -/
def updateAll (h : Shard) (k : Factors) (rq : Nat → List Int → Int → Nat → Nat → Block × Nat) :
    Nat → List (Block × Block × Block × Block) → List Upd × Bool
  | _, [] => ([], false)
  | i, (w, g, m, v) :: rest =>
    if w.poisoned || g.poisoned || m.poisoned || (h.rule != 2 && v.poisoned) then ([], true)
    else
      let r := updateAll h k rq (i + 1) rest
      (updateBlock h k (rq i) w g m v :: r.1, r.2)

/-- Write one part of the inactive slot. -/
def State.writePart (s : State) (d : Delivered) (h : Handle) (bs : List Block) : List FailRange × State :=
  let data := bs.flatMap fun b => blockBytes h.fmt b.m
  let sc := bs.map fun b => BitVec.ofNat 8 (code 8 b.e)
  let w1 := s.ctxWrite d h.addr data
  let w2 := w1.2.ctxWrite d h.saddr sc
  (w1.1 ++ w2.1, w2.2)

/-- Every part a PREPARE writes into the inactive slot. -/
def State.writeSlot (s : State) (d : Delivered) (h : Shard) (i step : Nat) (us : List Upd) : List FailRange × State :=
  let w0 := s.ctxWrite d (h.slotAddr i) (leBytes 4 step)
  let w1 := w0.2.writePart d (h.m i) (us.map (·.m))
  let w2 := if h.rule = 2 then ([], w1.2) else w1.2.writePart d (h.v i) (us.map (·.v))
  let w3 := w2.2.writePart d (h.staged i) (us.map (·.w))
  (w0.1 ++ w1.1 ++ w2.1 ++ w3.1, w3.2)

/-- The tensors a PREPARE reads. -/
def Shard.inputs (h : Shard) (active : Nat) : List Handle :=
  h.weights :: h.grad :: h.m active :: (if h.rule = 2 then [] else [h.v active])

/-- The ranges of a PREPARE pass the context's windows (R309). -/
def State.prepareSegs (s : State) (d : Delivered) (h : Shard) (active : Nat) : Bool :=
  s.segsOf d .r ((h.inputs active).flatMap fun x => x.ranges false) &&
  s.segsOf d .w [(h.slotAddr (1 - active), h.slotBytes), (h.commit, 8)]

/-- Add a shard's partial to its context's sum G (R315). -/
def State.addNorm (s : State) (ctx g : Nat) : State :=
  { s with gnorm := Sparse.put (fun _ => 0) s.gnorm ctx (min (2 ^ 96 - 1) (Sparse.get (fun _ => 0) s.gnorm ctx + g)) }

/-- Prepare a shard into its inactive slot: the commit word follows once every part of the slot is written, and the shard's partial is
added with it (R315, R317). DEDUCED, log entry 87. -/
def State.prepareShard (s : State) (d : Delivered) (ue : List Nat) (h : Shard) (k : Factors) (cw : Word) : State :=
  let u := ostepUnit d.words
  let act := cwActive cw
  let rd := fun (x : Handle) => s.readTensor (s.xlate d .r) ue x
  let tw := rd h.weights
  let tg := rd h.grad
  let tm := rd (h.m act)
  let tv := if h.rule = 2 then ⟨[], []⟩ else rd (h.v act)
  let blk := fun (t : TensorData) (i : Nat) => (t.rows.headD []).getD i ⟨-127, List.replicate 32 0⟩
  let bs := (List.range (h.n / 32)).map fun i => (blk tw i, blk tg i, blk tm i, blk tv i)
  let rq := fun (i : Nat) (v : List Int) (x : Int) (fmt tid : Nat) => requantBlock v x fmt
    (some fun j => roundHash (s.ctx d.ctx).keyLo (s.ctx d.ctx).keyHi (mStep d.words) tid (h.logical (32 * i + j)))
  let r := updateAll h k rq 0 bs
  let lost := (tw.fails ++ tg.fails ++ tm.fails ++ tv.fails).dedup
  let s1 := s.noteReads ue ((h.inputs act).flatMap fun x => x.sectorList (s.xlate d .r) false)
  let w := s1.writeSlot d h (1 - act) (mStep d.words) r.1
  let s2 := (w.2.bump F.OPT_BLOCKS_COUNT u 0 r.1.length).bump F.OPT_SAT_COUNT u 0 ((r.1.map (·.sat)).sum)
  let fs := sectorRanges lost ++ w.1
  if r.2 then
    (((s2.bump F.OPT_POISON_COUNT u).event 0x0F u 1).raise d.ctx 3 0x0F u (opAddr (mOperand d.words 0)) d.addr).ostepErr d 5
      stPoison fs
  else if w.1 ≠ [] then s2.ostepErr d 0 0 fs
  else
    let c := s2.ctxWrite d h.commit (leBytes 8 (setBits cw 1 1 1).toNat)
    (if c.1 = [] then c.2.addNorm d.ctx ((tg.rows.headD []).map normPart).sum else c.2).ostepDone d (fs ++ c.1)

/-- The sectors a PREPARE reads and writes. -/
def State.prepareReads (s : State) (d : Delivered) (h : Shard) (act : Nat) : List Nat :=
  ((h.inputs act).flatMap fun x => x.sectorList (s.xlate d .r) false).dedup

def State.prepareWrites (s : State) (d : Delivered) (h : Shard) (act : Nat) : List Nat :=
  s.writeSectors d (h.slotAddr (1 - act)) h.slotBytes ++ s.writeSectors d h.commit 8

/-- PREPARE by the commit word found. -/
def State.prepare (s0 : State) (d : Delivered) (ue : List Nat) : State :=
  let a := s0.ostepArgs d
  let cw := s0.commitWord d a.1
  let r := s0.readArgs d
  let s := r.2
  if r.1 ≠ [] ∧ ostepUnit d.words < 24 then s.ostepErr d 0 0 r.1
  else match s.ostepRefused d with
  | some r => s.ostepErr d r 0 []
  | none =>
    if !s.prepareSegs d a.1 (cwActive cw) then s.ostepForeign d 0x0F (ostepUnit d.words) a.1.w
    else if s.commitFails d a.1 ≠ [] then
      (s.noteRange (s.xlate d .w a.1.commit 8) a.1.commit 8).ostepErr d 0 0 (s.commitFails d a.1)
    else if cwPrep cw then
      (if s.pstep d a.1 (1 - cwActive cw) = mStep d.words then s.finish d 0 else s.ostepErr d 1 0 [])
    else if cwStep cw = mStep d.words then s.finish d 0
    else s.metered (s.classOf d.ctx) d (portNode (2 * ostepUnit d.words)) (s.prepareReads d a.1 (cwActive cw))
      (s.prepareWrites d a.1 (cwActive cw)) fun t => t.prepareShard d ue a.1 a.2 cw

def ostepSub (d : Delivered) (i : Nat) : Bool := mOpcode d.words == 0x1C && mSubop d.words == i

def execOstepPrepare (d : Delivered) (ue : List Nat) (s : State) : Host.Outcome State Fault Refusal :=
  s.act (if s.ready d ∧ ostepSub d 0 then s.prepare d ue else s)

/-! ### COMMIT (R318, R319) -/

def commitChannel (ws : List Word) : Nat := mArg ws / 256 % 4

/-- The ranges of a COMMIT pass the context's windows. -/
def State.commitSegs (s : State) (d : Delivered) (h : Shard) : Bool :=
  s.segsOf d .w (h.dest.ranges true ++ [(h.slot, 2 * h.slotBytes), (h.commit, 8)] ++
    (if h.zero then [(h.g, 4 * h.n)] else []))

/-- Zero the gradient's mantissas where the shard asks for it. -/
def State.zeroGrad (s : State) (d : Delivered) (h : Shard) : List FailRange × State :=
  if h.zero then s.ctxWrite d h.g (List.replicate (4 * h.n) (0 : Byte)) else ([], s)

/-- Copy a slot's staged weights to their destination. -/
def State.copyStaged (s : State) (d : Delivered) (h : Shard) (i : Nat) : List FailRange × State :=
  let src := h.staged i
  let f := s.xlate d .w (h.slotAddr i) h.slotBytes
  let rd := fun a n => (List.range n).map fun j => s.readByte [] (f (a + j))
  let w1 := s.ctxWrite d h.wd (rd src.addr (h.n * fmtBits h.fmt / 8))
  let w2 := w1.2.ctxWrite d h.wds (rd src.saddr (h.n / 32))
  (w1.1 ++ w2.1, w2.2)

/-- A released COMMIT's actions, in order (R319). -/
def State.commitActions (s : State) (d : Delivered) (h : Shard) (clear : Bool) : Option (List FailRange × State) :=
  let cw := s.commitWord d h
  let inactive := 1 - cwActive cw
  let prepared := cwPrep cw && s.pstep d h inactive == mStep d.words
  if clear then
    if prepared then
      let w1 := s.copyStaged d h inactive
      let cw' := setBits (setBits (setBits cw 0 1 inactive) 1 1 0) 32 32 (mStep d.words)
      let w2 := w1.2.ctxWrite d h.commit (leBytes 8 cw'.toNat)
      let w3 := w2.2.zeroGrad d h
      some (w1.1 ++ w2.1 ++ w3.1, w3.2)
    else if !cwPrep cw ∧ cwStep cw = mStep d.words then some (s.zeroGrad d h)
    else none
  else if prepared then
    let w1 := s.ctxWrite d h.commit (leBytes 8 (setBits cw 1 1 0).toNat)
    let w2 := w1.2.zeroGrad d h
    some (w1.1 ++ w2.1, w2.2)
  else some (s.zeroGrad d h)

/-- Sectors a COMMIT reads: the staged weights and the commit word. -/
def State.commitReads (s : State) (d : Delivered) (h : Shard) : List Nat :=
  ((h.staged 0).sectorList (s.xlate d .w) true ++ s.writeSectors d h.commit 8).dedup

/-- Sectors a COMMIT writes: the weights, the commit word and the gradient. -/
def State.commitWrites (s : State) (d : Delivered) (h : Shard) : List Nat :=
  (h.dest.sectorList (s.xlate d .w) true ++ s.writeSectors d h.commit 8 ++
    (if h.zero then s.writeSectors d h.g (4 * h.n) else [])).dedup

/-- The channel's result for the COMMIT's step has been applied. -/
def State.commitReady (s : State) (d : Delivered) : Bool :=
  let c := s.veto (commitChannel d.words)
  c.step == mStep d.words && (c.st == .clear || c.st == .veto)

/-- Run a released COMMIT through its meters; `leave` takes it from its place in the unit. -/
def State.runCommit (s : State) (d : Delivered) (leave : State → State) : State :=
  let h := (s.ostepArgs d).1
  let clear := (s.veto (commitChannel d.words)).st == .clear
  s.metered (s.classOf d.ctx) d (portNode (2 * ostepUnit d.words)) (s.commitReads d h) (s.commitWrites d h) fun t =>
    let t1 := (leave t).noteReads [] (t.commitReads d h)
    if t1.commitFails d h ≠ [] then t1.ostepErr d 0 0 (t1.commitFails d h)
    else match t1.commitActions d h clear with
      | some w => w.2.ostepDone d w.1
      | none => t1.ostepErr d 2 0 []

/-- COMMIT: its channel's result for the step releases it at once, another step fails it, and else it waits at its unit with its
context's later entries behind it (R318). -/
def State.commit (s0 : State) (d : Delivered) : State :=
  let r := s0.readArgs d
  let s := r.2
  if r.1 ≠ [] ∧ ostepUnit d.words < 24 then s.ostepErr d 0 0 r.1
  else match s.ostepRefused d with
  | some r => s.ostepErr d r 0 []
  | none =>
    if !s.commitSegs d (s.ostepArgs d).1 then s.ostepForeign d 0x0F (ostepUnit d.words) (s.ostepArgs d).1.wd
    else if (s.veto (commitChannel d.words)).step ≠ mStep d.words then s.ostepErr d 3 0 []
    else if s.commitReady d then s.runCommit d id
    else { s.letGo d with optHeld := Sparse.insert s.optHeld (ostepUnit d.words * 64 + d.ctx) d }

def execOstepCommit (d : Delivered) (s : State) : Host.Outcome State Fault Refusal :=
  s.act (if s.ready d ∧ ostepSub d 1 then s.commit d else s)

/-- Release a held COMMIT, or fail it where its channel has left the step. -/
def State.releaseCommit (s : State) (k : Nat) (d : Delivered) : State :=
  let gone := fun (t : State) => { t with optHeld := Sparse.erase t.optHeld k }
  if s.issuedOf d = none then gone s
  else if (s.veto (commitChannel d.words)).step ≠ mStep d.words then (gone s).ostepErr d 3 0 []
  else if s.commitReady d then s.runCommit d gone
  else s

/-- COMMIT_RELEASE: the held COMMITs of a unit, by context. -/
def State.commitRelease (s : State) (unit : Nat) : State :=
  (s.optHeld.filter fun e => e.1 / 64 == unit).foldl (fun t e => t.releaseCommit e.1 e.2) s

def execCommitRelease (unit : Nat) (s : State) : Host.Outcome State Fault Refusal := s.act (s.commitRelease unit)

/-! ### PUBLISH (R309) -/

/-- PUBLISH: the mooring's version, then its publish; a refused publish completes with ERR. -/
def State.ostepPublish (s : State) (d : Delivered) : State :=
  let u := ostepUnit d.words
  let m := mArg d.words / 65536 % 128
  if 24 ≤ u then s.ostepErr d 0 0 []
  else if s.rd F.OPT_CTRL_ENABLE u = 0 then s.ostepErr d 6 0 []
  else if s.stageCtx (m / 8) ≠ d.ctx then s.ostepForeign d 0x0B (m / 8) 0
  else
    let s1 := if (s.mooring m).live then s.event 0x0B (m / 8) 4 else s.wr F.MOR_CFG_VERSION (m / 8) (m % 8) (bits (mImm d.words) 0 16)
    let r := s1.publish m
    if r.1 then r.2.finish d 0 else r.2.ostepErr d 0 0 []

def execOstepPublish (d : Delivered) (s : State) : Host.Outcome State Fault Refusal :=
  s.act (if s.ready d ∧ ostepSub d 2 then s.ostepPublish d else s)

end Sys2Proof.Machine
end

