-- ==== Sys2Proof/Machine/VetoTree.lean ====
section
/-! DEFINITION. The step veto (R79, R80, R247, R255 to R261, R264, R265). -/

namespace Sys2Proof.Machine

/-- PG_EVENT of the module-wide PON page. -/
def State.vetoEvent (s : State) (i : Nat) : State := s.event 0x0E 432 i

def State.vetoOn (s : State) (ch : Nat) : Bool := decide (ch < 4) && s.rd F.PON_JOB_ENABLE 432 ch == 1
def State.vetoCtx (s : State) (ch : Nat) : Nat := s.rd F.PON_JOB_CTX 432 ch
def State.vetoRoot (s : State) (ch : Nat) : Bool := s.rd F.PON_VETO_TREE_ROOT 432 ch == 1
def State.vetoChildren (s : State) (ch : Nat) : List Nat := setBitsOf (s.rd F.PON_VETO_TREE_CHILDREN 432 ch) 48

/-- The cores whose flags a context's channel gathers (R255). -/
def State.ctxCores (s : State) (ctx : Nat) : List Nat :=
  (setBitsOf (s.ctxSites ctx) 64).flatMap fun x => (List.range 16).map fun c => x * 16 + c

/-- The gradient-norm condition of a context (R79, R315). -/
def State.normHigh (s : State) (ctx : Nat) : Bool :=
  decide (2 ^ s.rd F.OPT_GNORM_GN_EXP 24 ctx ≤ Sparse.get (fun _ => 0) s.gnorm ctx)

/-- The 16 bytes of a veto message (R256). -/
def vetoBytes (m : VetoMsg) : List Byte :=
  leBytes 2 m.job ++ leBytes 1 m.down.toNat ++ leBytes 1 (m.veto.toNat + 2 * m.mismatch.toNat) ++ leBytes 4 m.step ++
    leBytes 2 m.count ++ List.replicate 6 (0 : Byte)

/-- Read a veto message. -/
def vetoOfBytes (bs : List Byte) : VetoMsg :=
  let f := fun o n => leNat ((bs.drop o).take n)
  ⟨f 0 2, f 2 1 % 2 == 1, f 3 1 % 2 == 1, f 3 1 / 2 % 2 == 1, f 4 4, f 8 2⟩

/-- Every child's UP has been received. -/
def State.childrenIn (s : State) (ch : Nat) : Bool :=
  (s.vetoChildren ch).all fun p => (s.veto ch).ups.any fun u => u.1 == p

/-- The count and veto bit of a subtree (R257). -/
def Veto.total (v : Veto) : Nat × Bool :=
  ((1 + (v.ups.map fun u => u.2.2).sum) % 2 ^ 16, v.contrib || v.ups.any fun u => u.2.1)

/-! ### Applying a result (R258) -/

/-- Write a result record; its sectors are charged to the job's class (R169). -/
def State.vetoRecord (s : State) (ch result flags count : Nat) : State :=
  s.recordWrite (s.vetoCtx ch) (s.classOf (s.vetoCtx ch)) (s.rd F.PON_VETO_REC_ADDR 432 ch * 16)
    (leBytes 4 (s.veto ch).step ++ leBytes 1 result ++ leBytes 1 flags ++ leBytes 2 count ++ leBytes 8 s.now)

/-- Reset the local flags, the step's saturation counts and G (R80, R315). -/
def State.resetFlags (s : State) (ctx : Nat) : State :=
  let s1 := (s.ctxCores ctx).foldl (fun t c => (t.wr F.TC_ABSURD_FLAG c 0 0).wr F.TC_SAT_CNT_COUNT c 0 0) s
  { s1.wr F.OPT_GNORM_FLAG 24 ctx 0 with gnorm := Sparse.put (fun _ => 0) s1.gnorm ctx 0 }

/-- Apply a result: record, state, signal, and the flags reset.  A result in the deadline's tick is LATE (R259). -/
def State.vetoApply (s : State) (ch : Nat) (veto mism driver : Bool) (count : Nat) : State :=
  let v := s.veto ch
  let late := !driver && s.tide.reached 27 v.deadline
  let s1 := s.vetoRecord ch (if veto then 2 else 1) (late.toNat + 2 * driver.toNat + 4 * mism.toNat) (if driver then 0 else count)
  let s2 := s1.setVeto ch { v with st := if veto then .veto else .clear, late := late, mismatch := mism }
  let s3 := s2.signal (s.vetoCtx ch) (s.rd F.PON_VETO_CFG_BOLLARD 432 ch) 1 false 0
  (if veto then s3.vetoEvent 1 else s3).resetFlags (s.vetoCtx ch)

/-- The veto deadline's tick is over (R177, R259). -/
def State.vetoPast (s : State) (ch : Nat) : Bool :=
  let v := s.veto ch
  v.st == .closed && decide (v.deadline ≤ s.now) && !s.tide.reached 27 v.deadline

/-- No result by the end of the deadline's tick: the channel is HELD (R259). -/
def State.vetoHold (s : State) (ch : Nat) : State :=
  if s.vetoPast ch then
    (((s.vetoRecord ch 3 0 0).setVeto ch { s.veto ch with st := .held }).bump F.PON_VETO_HOLDS_COUNT 432 ch).vetoEvent 0
  else s

/-- A channel has a result for its step: applied in CLOSED, only recorded in HELD (R258, R260), and forwarded in both. -/
def State.vetoResult (s0 : State) (ch : Nat) (veto mism : Bool) (count : Nat) : State :=
  let s := s0.vetoHold ch
  let fwd := ((s.veto ch).step, veto, mism, count)
  let s1 := if (s.veto ch).st = .closed then s.vetoApply ch veto mism false count
    else s.setVeto ch { s.veto ch with lateResult := true, lateVeto := veto }
  s1.setVeto ch { s1.veto ch with down := (s1.veto ch).down ++ [fwd] }

/-- The root decides each step once, when it holds its close and every child's UP (R257); in HELD it records its own decision as it
would a DOWN's (DEDUCED, log entry 153). -/
def State.vetoDecide (s : State) (ch : Nat) : State :=
  let v := s.veto ch
  if s.vetoRoot ch ∧ (v.st = .closed ∨ v.st = .held) ∧ !v.upSent ∧ s.childrenIn ch then
    let mism := v.total.1 != s.rd F.PON_VETO_CFG_MEMBERS 432 ch
    (s.setVeto ch { v with upSent := true }).vetoResult ch (v.total.2 || mism) mism v.total.1
  else s

/-! ### Closing (R255) -/

/-- Sample the gradient-norm condition into the context's FLAG. -/
def State.sampleNorm (s : State) (ctx : Nat) : State :=
  if s.normHigh ctx ∧ s.rd F.OPT_GNORM_FLAG 24 ctx = 0 then (s.wr F.OPT_GNORM_FLAG 24 ctx 1).event 0x0F 24 0 else s

/-- VETO_CLOSE. -/
def State.vetoClose (s : State) (ch step : Nat) : State :=
  let v := s.veto ch
  if !s.vetoOn ch then s
  else if v.everClosed ∧ !((v.st = .clear ∨ v.st = .veto) ∧ step = (v.step + 1) % 2 ^ 32) then s.vetoEvent 4
  else
    let ctx := s.vetoCtx ch
    let s1 := s.sampleNorm ctx
    let own := ((s1.ctxCores ctx).any fun c => s1.rd F.TC_ABSURD_FLAG c == 1) || s1.normHigh ctx
    let kids := s1.vetoChildren ch
    let now := v.kept.filter fun k => k.2.step == step && kids.contains k.1
    let s2 := s1.setVeto ch { Veto.reset with
      st := .closed, step := step, everClosed := true, contrib := own
      ups := now.map fun k => (k.1, k.2.veto, k.2.count), down := v.down
      deadline := s1.now + s1.rd F.PON_VETO_CFG_WINDOW_US 432 ch * 1000 }
    let s3 := if v.kept.any fun k => k.2.step != step then s2.vetoEvent 3 else s2
    s3.vetoDecide ch

def execVetoClose (ch step : Nat) (s : State) : Host.Outcome State Fault Refusal := s.act (s.vetoClose ch step)

/-! ### Messages (R256, R257) -/

/-- The channel of a message's JOB. -/
def State.vetoChannel (s : State) (job : Nat) : Option Nat :=
  (List.range 4).find? fun c => s.vetoOn c && s.rd F.PON_JOB_JOB 432 c == job

/-- VETO_UP_RECEIVE: an UP for the step after the last resolved one is kept; before the first close every UP is (DEDUCED,
log entry 25). -/
def State.vetoUp (s : State) (port : Nat) (m : VetoMsg) : State :=
  match s.vetoChannel m.job with
  | none => s.vetoEvent 3
  | some ch =>
    let v := s.veto ch
    let next := !v.everClosed || ((v.st == .clear || v.st == .veto) && m.step == (v.step + 1) % 2 ^ 32)
    if !(s.vetoChildren ch).contains port then s.vetoEvent 3
    else if next then
      (if v.kept.any fun k => k.1 == port && k.2.step == m.step then s
       else s.setVeto ch { v with kept := v.kept ++ [(port, m)] })
    else if m.step ≠ v.step then s.vetoEvent 3
    else if (v.st = .closed ∨ v.st = .held) ∧ !v.ups.any fun u => u.1 == port then
      (s.setVeto ch { v with ups := v.ups ++ [(port, m.veto, m.count)] }).vetoDecide ch
    else s

def execVetoUpReceive (port : Nat) (m : VetoMsg) (s : State) : Host.Outcome State Fault Refusal := s.act (s.vetoUp port m)

/-- VETO_UP_SEND: one UP per step, from a module that is not the root. -/
def State.vetoUpSend (s : State) (ch : Nat) : State :=
  let v := s.veto ch
  if s.vetoOn ch ∧ !s.vetoRoot ch ∧ (v.st = .closed ∨ v.st = .held) ∧ !v.upSent ∧ s.childrenIn ch then
    (s.setVeto ch { v with upSent := true }).sendLocal (s.rd F.PON_VETO_TREE_PARENT 432 ch) msgVeto
      (vetoBytes ⟨s.rd F.PON_JOB_JOB 432 ch, false, v.total.2, false, v.step, v.total.1⟩)
  else s

def execVetoUpSend (ch : Nat) (s : State) : Host.Outcome State Fault Refusal := s.act (s.vetoUpSend ch)

/-- VETO_DOWN_RECEIVE. -/
def State.vetoDown (s : State) (m : VetoMsg) : State :=
  match s.vetoChannel m.job with
  | none => s.vetoEvent 3
  | some ch =>
    let v := s.veto ch
    if !v.everClosed ∨ m.step ≠ v.step then s.vetoEvent 3
    else if v.st = .closed ∨ v.st = .held then s.vetoResult ch m.veto m.mismatch m.count
    else s

def execVetoDownReceive (_port : Nat) (m : VetoMsg) (s : State) : Host.Outcome State Fault Refusal := s.act (s.vetoDown m)

/-- VETO_DOWN_SEND: the oldest DOWN to every child. -/
def State.vetoDownSend (s : State) (ch : Nat) : State :=
  let v := s.veto ch
  match v.down with
  | (step, veto, mism, count) :: rest =>
    if s.vetoOn ch then
      (s.vetoChildren ch).foldl (fun t p => t.sendLocal p msgVeto
        (vetoBytes ⟨s.rd F.PON_JOB_JOB 432 ch, true, veto, mism, step, count⟩)) (s.setVeto ch { v with down := rest })
    else s
  | [] => s

def execVetoDownSend (ch : Nat) (s : State) : Host.Outcome State Fault Refusal := s.act (s.vetoDownSend ch)

/-! ### Holds (R259, R260) -/

/-- VETO_DEADLINE: decided once the deadline's tick is over. -/
def State.vetoDeadline (s : State) (ch : Nat) : State := if s.vetoOn ch then s.vetoHold ch else s

def execVetoDeadline (ch : Nat) (s : State) : Host.Outcome State Fault Refusal := s.act (s.vetoDeadline ch)

/-- The driver's resolution, ignored outside HELD (R265); a teardown that disabled the channel leaves it HELD (R407). -/
def State.vetoResolve (s : State) (ch : Nat) (veto : Bool) : State :=
  if ch < 4 ∧ (s.veto ch).st = .held then s.vetoApply ch veto false true 0 else s

def execVetoCmdCommit (ch : Nat) (s : State) : Host.Outcome State Fault Refusal := s.act (s.vetoResolve ch false)
def execVetoCmdDiscard (ch : Nat) (s : State) : Host.Outcome State Fault Refusal := s.act (s.vetoResolve ch true)

/-- A write of PON_JOB: a channel that becomes enabled starts OPEN, and its first close may name any step (R255). -/
def State.vetoJob (s : State) (ch : Nat) (v : Word) : State :=
  let s1 := s.writeField 0x0E 432 (0x40 + 0x40 * ch) v
  if !s.vetoOn ch ∧ s1.vetoOn ch then s1.setVeto ch Veto.reset else s1

end Sys2Proof.Machine
end

