-- ==== Sys2Proof/Machine/Adder.lean ====
section
/-! DEFINITION. The memory-side adders (R68, R237, R245, R246): one block combined with the block in memory. -/

namespace Sys2Proof.Machine

/-- The block that stands in memory at a data and a scale address. -/
def State.blockAt (s : State) (fmt n a c : Nat) (plain : Bool := false) : Block :=
  readRowBlock (fun o => s.readByte [] (a + o)) (fun _ => s.readByte [] c) fmt n 0 plain

/-- Write a block's data and scale byte at physical addresses: the failed ranges and the state. -/
def State.putBlock (s : State) (fmt a c : Nat) (b : Block) : List FailRange × State :=
  let w1 := s.writeThrough id a (blockBytes fmt b.m)
  if fmt = 4 then w1
  else
    let w2 := w1.2.writeThrough id c [BitVec.ofNat 8 (code 8 b.e)]
    (w1.1 ++ w2.1, w2.2)

/-- An add touches a chunk that is not SAVED. -/
def State.addHeld (s : State) (fmt a c n : Nat) : Option (Nat × Chunk) :=
  match s.unsavedChunk a n with
  | some x => some x
  | none => if fmt = 4 then none else s.unsavedChunk c 1

/-- The sectors a block and its scale byte stand in. -/
def blockSectors (fmt a c : Nat) : List Nat := sectors a (4 * fmtBits fmt) ++ (if fmt = 4 then [] else sectors c 1)

/-- Combine a block into memory (R245); an add to an unsaved chunk is held (R324).  `n` of its elements lie inside the tensor:
the rest of the block reads as zero and is written as zero (R46).  The reads of the merge count as reads (R284); where one is
uncorrectable a block of an S format is poisoned and plain i32 is not written (R285, R506; DEDUCED, log entry 132).  A format
that the operation does not list gives free mantissas (log entry 24). -/
def State.addBlock (s : State) (op fmt a c n : Nat) (b : Block) : List FailRange × State :=
  let data := blockBytes fmt b.m
  match s.addHeld fmt a c data.length with
  | some (i, ch) => ([], s.holdWrite a (data ++ [BitVec.ofNat 8 (code 8 b.e)]) (some (fmt, op, c)) i ch)
  | none =>
    let secs := blockSectors fmt a c
    let fails := secs.filterMap fun x => (s.readCause [] x).map fun w => (x, w)
    let s1 := s.noteReads [] secs
    if fails = [] then
      let r := s1.combineAt op fmt (s.blockAt fmt n a c (op == 1)) ⟨b.e, b.m.take n⟩
      r.2.putBlock fmt a c r.1.block
    else if fmt = 4 then (sectorRanges fails, s1)
    else
      let w := s1.putBlock fmt a c (Block.poison n)
      (sectorRanges fails ++ w.1, w.2)

/-- The block a held add carries. -/
def heldBlock (fmt op : Nat) (data : List Byte) : Block :=
  let n := data.length - 1
  readRowBlock (fun o => data.getD o 0) (fun _ => data.getD n 0) fmt 32 0 (op == 1)

/-- Carry out a held write or add. -/
def State.doHeld (s : State) (h : HeldWrite) : State :=
  match h.add with
  | none => if h.own ≠ [] then s.grantLine (h.addr / 64) h.own else
    let r := s.memWrite 27 false h.addr h.data MemFx.clean
    if r.1 = 0 then r.2.ticket h.ticket else r.2
  | some (fmt, op, c) => (s.addBlock op fmt h.addr c 32 (heldBlock fmt op h.data)).2

end Sys2Proof.Machine
end

