-- ==== Sys2Proof/Machine/Checkpoint.lean ====
section
/-! DEFINITION. The checkpoint engine (R321 to R333, R336, R337): snapshots chunk by chunk with save-ahead, exports and
restores, through the staging ring. -/

namespace Sys2Proof.Machine

def State.setCkpt (s : State) (k : Ckpt) : State := { s with ckpt := k }
def State.ckpEvent (s : State) (i : Nat) : State := s.event 0x10 0 i

/-! ### The staging ring (R328) -/

/-- Units of 64 bytes in the ring. -/
def State.ringUnits (s : State) : Nat := s.rd F.CKP_STAGE_LEN_LEN * 64

/-- Units between CONS and PROD; both count on modulo 2³² (DEDUCED, log entry 26). -/
def State.ringUsed (s : State) : Nat := (s.rd F.CKP_STAGE_IDX_PROD + 2 ^ 32 - s.rd F.CKP_STAGE_IDX_CONS) % 2 ^ 32

/-- Address of a unit. -/
def State.ringAddr (s : State) (i : Nat) : Nat := s.rd F.CKP_STAGE_BASE * 4096 + i % s.ringUnits * 64

/-- Write units at PROD. -/
def State.putUnits : Nat → State → List Byte → State
  | 0, s, _ => s
  | n + 1, s, bs =>
    let p := s.rd F.CKP_STAGE_IDX_PROD
    State.putUnits n ((s.store (s.ringAddr p) (bs.take 64)).wr F.CKP_STAGE_IDX_PROD 0 0 ((p + 1) % 2 ^ 32)) (bs.drop 64)

/-- How many of some units of the ring, in order, the meters of class 60 pass, and the state with them charged (R168, R169); `copy`
units are read by the copier and charged in CKPT too. -/
def State.passUnits (copy : Bool) : State → List Nat → Nat × State
  | s, [] => (0, s)
  | s, a :: as =>
    match if copy ∧ s.tollHeld 60 5 0 then some 5 else s.heldMeter 60 27 (s.meshFlits 27 false [a]) [a] with
    | some res => (0, s.markHeld 60 res)
    | none =>
      let s1 := s.chargeSectors 60 [a]
      let r := State.passUnits copy (if copy then s1.charge 60 5 0 1 else s1) as
      (r.1 + 1, r.2)

/-- Units of the ring pass their meters, and their requests enter the mesh at the hub. -/
def State.moveUnits (s : State) (copy write : Bool) (first n : Nat) : Nat × State :=
  let addrs := (List.range n).map fun i => s.ringAddr (first + i)
  let r := State.passUnits copy s addrs
  (r.1, r.2.chargeMesh 60 27 (s.meshFlits 27 write (addrs.take r.1)))

/-- Move waiting output into the ring as far as CONS and the meters allow; a full ring holds the engine. -/
def State.pump (s : State) : State :=
  let q := s.ckpt.outq
  let room := s.ringUnits - s.ringUsed
  let p := s.moveUnits false true (s.rd F.CKP_STAGE_IDX_PROD) (min (q.length / 64) room)
  let n := p.1
  let s1 := (State.putUnits n p.2 (q.take (64 * n))).bump F.CKP_BYTES_OUT_COUNT 0 0 (64 * n)
  let s2 := s1.setCkpt { s1.ckpt with outq := q.drop (64 * n) }
  if room < q.length / 64 ∧ n = room then s2.ckpEvent 3 else s2

/-- Container bytes produced. -/
def State.emit (s : State) (bs : List Byte) : State :=
  (s.setCkpt { s.ckpt with outq := s.ckpt.outq ++ bs, written := s.ckpt.written ++ bs }).pump

/-- Output that has not gone into the ring holds the engine. -/
def State.ringHeld (s : State) : Bool := decide (64 ≤ s.ckpt.outq.length)

/-- Pad to a multiple of 64. -/
def pad64 (bs : List Byte) : List Byte := bs ++ List.replicate (roundUp bs.length 64 - bs.length) (0 : Byte)

/-! ### Ending a run -/

/-- The manifest that started the run completes. -/
def State.endStarter (s : State) (status : Nat) : State :=
  match s.ckpt.starter with
  | some d => (s.setCkpt { s.ckpt with starter := none }).finish d status
  | none => s

/-- ERROR with a REASON; held writes proceed. -/
def State.ckpError (s : State) (reason : Nat) : State :=
  let held := s.ckpt.held
  let s1 := s.setCkpt { s.ckpt with
    st := .error, reason := reason, chunks := [], ahead := [], held := [], sweeping := false, outq := [], inq := [], due := none,
    exports := [] }
  ((held.foldl (fun t h => t.doHeld h) s1).ckpEvent 2).endStarter stErr

/-- DONE. -/
def State.ckpFinish (s : State) : State := ((s.setCkpt { s.ckpt with st := .done }).ckpEvent 1).endStarter 0

/-! ### Lists (R321) -/

/-- Read a checkpoint list: header and region entries. -/
def listRegions (rd : Nat → Nat → List Byte) (a : Nat) : List Region :=
  (List.range (leNat (rd a 4))).map fun i =>
    let e := a + 0x40 + 32 * i
    ⟨leNat (rd e 8), leNat (rd (e + 8) 8), leNat (rd (e + 16) 1)⟩

/-- The entry of a region as the list holds it. -/
def Region.bytes (r : Region) : List Byte :=
  leBytes 8 r.addr ++ leBytes 8 r.len ++ leBytes 1 r.kind ++ List.replicate 15 (0 : Byte)

/-- Chunks of a region. -/
def regionChunks (log i : Nat) (r : Region) : List Chunk :=
  let c := 0x1_0000 * 2 ^ log
  (List.range (ceilDiv r.len c)).map fun j => ⟨i, j, r.addr + j * c, min c (r.len - j * c), 0⟩

def allChunks (log : Nat) (rs : List Region) : List Chunk :=
  ((List.range rs.length).zip rs).flatMap fun ir => regionChunks log ir.1 ir.2

/-! ### Unit-state records (R322, R330) -/

def inMask (mask ctx : Nat) : Bool := mask / 2 ^ ctx % 2 == 1

/-- The listed registers of a page, from its first own register on. -/
def State.pageRegs (s : State) (block inst : Nat) : List (Nat × Word) :=
  (s.regs.filter fun r => r.1 / 0x1000 == block * 0x400 + inst && decide (0x40 ≤ r.1 % 0x1000)).map fun r =>
    (r.1 % 0x1000, r.2)

/-- Pages that list a register or hold a unit's state, of a block type. -/
def State.livePages (s : State) (block : Nat) (units : List Nat) : List Nat :=
  (units ++ ((s.regs.filter fun (r : Nat × Word) => r.1 / 0x40_0000 == block).map fun (r : Nat × Word) =>
    r.1 / 0x1000 % 1024)).dedup

/-- The records of the contexts of a mask. -/
def State.unitRecords (s : State) (mask : Nat) : List UnitRec :=
  let blank : UnitRec := default
  let page := fun b i => { blank with block := b, inst := i, regs := s.pageRegs b i }
  let strs := s.streams.filter fun e => inMask mask (s.strCtx e.1)
  let strPages := (s.livePages 0x03 (s.streams.map fun e => e.1 / 16)).filter fun p =>
    (List.range 16).any fun j => inMask mask (s.strCtx (16 * p + j))
  let bols := s.bollards.filter fun e => inMask mask e.2.owner
  strPages.map (fun p => { page 0x03 p with
      regs := (s.pageRegs 0x03 p).filter fun r => decide (0x200 ≤ r.1) && inMask mask (s.strCtx (16 * p + (r.1 - 0x200) / 0x80))
      streams := strs.filter fun e => e.1 / 16 == p }) ++
    (bols.map fun e => e.1 / 256).dedup.map (fun p =>
      { blank with block := 0x04, inst := p, bollards := bols.filter fun e => e.1 / 256 == p }) ++
    ((List.range 64).filter fun l => inMask mask (s.rd F.LND_CFG_CTX l)).map (fun l => { page 0x0A l with landings := [(l, s.landing l)] }) ++
    ((List.range 16).filter fun g => inMask mask (s.stageCtx g)).flatMap (fun g =>
      [{ page 0x0B g with moorings := (List.range 8).map fun i => (8 * g + i, s.mooring (8 * g + i)) },
       { page 0x0C g with stages := [(g, s.stage g)] }]) ++
    ((List.range 1024).filter fun p => s.isPontoon p && inMask mask (s.rd F.PON_CFG_CTX p)).map (fun p =>
      { page 0x0E p with pontoons := [(p, s.pontoon p)] }) ++
    ((List.range 128).filter fun n => inMask mask (s.rd F.FRY_CFG_CTX n)).map (fun n => { page 0x09 n with ferries := [(n, s.ferry n)] }) ++
    ((List.range 4).filter fun c => inMask mask (s.vetoCtx c)).map (fun c =>
      { page 0x0E 432 with
        regs := (s.pageRegs 0x0E 432).filter fun r => (r.1 - 0x40) / 0x40 == c
        vetoes := [(c, s.veto c)] }) ++
    ((List.range 64).filter fun c => inMask mask c).flatMap (fun c =>
      [page 0x16 (s.classOf c), { blank with block := 0x17, inst := c, keys := [(c, (s.ctx c).keyLo, (s.ctx c).keyHi)] }])

/-- A record's bytes: head and opaque body. -/
def recordBytes (r : UnitRec) : List Byte :=
  let body := Config.recordBody r
  leBytes 4 r.block ++ leBytes 4 r.inst ++ leBytes 4 body.length ++ leBytes 4 (crc32c body) ++ body

/-- Reinstate a record; its streams are left STOPPED (R331). -/
def State.reinstate (s : State) (r : UnitRec) : State :=
  let s1 := r.regs.foldl (fun t x => t.setReg (regKey r.block r.inst x.1) x.2) s
  let s2 := r.streams.foldl (fun t x => t.setStream x.1 { x.2 with st := .stopped, stopping := false, cancelling := false }) s1
  let s3 := r.bollards.foldl (fun t x => t.setBollard x.1 x.2) s2
  let s4 := r.landings.foldl (fun t x => t.setLanding x.1 x.2) s3
  let s5 := r.moorings.foldl (fun t x => t.setMooring x.1 x.2) s4
  let s6 := r.stages.foldl (fun t x => t.setStage x.1 x.2) s5
  let s7 := r.pontoons.foldl (fun t x => t.setPontoon x.1 x.2) s6
  let s8 := r.ferries.foldl (fun t x => t.setFerry x.1 x.2) s7
  let s9 := r.vetoes.foldl (fun t x => t.setVeto x.1 x.2) s8
  r.keys.foldl (fun t x => t.setCtx x.1 { t.ctx x.1 with keyLo := x.2.1, keyHi := x.2.2 }) s9

/-! ### Snapshots (R322 to R327, R329, R330) -/

/-- The contexts of a mask are quiet: streams stopped, ferries idle, nothing filling. -/
def State.quiet (s : State) (mask : Nat) : Bool :=
  (s.streams.all fun e => !inMask mask (s.strCtx e.1) || e.2.st == .stopped || e.2.st == .idle || e.2.st == .done) &&
    (s.ferries.all fun e => !inMask mask (s.rd F.FRY_CFG_CTX e.1) || e.2.st == .idle || e.2.st == .disabled) &&
    (s.landings.all fun e => !inMask mask (s.rd F.LND_CFG_CTX e.1) || e.2.entries.all fun x => x.2.st != .filling)

/-- The container's 64-byte header (R329). -/
def State.containerHead (s : State) (records : Nat) : List Byte :=
  let k := s.ckpt
  let b := leBytes 4 0x504B_5A31 ++ leBytes 2 1 ++ leBytes 1 s.fuses.stepping ++ leBytes 1 k.log ++ leBytes 8 k.t0 ++
    leBytes 8 k.mask ++ leBytes 4 k.regions.length ++ leBytes 4 records ++ leBytes 8 s.tide.base ++ leBytes 2 s.tide.len ++
    List.replicate 18 (0 : Byte)
  b ++ leBytes 4 (crc32c b)

/-- T0: the run's conditions, then the head of the container. DEDUCED, log entry 89. -/
def State.atT0 (s : State) : State :=
  if !s.quiet s.ckpt.mask then s.ckpError 1
  else
    let s1 := s.setCkpt { s.ckpt with t0 := s.now, headDone := true, sweeping := false }
    let rs := s1.unitRecords s1.ckpt.mask
    s1.emit (s1.containerHead rs.length ++ s1.ckpt.regions.flatMap Region.bytes ++ rs.flatMap recordBytes)

/-- Method and payload of a chunk (R330): the shorter of the coded and the stored form. -/
def codeChunk (kind : Nat) (raw : List Byte) : Nat × List Byte :=
  let coded := Config.encodeChunk kind raw
  if coded.length < raw.length then (if 1 ≤ kind ∧ kind ≤ 4 then 1 else 2, coded) else (0, raw)

/-- The frame of a chunk. -/
def chunkFrame (c : Chunk) (kind : Nat) (raw : List Byte) : List Byte :=
  let m := codeChunk kind raw
  leBytes 4 c.region ++ leBytes 4 c.index ++ leBytes 1 m.1 ++ List.replicate 3 (0 : Byte) ++ leBytes 4 raw.length ++
    leBytes 4 m.2.length ++ leBytes 4 (crc32c raw) ++ List.replicate 8 (0 : Byte) ++ pad64 m.2

/-- Mark chunk i. -/
def Ckpt.mark (k : Ckpt) (i st : Nat) : Ckpt :=
  { k with chunks := match k.chunks[i]? with
      | some c => setNth k.chunks i { c with st := st }
      | none => k.chunks }

/-- Sectors that the copier reads are charged to class 60 in CKPT, HBM, BULK and MESH (R169, R327). -/
def State.chargeCopier (s : State) (secs : List Nat) : State :=
  ((s.charge 60 5 0 secs.length).chargeSectors 60 secs).chargeMesh 60 27 (s.meshFlits 27 false secs)

/-- The copier reads some sectors. -/
def State.copierReads (s : State) (secs : List Nat) : State := (s.chargeCopier secs).noteReads [] secs

/-- The meter that holds the copier at a sector. -/
def State.copierMeter (s : State) (a : Nat) : Option Nat :=
  if s.tollHeld 60 6 0 then some 6 else if s.tollHeld 60 5 0 then some 5 else s.heldMeter 60 27 0 [a]

/-- Move sectors that the copier reads through their meters: those still held, and the state with the others charged. -/
def State.payCopier (s : State) (secs : List Nat) : List Nat × State :=
  secs.foldl (fun (acc : List Nat × State) a => match acc.2.copierMeter a with
    | some res => (acc.1 ++ [a], acc.2.markHeld 60 res)
    | none => (acc.1, (acc.2.charge 60 5 0 1).chargeSectors 60 [a])) ([], s)

/-- Begin or go on moving what is in hand through the meters: true, and the sectors noted, once all of it has passed. -/
def State.payDue (s : State) (secs : List Nat) : Bool × State :=
  let todo := match s.ckpt.due with
    | some d => d
    | none => secs
  let flits := if s.ckpt.due = none then s.meshFlits 27 false secs else 0
  if flits ≠ 0 ∧ s.tollHeld 60 3 27 then (false, s.markHeld 60 3)
  else
    let r := (s.chargeMesh 60 27 flits).payCopier todo
    if r.1 = [] then (true, (r.2.setCkpt { r.2.ckpt with due := none }).noteReads [] secs)
    else (false, r.2.setCkpt { r.2.ckpt with due := some r.1 })

/-- The chunk to take next: a save-ahead first, then list order. -/
def Ckpt.nextChunk (k : Ckpt) : Option Nat :=
  match k.ahead with
  | i :: _ => some i
  | [] => ((List.range k.chunks.length).zip k.chunks).findSome? fun c => if c.2.st = 0 then some c.1 else none

/-- Start reading the next chunk; a save-ahead is admitted while the class is held (R327). -/
def State.takeChunk (s : State) : State :=
  let k := s.ckpt
  if k.chunks.any (fun c => c.st == 1) || s.ringHeld then s
  else match k.nextChunk with
    | none => s
    | some i => match k.chunks[i]? with
      | none => s
      | some c =>
        if k.ahead = [] then s.setCkpt (k.mark i 1)
        else (s.setCkpt { k.mark i 1 with ahead := k.ahead.filter (· != i), due := some [] }).chargeCopier (sectors c.addr c.len)

/-- Save chunk i: its bytes as they stand, one frame. -/
def State.saveChunk (s : State) (i : Nat) : State :=
  match s.ckpt.chunks[i]? with
  | none => s
  | some c =>
    let raw := (List.range c.len).map fun j => s.readByte [] (c.addr + j)
    let kind := (s.ckpt.regions.getD c.region ⟨0, 0, 0⟩).kind
    let s1 := s.setCkpt { s.ckpt.mark i 2 with frames := s.ckpt.frames + 1 }
    (s1.bump F.CKP_BYTES_IN_COUNT 0 0 c.len).emit (chunkFrame c kind raw)

/-- Move chunk i through the meters and save it once all of it has passed. -/
def State.copyChunk (s : State) (i : Nat) : Bool × State :=
  match s.ckpt.chunks[i]? with
  | none => (true, s)
  | some c =>
    let r := (s.setCkpt (s.ckpt.mark i 1)).payDue (sectors c.addr c.len)
    if r.1 then (true, r.2.saveChunk i) else r

/-- The chunk lies in SRAM. -/
def Chunk.inSram (c : Chunk) : Bool := decide (c.addr < sramEnd)

/-- Number of the chunk being read. -/
def Ckpt.reading (k : Ckpt) : Option Nat :=
  ((List.range k.chunks.length).zip k.chunks).findSome? fun c => if c.2.st = 1 then some c.1 else none

/-- CHUNK_SAVED: the chunk being read is in the compressor; the engine takes the next one. -/
def State.chunkSaved (s0 : State) : State :=
  let s := if s0.ringHeld then s0.pump else s0
  if s.ckpt.st ≠ .background ∨ s.ringHeld then s
  else
    let s1 := s.takeChunk
    match s1.ckpt.reading with
    | some i => let r := s1.copyChunk i; if r.1 then r.2.takeChunk else r.2
    | none => s1

def execChunkSaved (s : State) : Host.Outcome State Fault Refusal := s.act s.chunkSaved

/-- Save chunks in order as far as the ring and the meters allow. -/
def State.copyChunks (s : State) : List Nat → Bool × State
  | [] => (true, s)
  | i :: is =>
    if s.ringHeld then (false, s)
    else
      let r := s.copyChunk i
      if r.1 then State.copyChunks r.2 is else r

/-- The SRAM chunks that are not SAVED. -/
def Ckpt.sramLeft (k : Ckpt) : List Nat :=
  ((List.range k.chunks.length).zip k.chunks).filterMap fun c => if c.2.inSram ∧ c.2.st ≠ 2 then some c.1 else none

/-- CKP_RELEASE: the SRAM chunks are saved, and BACKGROUND begins once all of them are. -/
def State.ckpRelease (s0 : State) : State :=
  let s := if s0.ringHeld then s0.pump else s0
  let k := s.ckpt
  if k.st ≠ .quiesced ∨ !k.headDone ∨ s.ringHeld then s
  else
    let r := s.copyChunks k.sramLeft
    if r.1 then ((r.2.setCkpt { r.2.ckpt with st := .background }).ckpEvent 0).takeChunk else r.2

def execCkpRelease (s : State) : Host.Outcome State Fault Refusal := s.act s.ckpRelease

/-- HELD_WRITE_PROCEED: the oldest held write that touches no unsaved chunk. -/
def State.heldProceed (s : State) : State :=
  let n := fun (h : HeldWrite) => h.data.length - (if h.add.isSome then 1 else 0)
  let ready := fun (h : HeldWrite) => match h.add with
    | some (fmt, _, c) => (s.addHeld fmt h.addr c (n h)).isNone
    | none => (s.unsavedChunk h.addr (n h)).isNone
  match s.ckpt.held.find? fun h => ready h with
  | none => s
  | some h => (s.setCkpt { s.ckpt with held := s.ckpt.held.erase h }).doHeld h

/-! ### Exports (R332, R333) -/

/-- One shard record of a list entry. -/
def State.shardRecord (s : State) (rd : Nat → Nat → List Byte) (a : Nat) : List Byte :=
  let h := Handle.ofBytes (rd a 64)
  let f := fun o n => leNat (rd (a + 64 + o) n)
  let t := s.readTensor physXl [] h
  let poison := h.fmt != 4 && t.rows.flatten.any (·.poisoned)
  let lo := fun i => f (7 + 16 + 4 * i) 4
  let data := t.rows.flatMap fun bs => denseBytes h.fmt (denseRow (h.dim 0) h.fmt) bs
  let sc := if h.fmt = 4 then [] else t.rows.flatMap fun bs => bs.map fun b => BitVec.ofNat 8 (code 8 b.e)
  let head := leBytes 4 0x4452_4853 ++ leBytes 2 1 ++ leBytes 1 (f 0 1) ++ leBytes 1 h.fmt ++ leBytes 3 h.tid ++
    leBytes 1 h.rank ++ leBytes 2 (f 1 2) ++ leBytes 2 ((if h.fmt = 4 then 0 else 1) + 2 * poison.toNat) ++ leBytes 4 (f 3 4) ++
    leBytes 4 0 ++ ((List.range 4).flatMap fun i => leBytes 4 (f (7 + 4 * i) 4)) ++
    ((List.range 4).flatMap fun i => leBytes 4 (lo i)) ++ ((List.range 4).flatMap fun i => leBytes 4 (lo i + h.dim i)) ++
    leBytes 8 data.length ++ leBytes 8 sc.length ++ leBytes 4 0
  head ++ leBytes 4 (crc32c (head ++ data ++ sc)) ++ pad64 (data ++ sc)

/-- Write the records of an export list as far as the ring and the meters allow. -/
def State.exportMore : Nat → State → State
  | 0, s => s
  | n + 1, s =>
    match s.ckpt.exports with
    | [] => s
    | e :: rest =>
      if s.ringHeld then s
      else
        let rd := fun o k => (e.drop o).take k
        let r := s.payDue ((Handle.ofBytes (rd 0 64)).sectorList physXl false).dedup
        if r.1 then State.exportMore n ((r.2.setCkpt { r.2.ckpt with exports := rest }).emit (s.shardRecord rd 0)) else r.2

/-- The entries of an export list. -/
def exportEntries (rd : Nat → Nat → List Byte) (a : Nat) : List (List Byte) :=
  (List.range (leNat (rd a 4))).map fun i => rd (a + 0x40 + 128 * i) 128

/-! ### Restores (R331) -/

/-- Take what the ring holds, as far as the meters pass it. -/
def State.takeUnits : Nat → State → State
  | 0, s => s
  | n + 1, s =>
    let c := s.rd F.CKP_STAGE_IDX_CONS
    let bs := (List.range 64).map fun j => s.readByte [] (s.ringAddr c + j)
    let s1 := (s.noteReads [] [s.ringAddr c]).wr F.CKP_STAGE_IDX_CONS 0 0 ((c + 1) % 2 ^ 32)
    State.takeUnits n (s1.setCkpt { s1.ckpt with inq := s1.ckpt.inq ++ bs })

/-- Use n bytes of the input. -/
def Ckpt.consume (k : Ckpt) (n : Nat) : Ckpt := { k with inq := k.inq.drop n, written := k.written ++ k.inq.take n }

/-- Write a chunk of a frame to its region address, once its sectors have passed their meters. -/
def State.restoreChunk (s : State) (region chunk : Nat) (raw : List Byte) : Bool × State :=
  match s.ckpt.regions[region]? with
  | none => (true, s)
  | some r =>
    let a := r.addr + chunk * (0x1_0000 * 2 ^ s.ckpt.log)
    let secs := sectors a raw.length
    let todo := match s.ckpt.due with
      | some d => d
      | none => secs
    let flits := if s.ckpt.due = none then s.meshFlits 27 true secs else 0
    if flits ≠ 0 ∧ s.tollHeld 60 3 27 then (false, s.markHeld 60 3)
    else
      let q := (s.chargeMesh 60 27 flits).admitSectors 60 todo
      if q.1 = [] then (true, ((q.2.setCkpt { q.2.ckpt with due := none }).writeThrough id a raw).2)
      else (false, q.2.setCkpt { q.2.ckpt with due := some q.1 })

/-- Use the next part of the container, if all of it is there; false where it is not. -/
def State.restorePart (s : State) : Bool × State :=
  let k := s.ckpt
  let q := k.inq
  let f := fun o n => leNat ((q.drop o).take n)
  match k.part with
  | 0 =>
    if q.length < 64 then (false, s)
    else if crc32c (q.take 60) ≠ f 0x3C 4 then (false, s.ckpError 4)
    else if f 6 1 ≠ s.fuses.stepping then (false, s.ckpError 3)
    else
      let s1 := s.setCkpt { k.consume 64 with part := 1, todo := f 0x18 4, records := f 0x1C 4, log := f 7 1, mask := f 0x10 8 }
      let s2 := s1.xingWrite false (BitVec.ofNat 64 (f 0x28 2))
      (true, s2.xingWrite true (BitVec.ofNat 64 (f 0x20 8)))
  | 1 =>
    if k.todo = 0 then (true, s.setCkpt { k with part := 2, todo := k.records })
    else if q.length < 32 then (false, s)
    else
      let r : Region := ⟨f 0 8, f 8 8, f 16 1⟩
      (true, s.setCkpt { k.consume 32 with regions := k.regions ++ [r], todo := k.todo - 1 })
  | 2 =>
    let n := f 8 4
    if k.todo = 0 then (true, s.setCkpt { k with part := 3, todo := (allChunks k.log k.regions).length })
    else if q.length < 16 + n then (false, s)
    else
      let body := (q.drop 16).take n
      if crc32c body ≠ f 12 4 then (false, s.ckpError 4)
      else
        let s1 := s.setCkpt { k.consume (16 + n) with todo := k.todo - 1 }
        (true, match Config.recordOf body with
          | some r => s1.reinstate r
          | none => s1)
  | 3 =>
    let n := f 16 4
    let all := 32 + roundUp n 64
    if k.todo = 0 then (true, s.setCkpt { k with part := 4 })
    else if q.length < 32 ∨ q.length < all then (false, s)
    else
      let pay := (q.drop 32).take n
      let raw := if f 8 1 = 0 then pay else Config.decodeChunk (f 8 1) pay
      if crc32c raw ≠ f 20 4 ∨ raw.length ≠ f 12 4 then (false, s.ckpError 4)
      else
        let w := s.restoreChunk (f 0 4) (f 4 4) raw
        if w.1 then (true, w.2.setCkpt { w.2.ckpt.consume all with todo := k.todo - 1, frames := k.frames + 1 }) else w
  | 4 =>
    if q.length < 12 then (false, s)
    else if f 0 8 ≠ k.frames ∨ crc32c (k.written ++ q.take 8) ≠ f 8 4 then (false, s.ckpError 4)
    else (false, s.setCkpt { k.consume 12 with part := 5, inq := [] })
  | _ => (false, s)

/-- Use the container as far as it is there. DEDUCED, log entry 90. -/
def State.restoreParts : Nat → State → State
  | 0, s => s
  | n + 1, s => let r := s.restorePart; if r.1 then State.restoreParts n r.2 else r.2

/-- Take the ring's units and use them; every part takes a byte or ends a kind of part. -/
def State.restoreMore (s : State) : State :=
  if s.ckpt.st = .restoring ∧ s.ckpt.part < 5 then
    let p := s.moveUnits true false (s.rd F.CKP_STAGE_IDX_CONS) s.ringUsed
    let s1 := State.takeUnits p.1 p.2
    State.restoreParts (s1.ckpt.inq.length + 8) s1
  else s

/-! ### Starting (R321, R322) -/

/-- A run goes on: a start is ignored. -/
def Ckpt.running (k : Ckpt) : Bool := k.st == .quiesced || k.st == .background || k.st == .restoring

/-- Start a run. -/
def State.ckpBegin (s : State) (mode : Nat) (rd : Nat → Nat → List Byte) (a : Nat) (starter : Option Delivered) : State :=
  let log := s.rd F.CKP_CFG_CHUNK_LOG
  let s0 := (s.wr F.CKP_BYTES_IN_COUNT 0 0 0).wr F.CKP_BYTES_OUT_COUNT 0 0 0
  let base := { Ckpt.reset with mode := mode, log := log, starter := starter, held := s.ckpt.held, t0 := s.now,
                                mask := leNat (rd (a + 8) 8) }
  if mode = 2 then (s0.setCkpt { base with st := .restoring }).restoreMore
  else if mode = 1 then
    let es := exportEntries rd a
    State.exportMore es.length (s0.setCkpt { base with st := .background, headDone := true, exports := es })
  else
    let rs := listRegions rd a
    let sweep := rs.any fun r => s.isCoherent r.addr || s.isCoherent (r.addr + r.len - 1)
    let s1 := s0.setCkpt { base with st := .quiesced, regions := rs, chunks := allChunks log rs, sweeping := sweep }
    if sweep then s1 else s1.atT0

/-- A physical list (CKP_LIST). -/
def State.physBytes (s : State) (a n : Nat) : List Byte := (List.range n).map fun i => s.readByte [] (a + i)

/-- Bytes of a list that starts with its count. -/
def listSize (mode n : Nat) : Nat := 64 + (if mode = 1 then 128 else 32) * n

/-- A list of a context; the whole of it must pass the context's windows, and its read is the copier's (R168, R321).  A list that
cannot be read starts nothing and completes with ERR (log entry 147). -/
def State.ckptManifest (s : State) (d : Delivered) (mode : Nat) : State :=
  let a := opAddr (mOperand d.words 0)
  let rd := fun x n => (s.winBytes d.wins x n).getD (List.replicate n (0 : Byte))
  let size := listSize mode (leNat (rd a 4))
  if s.ckpt.running then s.finish d 0
  else if mode = 2 then (s.letGo d).ckpBegin mode rd a (some d)
  else match s.segIn d.wins .r a size with
    | none => s.foreign d 0x10 0 a
    | some f =>
      let secs := (sectors a size).map fun x => f (max x a)
      match s.heldMeter 60 27 (s.meshFlits 27 false secs) secs with
      | some res => s.markHeld 60 res
      | none =>
        let fails := s.structFails d a size
        let s1 := s.copierReads secs
        if fails ≠ [] then s1.finishWith d stErr (sectorRanges fails) else (s1.letGo d).ckpBegin mode rd a (some d)

def ckptSub (d : Delivered) (i : Nat) : Bool := mOpcode d.words == 0x1D && mSubop d.words == i

def execCkptSnapshot (d : Delivered) (s : State) : Host.Outcome State Fault Refusal :=
  s.act (if s.ready d ∧ ckptSub d 0 then s.ckptManifest d 0 else s)
def execCkptExport (d : Delivered) (s : State) : Host.Outcome State Fault Refusal :=
  s.act (if s.ready d ∧ ckptSub d 1 then s.ckptManifest d 1 else s)
def execCkptRestore (d : Delivered) (s : State) : Host.Outcome State Fault Refusal :=
  s.act (if s.ready d ∧ ckptSub d 2 then s.ckptManifest d 2 else s)

/-- CKP_START. -/
def State.ckpStart (s : State) : State :=
  if s.quiesced 0x10 0 || s.ckpt.running then s
  else
    let a := s.rd F.CKP_LIST_ADDR * 64
    let mode := s.rd F.CKP_CFG_MODE
    let s1 := if mode = 2 then s else s.copierReads (sectors a (listSize mode (leNat (s.physBytes a 4))))
    s1.ckpBegin mode (fun x n => s.physBytes x n) a none

def execCkpStart (s : State) : Host.Outcome State Fault Refusal := s.act s.ckpStart

/-- CKP_ABORT. -/
def State.ckpAbort (s : State) : State :=
  if s.ckpt.running then s.ckpError 5 else s

def execCkpAbort (s : State) : Host.Outcome State Fault Refusal := s.act s.ckpAbort

/-- The line lies in a coherent region of the list. -/
def State.sweeps (s : State) (a : Nat) : Bool :=
  s.isCoherent a && s.ckpt.regions.any fun r => decide (r.addr < a + 64) && decide (a < r.addr + r.len)

/-- DIRECTORY_SWEEP_DONE (R326): lines of the regions that an L2 holds Modified, Owned or Exclusive become Shared, and
their data, listed by line, goes to the system cache; this fixes T0. -/
def State.sweepDone (s : State) (dirty : List (Nat × List Byte)) : State :=
  if !s.ckpt.sweeping then s
  else
    let s1 := s.lines.foldl (fun t e =>
      let l := e.2
      if s.sweeps (64 * e.1) ∧ (l.st = .modified ∨ l.st = .owned ∨ l.st = .exclusive) then
        (t.lineData dirty e.1).setLine e.1 { l with st := .shared, sharers := (l.owner :: l.sharers).dedup, fwd := [] }
      else t) s
    s1.atT0

def execDirectorySweepDone (dirty : List (Nat × List Byte)) (s : State) : Host.Outcome State Fault Refusal := s.act (s.sweepDone dirty)

/-- CKP_DONE: a snapshot's trailer is written, an export's output is out, or a restore has used its container. -/
def State.ckpDone (s0 : State) : State :=
  let s := if s0.ckpt.st = .background then State.exportMore s0.ckpt.exports.length (if s0.ringHeld then s0.pump else s0) else s0
  let k := s.ckpt
  if k.st = .restoring then (let s1 := s.restoreMore; if s1.ckpt.st = .restoring ∧ s1.ckpt.part = 5 then s1.ckpFinish else s1)
  else if k.st ≠ .background ∨ k.chunks.any (fun c => c.st != 2) ∨ k.exports ≠ [] then s
  else
    let s1 := if k.closing then s
      else
        let t := leBytes 8 k.frames
        let tail := if k.mode = 0 then t ++ leBytes 4 (crc32c (k.written ++ t)) else []
        let fill := roundUp (k.outq.length + tail.length) 64 - (k.outq.length + tail.length)
        s.setCkpt { k with closing := true, outq := k.outq ++ tail ++ List.replicate fill (0 : Byte) }
    let s2 := s1.pump
    if s2.ckpt.outq = [] then s2.ckpFinish else s2

def execCkpDone (s : State) : Host.Outcome State Fault Refusal := s.act s.ckpDone

/-- STAGE_MOVER_COPY (R328): units copied to consecutive bus addresses; CONS advances. -/
def State.moverCopy (s : State) (units : Nat) (pcieError : Bool) : State :=
  if s.rd F.CKP_DST_EN = 0 ∨ s.ckpt.st = .restoring then s
  else if pcieError then s.ckpError 6
  else
    let c := s.rd F.CKP_STAGE_IDX_CONS
    let p := s.moveUnits false false c (min units s.ringUsed)
    let n := p.1
    let bytes := (List.range n).flatMap fun i => s.physBytes (s.ringAddr (c + i)) 64
    let bus := s.rd F.CKP_DST_ADDR * 4096 + 64 * s.ckpt.moved
    let t := p.2.noteReads [] ((List.range n).map fun i => s.ringAddr (c + i))
    let s1 := { (t.wr F.CKP_STAGE_IDX_CONS 0 0 ((c + n) % 2 ^ 32)) with
      out := t.out ++ [Out.link (48 + s.rd F.CKP_DST_PORT) "BUS_WRITE" (bus :: bytes.map BitVec.toNat)] }
    (s1.setCkpt { s1.ckpt with moved := s1.ckpt.moved + n }).pump

def execStageMoverCopy (units : Nat) (pcieError : Bool) (s : State) : Host.Outcome State Fault Refusal :=
  s.act (s.moverCopy units pcieError)

/-- CKP_STAGE_IDX_WRITE: CONS where the mover does not run, PROD in a restore (R336). -/
def State.stageIdxWrite (s : State) (v : Word) : State :=
  if s.ckpt.st = .restoring then (s.wr F.CKP_STAGE_IDX_PROD 0 0 (fld v F.CKP_STAGE_IDX_PROD)).restoreMore
  else if s.rd F.CKP_DST_EN = 1 then s
  else (s.wr F.CKP_STAGE_IDX_CONS 0 0 (fld v F.CKP_STAGE_IDX_CONS)).pump

def execCkpStageIdxWrite (v : Word) (s : State) : Host.Outcome State Fault Refusal := s.act (s.stageIdxWrite v)

end Sys2Proof.Machine
end

