-- ==== Sys2Proof/Machine/Coherence.lean ====
section
/-! DEFINITION. Commands of the directory and of the processor dies (R375, R379, R388 to R390, R394, R396). -/

namespace Sys2Proof.Machine

/-- What a core's L2 counts when it reads a line to write it back (R396, R397): `ecc` is 1 where it corrected an error, 2 where it
could not; the data go out as they are (DEDUCED, log entry 104). -/
def State.cacheRead (s : State) (core ecc : Nat) : State :=
  if 96 ≤ core then s
  else if ecc = 1 then s.bump F.CPX_L2_CE_COUNT (core / 24)
  else if ecc = 2 then (s.bump F.CPX_L2_UE_COUNT (core / 24)).event 0x1A (core / 24) 0
  else s

/-- A writeback is accepted: its data is what every later request gets. -/
def State.writeback (s : State) (core line : Nat) (data : List Byte) : State :=
  let l := s.line line
  if l.held && l.owner == core then
    ((s.chargeLine core line true).store (64 * line) (data.take 64)).setLine line (l.release core)
  else s.setLine line (l.release core)

/-- A directory eviction invalidates a line in every L2 and writes its dirty data back (R388). -/
def State.evict (s : State) (line : Nat) (data : List Byte) : State :=
  let l := s.line line
  (if l.held then (s.chargeLine l.owner line true).store (64 * line) (data.take 64) else s).setLine line Line.reset

/-- OWNERSHIP_REQUEST: `wb` is a writeback of the line that arrives in the same clock and is applied first, `evict` the
line whose entry is taken.  A line whose chunk is not SAVED holds the requests (R326); one that no core holds is read from memory.
DEDUCED, log entry 101. -/
def State.ownership (s : State) (line : Nat) (reqs : List Nat) (wb evict : Option (Nat × List Byte)) : State :=
  let s1 := match wb with
    | some (c, d) => s.writeback c line d
    | none => s
  let s2 := match evict with
    | some (e, d) => s1.evict e d
    | none => s1
  let rs := (reqs.filter (· < 97)).dedup
  let s3 := if 2 ≤ rs.length then s2.bump F.CPX_DIR_RACE_COUNT 4 else s2
  match s3.unsavedChunk (64 * line) 64 with
  | some (i, c) => if rs = [] then s3 else s3.holdWrite (64 * line) (List.replicate 64 (0 : Byte)) none i c rs
  | none =>
    let fill := match grantOrder (s3.slicePtr line) rs with
      | r :: _ => if (s3.line line).held then s3 else s3.chargeLine r line false
      | [] => s3
    fill.grantLine line rs

/-- FORWARD_RECEIVE: the holder has completed its access and passes the line on. -/
def State.forwardReceive (s : State) (core line : Nat) : State :=
  let l := s.line line
  match l.fwd with
  | (a, b) :: fs => if a = core ∧ l.owner = core then s.setLine line { l with st := .modified, owner := b, fwd := fs } else s
  | [] => s

def execForwardReceive (core line : Nat) (s : State) : Host.Outcome State Fault Refusal := s.act (s.forwardReceive core line)

/-- ACCEL_COHERENT_ACCESS: the holder's data (`snoop`) reaches memory; a write invalidates every copy first (R379,
R381), a read leaves them shared. DEDUCED, log entry 102. -/
def State.accelAccess (s : State) (a : Nat) (write : Option (List Byte)) (n : Nat) (snoop : List Byte) : State :=
  let k := a / 64
  let l := s.line k
  let s1 := if l.held && decide (l.owner < 96) then (s.chargeLine l.owner k true).store (64 * k) (snoop.take 64) else s
  match write with
  | some bs => ((s1.setLine k Line.reset).memWrite 27 false a bs MemFx.clean).2
  | none =>
    let r := (if l.held then s1.setLine k { l with st := .shared, sharers := (l.owner :: l.sharers).dedup, fwd := [] }
      else s1).memRead 27 false a n MemFx.clean
    { r.2.2 with out := r.2.2.out ++ [.ctrl 27 "DATA" (r.1.map BitVec.toNat)] }

def execAccelCoherentAccess (addr : Nat) (write : Option (List Byte)) (bytes : Nat) (snoop : List Byte) (s : State) :
    Host.Outcome State Fault Refusal :=
  s.act (if s.isCoherent addr then s.accelAccess addr write bytes snoop else s)

/-- CPX_FLUSH. -/
def execCpxFlush (die : Nat) (s : State) : Host.Outcome State Fault Refusal :=
  s.act (if die < 4 ∧ !s.flushing.contains die then { s with flushing := s.flushing ++ [die] } else s)

/-- CPX_FLUSH_DONE: the die's dirty lines are in memory and clean. -/
def State.flushDone (s : State) (d : Nat) (dirty : List (Nat × List Byte)) : State :=
  let s1 := s.lines.foldl (fun (t : State) (e : Nat × Line) =>
    let l := e.2
    if (l.st = .modified ∨ l.st = .owned) ∧ l.owner < 96 ∧ l.owner / 24 = d then
      (t.lineData dirty e.1).setLine e.1
        (if l.st = .modified then { l with st := .exclusive }
         else { l with st := .shared, sharers := (l.owner :: l.sharers).dedup })
    else t) s
  { s1 with flushing := s1.flushing.filter (· != d) }

def execCpxFlushDone (die : Nat) (dirty : List (Nat × List Byte)) (s : State) : Host.Outcome State Fault Refusal :=
  s.act (if s.flushing.contains die then s.flushDone die dirty else s)

/-- CPX_FREQ_CHANGE: the clock takes the written target. DEDUCED, log entry 104. -/
def State.freqChange (s : State) (d : Nat) (v : Word) : State :=
  let s1 := s.writeField 0x1A d 0x40 v
  s1.wr F.CPX_FREQ_CURRENT d 0 (s1.rd F.CPX_FREQ_MHZ100 d)

def execCpxFreqChange (die : Nat) (v : Word) (s : State) : Host.Outcome State Fault Refusal :=
  s.act (if die < 4 then s.freqChange die v else s)

end Sys2Proof.Machine
end

