-- ==== Sys2Proof/Machine/Contexts.lean ====
section
/-! DEFINITION. Contexts (R398 to R407): arming, keys, faults at the hub, and the five phases of a teardown. -/

namespace Sys2Proof.Machine

def State.ctxEvent (s : State) (c i : Nat) : State := s.event 0x17 c i

/-- The streams of a context: every ID whose STR_CFG names it.  Only a listed STR_CFG can name a context other than 0. -/
def State.ctxStreams (s : State) (c : Nat) : List Nat :=
  let ids := if c = 0 then List.range 16384 else
    s.regs.filterMap fun (r : Nat × Word) =>
      let off := r.1 % 0x1000
      if r.1 / 0x40_0000 = 0x03 ∧ F.STR_CFG_CTX.off ≤ off ∧ (off - F.STR_CFG_CTX.off) % 0x80 = 0 then
        some (r.1 / 0x1000 % 1024 * 16 + (off - F.STR_CFG_CTX.off) / 0x80)
      else none
  ids.filter fun id => s.strCtx id == c && !s.idHole id

/-! ### Arming (R398, R401, R406) -/

/-- Move a context's FAULTED streams to IDLE at index 0 and replay 0. -/
def State.rearmStreams (s : State) (c : Nat) : State :=
  (s.streams.filter fun (e : Nat × Stream) => e.2.st == .faulted && s.strCtx e.1 == c).foldl
    (fun (t : State) (e : Nat × Stream) => t.setStream e.1 e.2.rewound) s

/-- The re-arm guard of a TORN context has not passed. -/
def State.guarded (s : State) (c : Nat) : Bool :=
  (s.ctx c).st == .torn && decide (s.now < (s.ctx c).tornTide + s.rd F.CTX_CFG_GUARD_US c * 1000)

/-- CTX_ARM; an ARM of an ARMED or TEARING context changes nothing (DEDUCED, log entry 28). -/
def State.arm (s : State) (c : Nat) : State :=
  let x := s.ctx c
  if s.guarded c then s.ctxEvent c 3
  else if x.st = .free ∨ x.st = .torn then
    ((s.setCtx c { x with st := .armed, keyLo := x.stagedLo, keyHi := x.stagedHi, keySet := false }).wr
      F.CTX_FAULT_VALID c 0 0).rearmStreams c
  else s

def execCtxArm (ctx : Nat) (s : State) : Host.Outcome State Fault Refusal := s.act (if ctx < 64 then s.arm ctx else s)

/-- CTX_KEY_WRITE stages half of the rounding key. -/
def State.stageKey (s : State) (c : Nat) (hi : Bool) (v : Word) : State :=
  let x := s.ctx c
  s.setCtx c (if hi then { x with stagedHi := v, keySet := true } else { x with stagedLo := v, keySet := true })

def execCtxKeyWrite (ctx : Nat) (hi : Bool) (v : Word) (s : State) : Host.Outcome State Fault Refusal :=
  s.act (if ctx < 64 then s.stageKey ctx hi v else s)

/-! ### Faults at the hub (R403, R404) -/

/-- Phase 1, notify: the tag advances, the context is TEARING and TEARDOWN is broadcast.  `t0` is the time from which
the teardown's duration counts. -/
def State.notify (s : State) (c t0 : Nat) : State :=
  let x := s.ctx c
  let g := (x.gen + 1) % 4096
  { s.setCtx c { x with st := .tearing, gen := g, phase := 1, tearTide := t0 } with
    out := s.out ++ [Out.ctrl 27 "TEARDOWN" [c, g]] }

/-- The report that is latched: the lowest class, the first of equals. -/
def lowestClass : List FaultRep → Option FaultRep
  | [] => none
  | r :: rs =>
    match lowestClass rs with
    | none => some r
    | some q => if q.cls < r.cls then some q else some r

/-- Latch a fault. -/
def State.latchFault (s : State) (r : FaultRep) (multi : Bool) : State :=
  let s1 := (s.wr F.CTX_FAULT_CLASS r.ctx 0 r.cls).wr F.CTX_FAULT_MULTI r.ctx 0 multi.toNat
  let s2 := ((s1.wr F.CTX_FAULT_BLOCK r.ctx 0 r.block).wr F.CTX_FAULT_INSTANCE r.ctx 0 r.inst).wr F.CTX_FAULT_VALID r.ctx 0 1
  (((s2.wr F.CTX_FAULT_ADDR_ADDR r.ctx 0 r.addr).wr F.CTX_FAULT_MANIFEST_ADDR r.ctx 0 r.manifest).wr
    F.CTX_FAULT_TIDE_TIDE r.ctx 0 r.tide).ctxEvent r.ctx 0

/-- The reports of one context that reach the hub in one clock. DEDUCED, log entry 105. -/
def State.hubReports (s : State) (c : Nat) (rs : List FaultRep) : State :=
  let s1 := rs.foldl (fun t r =>
    t.traceRec 27 3 c (r.block * 1024 + r.inst) r.cls r.addr r.manifest) s
  match lowestClass rs with
  | some r => if (s.ctx c).st = .armed then (s1.latchFault r (decide (1 < rs.length))).notify c r.tide else s1
  | none => s1

/-- FAULT_REPORT: the reports that reach the hub in one clock, context by context. -/
def State.faultReports (s : State) (reps : List FaultRep) : State :=
  let s1 := { s with reports := reps.foldl List.erase s.reports }
  (List.range 64).foldl (fun t c =>
    let rs := reps.filter fun r => r.ctx == c
    if rs = [] then t else t.hubReports c rs) s1

def execFaultReport (reps : List FaultRep) (s : State) : Host.Outcome State Fault Refusal := s.act (s.faultReports reps)

/-- CTX_TEARDOWN: a DRIVER fault, detected at the hub. -/
def execCtxTeardown (ctx : Nat) (s : State) : Host.Outcome State Fault Refusal :=
  s.act (if ctx < 64 then s.hubReports ctx [⟨ctx, 5, 0x17, ctx, 0, 0, s.now⟩] else s)

/-! ### Phase 2, stop (R405) -/

/-- The cores on which a manifest is in flight. -/
def State.coresRunning (s : State) (d : Delivered) : List Nat :=
  (s.cores.filter fun (e : Nat × Core) => e.2.inflight.any fun f => f.d == d).map Prod.fst

/-- A stream of the context: FAULTED, its store discarded; of its issued manifests only those on the cores remain.  Readiness of its
head, or of an engine-queue entry of it, in the clock of the purge is discarded and counted (R147). -/
def State.faultStream (readySame : List Nat) (s : State) (id : Nat) : State :=
  let s0 := if readySame.contains id then s.bump F.STR_RACE_COUNT (id / 16) (id % 16) else s
  let s1 := s0.discard id
  let st := s1.stream id
  let live := st.issued.filterMap fun i =>
    let cs := s.coresRunning i.d
    if cs = [] then none else some { i with cores := cs }
  (s1.setStream id { st with st := .faulted, stopping := false, cancelling := false, issued := live }).event 0x03 (id / 16) 4

/-- An engine drops a context's entries and the operation in hand. -/
def EngineQ.purge (q : EngineQ) (c : Nat) : EngineQ :=
  { q with entries := q.entries.filter (fun d => d.ctx != c),
           cur := match q.cur with | some d => if d.ctx = c then none else some d | none => none }

/-- A ferry of the context stops and sends ABORT. -/
def State.stopFerry (s : State) (n : Nat) : State :=
  let f := s.ferry n
  ((s.dropFlits n).sendAbort n).setFerry n { f with queue := [], st := if f.st = .disabled ∨ f.st = .routeDown then f.st else .idle }

/-- Queues of the module purged of a context's entries. -/
def State.purge (s : State) (c : Nat) : State :=
  let mine := fun (d : Delivered) => d.ctx == c
  let keepLine := fun (l : SLine) => s.strCtx l.stream != c
  let s1 := s.engines.foldl (fun (t : State) (e : Nat × EngineQ) => t.setEngineQ e.1 (e.2.purge c)) s
  let s2 := s.pilots.foldl (fun (t : State) (e : Nat × Pilot) =>
    t.setPilot e.1 { e.2 with group := e.2.group.filter (fun d => !mine d), seq := e.2.seq.filter (fun d => !mine d) }) s1
  let s3 := s.cores.foldl (fun (t : State) (e : Nat × Core) => t.setCore e.1 { e.2 with toStage := e.2.toStage.filter keepLine }) s2
  let s4 := s.pontoons.foldl (fun (t : State) (e : Nat × Pontoon) =>
    t.setPontoon e.1 { e.2 with
      waiting := e.2.waiting.filter fun w => !mine w.1, granted := e.2.granted.filter fun w => !mine w.1 }) s3
  let s5 := (s.ferries.filter fun (e : Nat × Ferry) => s.rd F.FRY_CFG_CTX e.1 == c).foldl
    (fun (t : State) (e : Nat × Ferry) => t.stopFerry e.1) s4
  let s6 := { s5 with
    optHeld := s.optHeld.filter fun (e : Nat × Delivered) => !mine e.2
    owed := s.owed.filter fun (e : Delivered × List Nat) => !mine e.1
    queued := s5.queued.filter fun (e : Nat × Nat × Nat × List Byte) => e.1 != c }
  match s.ckpt.starter with
  | some d => if mine d then { s6 with ckpt := { s6.ckpt with starter := none } }.ckpAbort else s6
  | none => s6

/-- TEARDOWN_STOP; `readySame` names streams of which something becomes ready in its clock. -/
def State.tearStop (s : State) (c : Nat) (readySame : List Nat) : State :=
  if (s.ctx c).st = .tearing ∧ (s.ctx c).phase = 1 then
    let s1 := ((s.ctxStreams c).foldl (State.faultStream readySame) s).purge c
    s1.setCtx c { s1.ctx c with phase := 2 }
  else s

def execTeardownStop (ctx : Nat) (s : State) (readySame : List Nat := []) : Host.Outcome State Fault Refusal :=
  s.act (s.tearStop ctx readySame)

/-! ### Phase 3, drain -/

/-- The context's manifests in flight on a core retire, their readers are dropped. -/
def Core.drain (k : Core) (c : Nat) : Core :=
  (k.inflight.filter fun f => f.d.ctx == c).foldl (fun x f => f.reads.foldl Core.unread x)
    { k with inflight := k.inflight.filter fun f => f.d.ctx != c }

/-- Retire what a stream has issued, in order. -/
def State.drainStream : List Issued → Nat → State → State
  | [], _, s => s
  | i :: is, id, s => State.drainStream is id (s.retireOne id i)

/-- TEARDOWN_DRAIN: what is still on the cores runs to retirement (log entry 29). -/
def State.tearDrain (s : State) (c : Nat) : State :=
  if (s.ctx c).st = .tearing ∧ (s.ctx c).phase = 2 then
    let s1 := s.cores.foldl (fun (t : State) (e : Nat × Core) => t.setCore e.1 (e.2.drain c)) s
    let s2 := (s1.streams.filter fun (e : Nat × Stream) => e.2.st == .faulted && s1.strCtx e.1 == c).foldl
      (fun (t : State) (e : Nat × Stream) => State.drainStream e.2.issued e.1 t) s1
    s2.setCtx c { s2.ctx c with phase := 3 }
  else s

def execTeardownDrain (ctx : Nat) (s : State) : Host.Outcome State Fault Refusal := s.act (s.tearDrain ctx)

/-! ### Phase 4, clear -/

/-- The stages whose objects belong to a context (R185). -/
def State.ctxStages (s : State) (c : Nat) : List Nat := (List.range 16).filter fun g => s.stageCtx g == c

/-- A stage's landings, moorings, queue and phase timer at the reset values of their state fields, ENABLE cleared. -/
def State.clearStage (s : State) (g : Nat) : State :=
  let s1 := (List.range 4).foldl (fun t i => (t.setLanding (4 * g + i) Landing.reset).wr F.LND_CTRL_ENABLE (4 * g + i) 0 0) s
  let s2 := (List.range 8).foldl (fun t i => t.setMooring (8 * g + i) Mooring.reset) s1
  (s2.setStage g Stage.reset).wr F.DEF_CFG_ENABLE g 0 0

def State.clearFerry (s : State) (n : Nat) : State := (s.setFerry n Ferry.reset).wr F.FRY_CTRL_ENABLE n 0 0

def State.clearPontoon (s : State) (p : Nat) : State := (s.setPontoon p Pontoon.reset).wr F.PON_CTRL_ENABLE p 0 0

/-- TEARDOWN_CLEAR. -/
def State.tearClear (s : State) (c : Nat) : State :=
  if (s.ctx c).st = .tearing ∧ (s.ctx c).phase = 3 then
    let s1 := { s with waiters := s.waiters.filter fun w => s.strCtx w.stream != c }
    let s2 := ((List.range 128).filter fun n => s.rd F.FRY_CFG_CTX n == c).foldl State.clearFerry s1
    let s3 := (s.ctxStages c).foldl State.clearStage s2
    let s4 := ((List.range 1024).filter fun p => !isHub (p / 16) && s.rd F.PON_CFG_CTX p == c).foldl State.clearPontoon s3
    let s5 := ((List.range 4).filter fun ch => s.vetoCtx ch == c).foldl (fun t ch => t.wr F.PON_JOB_ENABLE 432 ch 0) s4
    s5.setCtx c { s5.ctx c with phase := 4 }
  else s

def execTeardownClear (ctx : Nat) (s : State) : Host.Outcome State Fault Refusal := s.act (s.tearClear ctx)

/-! ### Phase 5, report -/

/-- TEARDOWN_REPORT. -/
def State.tearReport (s : State) (c : Nat) : State :=
  let x := s.ctx c
  if x.st = .tearing ∧ x.phase = 4 then
    let ns := min (s.now - x.tearTide) (2 ^ 32 - 1)
    let s1 := s.setCtx c { x with st := .torn, phase := 0, tornTide := s.now }
    (((s1.bump F.CTX_TEARDOWNS_COUNT c).wr F.CTX_TEARDOWN_NS_NS c 0 ns).ctxEvent c 1).traceRec 27 4 c (0x17 * 1024 + c) x.gen ns 0
  else s

def execTeardownReport (ctx : Nat) (s : State) : Host.Outcome State Fault Refusal := s.act (s.tearReport ctx)

/-- A whole teardown, as a reset runs it (R410): one that runs already is finished. DEDUCED, log entry 106. -/
def State.teardown (s : State) (c : Nat) : State :=
  let s1 := if (s.ctx c).st = .armed then s.notify c s.now else s
  (((s1.tearStop c []).tearDrain c).tearClear c).tearReport c

end Sys2Proof.Machine
end

