-- ==== Sys2Proof/Machine/Crypto.lean ====
section
/-! DEFINITION. The two algorithms that R471, R472, R475 and R478 name: SHA-384 and ECDSA P-384 verification.  The
spec names the standards and states neither: what stands here is FIPS 180-4 and FIPS 186-5 (PRESUMED, log entry 10), with
the message hashed by SHA-384; the coordinates of a key and the numbers of a signature are little-endian fields (R6). -/

namespace Sys2Proof.Machine

/-- Go on with a number that has been computed. -/
def forced {α : Sort _} (n : Nat) (k : Nat → α) : α :=
  match n with
  | 0 => k 0
  | m + 1 => k (m + 1)

/-- The number of a big-endian byte string. -/
def beNat (bs : List Byte) : Nat := bs.foldl (fun n b => n * 256 + b.toNat) 0

/-- The `n` bytes of a number, most significant first. -/
def beBytes (n v : Nat) : List Byte := (leBytes n v).reverse

/-! ### SHA-384 -/

/-- The round constants. -/
def shaK : List Nat :=
  [0x428A2F98D728AE22, 0x7137449123EF65CD, 0xB5C0FBCFEC4D3B2F, 0xE9B5DBA58189DBBC,
   0x3956C25BF348B538, 0x59F111F1B605D019, 0x923F82A4AF194F9B, 0xAB1C5ED5DA6D8118,
   0xD807AA98A3030242, 0x12835B0145706FBE, 0x243185BE4EE4B28C, 0x550C7DC3D5FFB4E2,
   0x72BE5D74F27B896F, 0x80DEB1FE3B1696B1, 0x9BDC06A725C71235, 0xC19BF174CF692694,
   0xE49B69C19EF14AD2, 0xEFBE4786384F25E3, 0x0FC19DC68B8CD5B5, 0x240CA1CC77AC9C65] ++
  [0x2DE92C6F592B0275, 0x4A7484AA6EA6E483, 0x5CB0A9DCBD41FBD4, 0x76F988DA831153B5,
   0x983E5152EE66DFAB, 0xA831C66D2DB43210, 0xB00327C898FB213F, 0xBF597FC7BEEF0EE4,
   0xC6E00BF33DA88FC2, 0xD5A79147930AA725, 0x06CA6351E003826F, 0x142929670A0E6E70,
   0x27B70A8546D22FFC, 0x2E1B21385C26C926, 0x4D2C6DFC5AC42AED, 0x53380D139D95B3DF,
   0x650A73548BAF63DE, 0x766A0ABB3C77B2A8, 0x81C2C92E47EDAEE6, 0x92722C851482353B] ++
  [0xA2BFE8A14CF10364, 0xA81A664BBC423001, 0xC24B8B70D0F89791, 0xC76C51A30654BE30,
   0xD192E819D6EF5218, 0xD69906245565A910, 0xF40E35855771202A, 0x106AA07032BBD1B8,
   0x19A4C116B8D2D0C8, 0x1E376C085141AB53, 0x2748774CDF8EEB99, 0x34B0BCB5E19B48A8,
   0x391C0CB3C5C95A63, 0x4ED8AA4AE3418ACB, 0x5B9CCA4F7763E373, 0x682E6FF3D6B2B8A3,
   0x748F82EE5DEFB2FC, 0x78A5636F43172F60, 0x84C87814A1F0AB72, 0x8CC702081A6439EC] ++
  [0x90BEFFFA23631E28, 0xA4506CEBDE82BDE9, 0xBEF9A3F7B2C67915, 0xC67178F2E372532B,
   0xCA273ECEEA26619C, 0xD186B8C721C0C207, 0xEADA7DD6CDE0EB1E, 0xF57D4F7FEE6ED178,
   0x06F067AA72176FBA, 0x0A637DC5A2C898A6, 0x113F9804BEF90DAE, 0x1B710B35131C471B,
   0x28DB77F523047D84, 0x32CAAB7B40C72493, 0x3C9EBE0A15C9BEBC, 0x431D67C49C100D4C,
   0x4CC5D4BECB3E42B6, 0x597F299CFC657E2A, 0x5FCB6FAB3AD6FAEC, 0x6C44198C4A475817]

/-- The initial hash value. -/
def shaInit : List Nat :=
  [0xCBBB9D5DC1059ED8, 0x629A292A367CD507, 0x9159015A3070DD17, 0x152FECD8F70E5939,
   0x67332667FFC00B31, 0x8EB44A8768581511, 0xDB0C2E0D64F98FA7, 0x47B5481DBEFA4FA4]

/-- Rotation of a 64-bit word to the right. -/
def rotr (n x : Nat) : Nat := (x >>> n) ||| ((x <<< (64 - n)) % 2 ^ 64)

def shaS0 (x : Nat) : Nat := rotr 28 x ^^^ rotr 34 x ^^^ rotr 39 x
def shaS1 (x : Nat) : Nat := rotr 14 x ^^^ rotr 18 x ^^^ rotr 41 x
def shaR0 (x : Nat) : Nat := rotr 1 x ^^^ rotr 8 x ^^^ (x >>> 7)
def shaR1 (x : Nat) : Nat := rotr 19 x ^^^ rotr 61 x ^^^ (x >>> 6)

/-- The message schedule from its last 16 words, for `fuel` further words. -/
def shaWords : Nat → List Nat → List Nat
  | 0, w => w
  | fuel + 1, w =>
    match w with
    | [] => []
    | x :: xs =>
      forced ((shaR1 (xs.getD 13 0) + xs.getD 8 0 + shaR0 (xs.getD 0 0) + x) % 2 ^ 64) fun y =>
        x :: shaWords fuel (xs ++ [y])

/-- The 80 rounds over pairs of constant and word. -/
def shaRounds : List (Nat × Nat) → List Nat → List Nat
  | [], st => st
  | (k, w) :: ks, st =>
    match st with
    | [a, b, c, d, e, f, g, h] =>
      forced ((h + shaS1 e + ((e &&& f) ^^^ ((2 ^ 64 - 1 - e) &&& g)) + k + w) % 2 ^ 64) fun t1 =>
        forced ((d + t1) % 2 ^ 64) fun e1 =>
          forced ((t1 + shaS0 a + ((a &&& b) ^^^ (a &&& c) ^^^ (b &&& c))) % 2 ^ 64) fun a1 =>
            shaRounds ks [a1, a, b, c, e1, e, f, g]
    | _ => st

/-- Eight words, each forced. -/
def forcedList : List Nat → (List Nat → List Nat) → List Nat
  | [], k => k []
  | x :: xs, k => forced x fun y => forcedList xs fun ys => k (y :: ys)

/-- The bytes in words of eight. -/
def shaSplit : Nat → List Byte → List Nat
  | 0, _ => []
  | n + 1, bs => beNat (bs.take 8) :: shaSplit n (bs.drop 8)

/-- The hash over `n` blocks of 128 bytes. -/
def shaBlocks : Nat → List Byte → List Nat → List Nat
  | 0, _, st => st
  | n + 1, bs, st =>
    forcedList (((shaRounds (shaK.zip (shaWords 64 (shaSplit 16 (bs.take 128)))) st).zip st).map fun x => (x.1 + x.2) % 2 ^ 64)
      fun s1 => shaBlocks n (bs.drop 128) s1

/-- SHA-384 of a byte string (R471). -/
@[irreducible] def sha384 (bs : List Byte) : List Byte :=
  let zeros := (239 - bs.length % 128) % 128
  let padded := bs ++ [0x80] ++ List.replicate zeros 0 ++ beBytes 16 (8 * bs.length)
  (shaBlocks (padded.length / 128) padded shaInit).take 6 |>.flatMap fun w => beBytes 8 w

/-! ### ECDSA P-384 -/

/-- The field, the curve's b, the base point and its order. -/
def ecP : Nat := 2 ^ 384 - 2 ^ 128 - 2 ^ 96 + 2 ^ 32 - 1
def ecB : Nat := 0xB3312FA7E23EE7E4988E056BE3F82D19181D9C6EFE8141120314088F5013875AC656398D8A2ED19D2A85C8EDD3EC2AEF
def ecGx : Nat := 0xAA87CA22BE8B05378EB1C71EF320AD746E1D3B628BA79B9859F741E082542A385502F25DBF55296C3A545E3872760AB7
def ecGy : Nat := 0x3617DE4A96262C6F5D9E98BF9292DC29F8F41DBD289A147CE9DA3113B5F0B8C00A60B1CE1D7E819D7A431D7C90EA0E5F
def ecN : Nat := 0xFFFFFFFFFFFFFFFFFFFFFFFFFFFFFFFFFFFFFFFFFFFFFFFFC7634D81F4372DDF581A0DB248B0A77AECEC196ACCC52973

/-- A point (X, Y, Z) for (X ÷ Z², Y ÷ Z³); Z = 0 is the point at infinity. -/
structure EcPoint where
  x : Nat
  y : Nat
  z : Nat
  deriving DecidableEq, Repr

/-- A point of computed coordinates. -/
def ecMk (x y z : Nat) : EcPoint := forced (x % ecP) fun x => forced (y % ecP) fun y => forced (z % ecP) fun z => ⟨x, y, z⟩

/-- a - b in the field. -/
def ecSub (a b : Nat) : Nat := (a + (ecP - b % ecP)) % ecP

/-- Twice a point, on a curve with a = -3. -/
def ecDouble (p : EcPoint) : EcPoint :=
  forced (p.z * p.z % ecP) fun d => forced (p.y * p.y % ecP) fun g => forced (p.x * g % ecP) fun b =>
    forced (3 * ecSub p.x d * (p.x + d) % ecP) fun a => forced (ecSub (a * a) (8 * b)) fun x =>
      ecMk x (ecSub (a * ecSub (4 * b) x) (8 * g * g)) (2 * p.y * p.z)

/-- The sum of two points. -/
def ecAdd (p q : EcPoint) : EcPoint :=
  if p.z = 0 then q
  else if q.z = 0 then p
  else
    forced (p.z * p.z % ecP) fun z1 => forced (q.z * q.z % ecP) fun z2 =>
      forced (p.x * z2 % ecP) fun u1 => forced (q.x * z1 % ecP) fun u2 =>
        forced (p.y * z2 * q.z % ecP) fun s1 => forced (q.y * z1 * p.z % ecP) fun s2 =>
          if u1 = u2 then (if s1 = s2 then ecDouble p else ⟨1, 1, 0⟩)
          else
            forced (ecSub u2 u1) fun h => forced (ecSub s2 s1) fun r => forced (h * h % ecP) fun h2 =>
              forced (h * h2 % ecP) fun h3 => forced (u1 * h2 % ecP) fun v =>
                forced (ecSub (r * r) (h3 + 2 * v)) fun x => ecMk x (ecSub (r * ecSub v x) (s1 * h3)) (h * p.z * q.z)

/-- Go on with a computed point. -/
def ecForced {α : Sort _} (p : EcPoint) (k : EcPoint → α) : α :=
  match p with
  | ⟨x, y, z⟩ => k ⟨x, y, z⟩

/-- u·p + v·q from bit `n` - 1 down, added to 2^n·acc; `pq` is p + q. -/
def ecMul2 (p q pq : EcPoint) (u v : Nat) : Nat → EcPoint → EcPoint
  | 0, acc => acc
  | n + 1, acc =>
    ecForced (ecDouble acc) fun d =>
      ecForced (match u / 2 ^ n % 2, v / 2 ^ n % 2 with
        | 0, 0 => d
        | 0, _ => ecAdd d q
        | _, 0 => ecAdd d p
        | _, _ => ecAdd d pq) fun a => ecMul2 p q pq u v n a

/-- b^e mod m over the lowest `n` bits of e. -/
def powMod (m : Nat) : Nat → Nat → Nat → Nat → Nat
  | 0, _, _, acc => acc
  | n + 1, b, e, acc =>
    forced (if e % 2 = 1 then acc * b % m else acc) fun a => forced (b * b % m) fun b2 => forced (e / 2) fun e2 => powMod m n b2 e2 a

/-- The signature's x coordinate is that of a point, modulo the order. -/
def ecMatches (r : Nat) (p : EcPoint) : Bool :=
  p.z != 0 && (r * p.z * p.z % ecP == p.x || (decide (r + ecN < ecP) && (r + ecN) * p.z * p.z % ecP == p.x))

/-- Verification with the numbers of key, hash and signature. -/
def ecdsaCheck (x y e r s : Nat) : Bool :=
  if x < ecP ∧ y < ecP ∧ y * y % ecP = (x * x * x + ecB + (ecP - 3) * x) % ecP ∧ 0 < r ∧ r < ecN ∧ 0 < s ∧ s < ecN then
    forced (powMod ecN 384 s (ecN - 2) 1) fun w => forced (e * w % ecN) fun u => forced (r * w % ecN) fun v =>
      ecForced (ecAdd ⟨ecGx, ecGy, 1⟩ ⟨x, y, 1⟩) fun pq =>
        ecMatches r (ecMul2 ⟨ecGx, ecGy, 1⟩ ⟨x, y, 1⟩ pq u v 384 ⟨1, 1, 0⟩)
  else false

/-- ECDSA P-384 verification: uncompressed public key, message, signature (r, s) (R6, R471). -/
@[irreducible] def ecdsaVerify (pub msg sig : List Byte) : Bool :=
  pub.length == 97 && pub.headD 0 == 4 && sig.length == 96 &&
    ecdsaCheck (leNat ((pub.drop 1).take 48)) (leNat (pub.drop 49)) (beNat (sha384 msg)) (leNat (sig.take 48)) (leNat (sig.drop 48))

end Sys2Proof.Machine
end

