-- ==== Sys2Proof/Machine/Resets.lean ====
section
/-! DEFINITION. Resets (R410 to R417, R426, R469 to R474, R483, R485, R493, R494): the boot sequence with its image
check, module resets, compute resets with the scratchpad dump, and escalation. -/

namespace Sys2Proof.Machine

/-! ### Holding the module in reset (R431, R469, R493) -/

/-- The hold is a failure, which MOD_FAULT_N shows. -/
def Hold.failure : Hold → Bool
  | .bootFailed _ | .protective _ | .outOfService => true
  | _ => false

/-- Set the hold and the pins that follow it. -/
def State.setHold (s : State) (h : Option Hold) : State :=
  { s with hold := h, pins := { s.pins with
      modReady := h.isNone && s.boot.step == 15
      modFaultN := !(h.any Hold.failure)
      thermtripN := h != some (.protective 0x40) } }

/-- Set RST_CAUSE. -/
def State.setCause (s : State) (domain code : Nat) : State :=
  (((s.wr F.RST_CAUSE_DOMAIN 0 0 domain).wr F.RST_CAUSE_CODE 0 0 code).wr F.RST_CAUSE_DUMP_OK 0 0 0).wr
    F.RST_CAUSE_TIDE_TIDE 0 0 s.now

/-- A boot step fails. -/
def State.bootFail (s : State) (step code : Nat) : State :=
  { s.wr F.RST_CAUSE_CODE 0 0 code with boot := { s.boot with step := step } }.setHold (some (.bootFailed code))

/-! ### Images (R471, R472, R474) -/

/-- The life-cycle state: the highest bit with at least two of its three rows blown (R473). -/
def Fuses.lifecycle (f : Fuses) : Nat :=
  (List.range 6).foldl (fun m b =>
    if 2 ≤ ((List.range 3).filter fun r => f.rows.contains (b, r)).length then b else m) 0

/-- Keys whose images and tokens a life-cycle state accepts. -/
def acceptedKeys : Nat → List Nat
  | 0 | 1 => [0]
  | 2 => [1, 2]
  | 3 => [2]
  | 4 => [3]
  | _ => []

/-- Bit of the STEPPINGS field for a stepping code (R3). -/
def steppingBit (code : Nat) : Nat := if code = 0x00 then 0 else if code = 0x01 then 1 else 2

/-- The public key's hash is the fused one, or the ROM's own for the manufacturing key. -/
def Fuses.keyMatches (f : Fuses) (key : Nat) (pub : List Byte) : Bool :=
  if key = 0 then sha384 pub == Config.romHash
  else match f.hashes.find? fun (e : Nat × List Byte) => e.1 == key with
    | some e => sha384 pub == e.2
    | none => false

def hdrField (h : List Byte) (o n : Nat) : Nat := leNat ((h.drop o).take n)

def hdrPart (h : List Byte) (o n : Nat) : List Byte := (h.drop o).take n

/-- Check an image by R471: 0 for a candidate, else the reason of SEC_FWUP_STATUS. DEDUCED, log entry 119. -/
def imageReason (f : Fuses) (limit : Nat) (h : List Byte) (body : Nat → List Byte) : Nat :=
  let key := hdrField h 0x0E 1
  let len := hdrField h 0x10 4
  if hdrField h 0 4 ≠ 0x50575A46 ∨ hdrField h 4 2 ≠ 1 ∨ 64 < hdrField h 0x0C 2 ∨ 3 < key ∨ limit < 0x1000 + len then 1
  else if hdrField h 6 2 / 2 ^ steppingBit f.stepping % 2 = 0 then 2
  else if !(acceptedKeys f.lifecycle).contains key || !f.keyMatches key (hdrPart h 0x28 97) then 3
  else if !ecdsaVerify (hdrPart h 0x28 97) (hdrPart h 0 0xD0) (hdrPart h 0xD0 96) then 4
  else if sha384 (body len) ≠ hdrPart h 0xA0 48 then 5
  else if hdrField h 0x0C 2 < f.rollback then 6
  else 0

def imageBase (i : Nat) : Nat := i * 0x400_0000

/-- Bytes of the flash; what is erased reads 0xFF. -/
def State.flashBytes (s : State) (a n : Nat) : List Byte :=
  (List.range n).map fun i => Sparse.get (fun _ => (0xFF : Byte)) s.flash (a + i)

def State.imageHeader (s : State) (i : Nat) : List Byte := s.flashBytes (imageBase i) 0x130

def State.imageBody (s : State) (i len : Nat) : List Byte := s.flashBytes (imageBase i + 0x1000) len

/-- An image's region is not erased. -/
def State.imagePresent (s : State) (i : Nat) : Bool := s.flash.any fun (e : Nat × Byte) => e.1 / 0x400_0000 == i

def State.imageGood (s : State) (i : Nat) : Bool :=
  s.imagePresent i && imageReason s.fuses 0x400_0000 (s.imageHeader i) (s.imageBody i) == 0

/-- The image that boots: the candidate with the higher VERSION, A where they are equal. -/
def State.bootImage (s : State) : Option Nat :=
  match s.imageGood 0, s.imageGood 1 with
  | false, false => none
  | true, false => some 0
  | false, true => some 1
  | true, true => some (if hdrField (s.imageHeader 0) 8 4 < hdrField (s.imageHeader 1) 8 4 then 1 else 0)

/-- Load the selected image: its body goes to LOAD_ADDR (DESIGN CHOICE, log entry 31) and the harts start at P_ENTRY. -/
def State.loadImage (s : State) (i : Nat) : State :=
  let h := s.imageHeader i
  let fb := s.imagePresent (1 - i) && !s.imageGood (1 - i)
  let s1 := { s with boot := { s.boot with
    image := i, fallback := fb, version := hdrField h 8 4, rollback := hdrField h 0x0C 2 } }
  let s2 := if fb then s1.event 0x1C 0 3 else s1
  let s3 := s2.store (hdrField h 0x18 8) (s.imageBody i (hdrField h 0x10 4))
  { s3 with out := s3.out ++ [Out.ctrl 27 "HART_START" [hdrField h 0x20 8]] }

/-! ### What boot loads from the log (R282, R286, R415 to R417, R469, R485) -/

/-- The committed records of a type in SEQ order. -/
def Log.ofType (l : Log) (type : Nat) : List LogRec := (l.unique.filter fun r => r.type == type).foldr insertBySeq []

/-- Site states, escalation history and age, as a power cycle finds them. -/
def State.resetsFromLog (s : State) : Resets :=
  let oos := (s.log.ofType 6).getLast?
  let since := match oos with | some r => if r.word 0 = 0 then r.seq else 0 | none => 0
  let rs := s.log.ofType 3
  { siteHist := (rs.filter fun r => r.word 1 == 1).flatMap fun r => (setBitsOf (r.word 3) 64).map fun x => (r.word 0, x)
    modHist := (rs.filter fun r => r.word 1 == 2 && decide (since < r.seq)).map fun r => r.word 0
    unmap := []
    mapped := (s.log.ofType 5).foldl (fun m r => Sparse.put (fun _ => 0) m r.key (r.word 0)) []
    oos := oos.any fun r => r.word 0 == 1
    age := ((s.log.ofType 4).getLast?.map fun r => r.word 0).getD 0
    current := none, powerCycled := true }

/-- The retirement table of a stack from the page-retirement list. -/
def State.retireTable (s : State) (k : Nat) : Sparse Word :=
  let pages := (s.log.ofType 2).foldl (fun (m : List (Nat × Word)) r =>
    if r.key = k then (m.filter fun e => e.1 != r.word 0) ++
      (if r.word 2 = 1 then [(r.word 0, setBits (setBits (BitVec.ofNat 64 (r.word 0)) 24 24 (r.word 1)) 63 1 1)] else [])
    else m) []
  ((List.range pages.length).zip pages).map fun e => (e.1, e.2.2)

/-- The lanes of a stack that its LANE_REPAIR record lists (R282). -/
def State.repaired (s : State) (k : Nat) : List Nat :=
  match ((s.log.ofType 1).filter fun r => r.key == 0x100 + k).getLast? with
  | some r => (List.range (r.word 0)).map fun i => r.word (1 + i)
  | none => []

/-- Lanes of a stack that training finds failing or that service has marked, and the repair map does not list yet. -/
def State.toRepair (s : State) (f : BootFacts) (k : Nat) : List Nat :=
  (((f.badLanes.filter fun b => b.1 == k).map Prod.snd ++ (s.stack k).marked).dedup).filter fun l => !(s.repaired k).contains l

/-- No redundant lane is left for a failing one: the training fails (DEDUCED, log entry 156). -/
def State.lanesShort (s : State) (f : BootFacts) : Bool :=
  (List.range 24).any fun k => s.toRepair f k != [] &&
    decide (Config.redundantLanes < (s.repaired k).length + (s.toRepair f k).length)

/-- Step 5: the tables are loaded, and each failing lane is steered onto a redundant lane and recorded (R282). -/
def State.trainStack (s : State) (f : BootFacts) (k : Nat) : State :=
  let new := s.toRepair f k
  let all := s.repaired k ++ new
  let s1 := (s.setStack k { Stack.reset with table := s.retireTable k }).wr F.HBM_LANES_USED k 0 all.length
  if new = [] then s1 else s1.logWords 1 (0x100 + k) (all.length :: all)

/-- Field of a node's edge register. -/
def edgeFld (f : FieldRef) (dir : Nat) : FieldRef := { f with off := f.off + 8 * dir }

def State.edgeState (s : State) (node dir : Nat) : Nat := s.rd (edgeFld F.MSH_EDGE_STATE dir) node

/-- The body of an edge's LANE_REPAIR record: its register, steered groups and failed wires. -/
def edgeBody (w : Word) (e : EdgeDir) : List Nat :=
  [w.toNat, e.steered.length] ++ e.steered ++ [e.failed.length] ++ e.failed

/-- The edge that a LANE_REPAIR record describes. -/
def LogRec.edge (r : LogRec) : EdgeDir :=
  { EdgeDir.reset with
    steered := (List.range (r.word 1)).map fun i => r.word (2 + i)
    failed := (List.range (r.word (2 + r.word 1))).map fun i => r.word (3 + r.word 1 + i) }

/-- Step 6: an edge takes its repair-map state. -/
def State.loadEdge (s : State) (r : LogRec) : State :=
  (s.setEdge r.key r.edge).setReg (regKey 0x05 (r.key / 4) (0x40 + 8 * (r.key % 4))) (BitVec.ofNat 64 (r.word 0))

def State.loadEdges (s : State) : State := ((s.log.ofType 1).filter fun r => decide (r.key < 0x100)).foldl State.loadEdge s

/-- FAILED edges, each counted at its lower end: directions 1 E to x + 1 and 2 S to y + 1 (R13). -/
def State.failedEdges (s : State) : List (Nat × Nat) :=
  (List.range 128).filterMap fun i => if s.edgeState (i / 2) (i % 2 + 1) = 2 then some (i / 2, i % 2 + 1) else none

/-- MSH_DETOUR reads the same on every MSH page (R42). -/
def State.showDetour (s : State) : State :=
  match s.failedEdges with
  | [] => s
  | (n, d) :: _ => (List.range 64).foldl (fun t i =>
      ((t.wr F.MSH_DETOUR_ACTIVE i 0 1).wr F.MSH_DETOUR_DIR i 0 d).wr F.MSH_DETOUR_NODE i 0 n) s

/-! ### The boot steps (R469, R470) -/

/-- LCS_NONCE takes a new random value. -/
def State.newNonce (s : State) : State :=
  { s with boot := { s.boot with nonce := Config.freeNat s.free % 2 ^ 64 }, free := s.free + 1 }

/-- Steps 7 and 8. -/
def State.bootReady (s : State) : State :=
  let s1 := { s with boot := { s.boot with step := 15 } }.setHold none
  (s1.event 0x1C 0 0).logWords 9 0 [s.boot.image, s.boot.version, s.resets.age]

/-- Steps 4 to 6 on. -/
def State.bootLoad (s : State) (f : BootFacts) : State :=
  match s.bootImage with
  | none => s.bootFail 4 0x50
  | some i =>
    let s1 := s.loadImage i
    if f.trainBad || s1.lanesShort f then s1.bootFail 5 0x54
    else
      let s2 := ((List.range 24).foldl (fun t k => t.trainStack f k) s1).loadEdges
      if 2 ≤ s2.failedEdges.length then s2.bootFail 6 0x11 else s2.showDetour.bootReady

/-- Step 3: the log map; a map that disagrees is rebuilt by a scan (R485), and records with a bad CRC count (R482). -/
def State.readLog (s : State) : State :=
  let l := if s.log.mapOk then s.log else s.log.scan
  let s1 := { s with log := { l with ready := true, scanned := !s.log.mapOk } }.bump F.LOG_CRC_ERR_COUNT 0 0 s.log.badRecs
  if s.log.mapOk then s1 else s1.event 0x1F 0 0

/-- Steps 2 to 8. -/
def State.bootSteps (s : State) (f : BootFacts) : State :=
  let s1 := { s.newNonce with boot := { s.newNonce.boot with step := 2, lifecycle := s.fuses.lifecycle, dieTest := none }
                              pins := { s.pins with attached := f.attached, smbAddr := f.smbAddr % 8 } }
  if f.fuseBad then s1.bootFail 2 0x53
  else if s.fuses.lifecycle = 5 then s1.bootFail 2 0x57
  else if s.pins.lidOpen ∧ s.rd F.SEC_TAMPER_EN_SOURCES % 2 = 1 then (s1.wr F.RST_CAUSE_CODE 0 0 0x51).setHold (some .lidOpen)
  else if f.flashBad then s1.bootFail 3 0x55
  else if s.resets.oos then { s1.readLog with boot := { s1.boot with step := 3 } }.setHold (some .outOfService)
  else s1.readLog.bootLoad f

/-- The strap and no failure, as a reset without a power cycle meets them. -/
def State.goodFacts (s : State) : BootFacts := ⟨false, false, false, s.pins.attached, [], s.pins.smbAddr⟩

/-! ### Module resets (R410, R417, R494) -/

/-- Registers that keep their contents through a module reset: the TID page's settings (R156), RST_CAUSE, what CPX_COHWIN and BLK_CFG
stage for it (R464), and the wipes since power-on (R299). DEDUCED, log entry 109. -/
def keptReg (k : Nat) : Bool :=
  let block := k / 0x40_0000
  let off := k % 0x1000
  (block == 0x15 && [F.TID_CFG_IN_EN.off, F.TID_IN_DELAY_NS.off, F.TID_XING_LEN_US.off, F.TID_XING_BASE_BASE.off].contains off) ||
    (block == 0x18 && decide (0x60 ≤ off) && decide (off ≤ 0x70)) ||
    (block == 0x1A && k / 0x1000 % 1024 == 4 && off == F.CPX_COHWIN_BASE_GIB.off) ||
    (block == 0x12 && off == F.BLK_CFG_ILV.off) || k == F.SRM_SECURE_WIPES.key 27 0

/-- The tide unit after a module reset: the count and the settings go on, the source selection restarts (R156). -/
def Tide.restart (t : Tide) : Tide :=
  { Tide.reset with count := t.count, len := t.len, base := t.base, stagedLen := t.stagedLen, stagedBase := t.stagedBase,
                    lastBoundary := t.lastBoundary }

/-- Sites whose return was asked for are in service again (R416). -/
def Resets.unmapNow (r : Resets) : Resets :=
  { r with unmap := [], current := none, mapped := r.unmap.foldl (fun m x => Sparse.put (fun _ => 0) m x 0) r.mapped }

/-- Lanes marked for repair stay marked until the next training (R282). -/
def Stack.kept (x : Stack) : Stack := { Stack.reset with marked := x.marked }

/-- Every unit at its reset value, what survives a module reset kept; faulty cells stay faulty. -/
def State.clearModule (s : State) : State :=
  { State.reset with
    pending := s.pending, regs := s.regs.filter fun (r : Nat × Word) => keptReg r.1
    log := s.log, fuses := s.fuses, flash := s.flash, pins := s.pins, resets := s.resets.unmapNow
    tide := s.tide.restart, cohwin := (s.rd F.CPX_COHWIN_BASE_GIB 4, s.rd F.CPX_COHWIN_LIMIT_GIB 4)
    wiping := s.wiping, hold := s.hold, out := s.out, free := s.free, cells := s.cells.filter fun e => e.2.hard
    hbms := (s.hbms.filter fun e => e.2.marked != []).map fun e => (e.1, e.2.kept)
    boot := { Boot.reset with lcsBusy := s.boot.lcsBusy, prog := s.boot.prog, tamperReset := s.boot.tamperReset,
                              lifecycle := s.boot.lifecycle, tap := s.boot.tap, nonce := s.boot.nonce } }

/-- An age lies within a window that ends now. -/
def inWindow (age window a : Nat) : Bool := decide (age ≤ a + window)

/-- Module resets within the window. -/
def State.modInWindow (s : State) : Nat :=
  (s.resets.modHist.filter fun a => inWindow s.resets.age (s.rd F.RST_ESC_MOD_WINDOW_S) a).length

/-- Count a module reset, with escalation: the code it records and whether the module is now out of service. -/
def State.countModule (s : State) (code : Nat) : State :=
  let s1 := { s with resets := { s.resets with modHist := s.resets.modHist ++ [s.resets.age] } }
  let esc := s.rd F.RST_ESC_MOD_LIMIT < s1.modInWindow && !s.resets.oos
  let c := if esc then 0x21 else code
  let s2 := (s1.setCause 2 c).logWords 3 0 [s.resets.age, 2, c, 0]
  if esc then
    ({ s2 with resets := { s2.resets with oos := true, powerCycled := false } }.logWords 6 0 [1]).traceRec 27 8 0xFF
      (0x18 * 1024) 0xFF s1.modInWindow s.resets.age
  else s2

/-- The first part of a module reset: it is counted and logged, and every unit takes its reset value. -/
def State.enterReset (s : State) (code : Nat) : State := (s.countModule code).clearModule

/-- The code a module reset records: the driver's reset after a firmware update records 0x56 (R472).
DEDUCED, log entry 120. -/
def State.resetCode (s : State) (code : Nat) : Nat := if code = 0x01 ∧ s.boot.fwup = 2 then 0x56 else code

/-- A module reset: counted, cleared, and the boot steps run, unless a pin or a protective limit holds the module. -/
def State.moduleReset (s : State) (code : Nat) : State :=
  match s.hold with
  | some .unpowered => s
  | some .pinLow => s.enterReset (s.resetCode code)
  | some (.protective _) => s.enterReset (s.resetCode code)
  | _ => { s.enterReset (s.resetCode code) with hold := none }.bootSteps s.goodFacts

/-- MODULE_RESET: `same` are the codes of other triggers of the same clock; one reset records the lowest code (R494). -/
def execModuleReset (code : Nat) (s : State) (same : List Nat := []) : Host.Outcome State Fault Refusal :=
  s.mgmtAct (s.moduleReset (same.foldl (fun m c => min m (s.resetCode (c % 256))) (s.resetCode (code % 256))))

/-- PCIE_FUNDAMENTAL_RESET: in attached mode only (R410). -/
def execPcieFundamentalReset (s : State) : Host.Outcome State Fault Refusal :=
  s.mgmtAct (if s.pins.attached then s.moduleReset 0x02 else s)

/-- RST_UNMAP: a site mapped out by escalation returns at the next module reset; the return is logged. -/
def State.unmap (s : State) (v : Word) : State :=
  let x := bits v 0 6
  if bit v 8 ∧ Sparse.get (fun _ => 0) s.resets.mapped x = 1 then
    { s with resets := { s.resets with unmap := s.resets.unmap.filter (· != x) ++ [x] } }.logWords 5 x [0]
  else s

def execRstUnmap (v : Word) (s : State) : Host.Outcome State Fault Refusal := s.act (s.unmap v)

/-- RST_OOS_ACK: after a power cycle the acknowledgement clears the history and starts a module reset (R417). -/
def State.oosAck (s : State) (v : Word) : State :=
  if bits v 0 32 = 0x0ACC_0ACC ∧ s.resets.oos ∧ s.resets.powerCycled then
    ({ s with resets := { s.resets with oos := false, modHist := [] } }.logWords 6 0 [0]).moduleReset 0x01
  else s

def execRstOosAck (v : Word) (s : State) : Host.Outcome State Fault Refusal := s.mgmtAct (s.oosAck v)

/-! ### The scratchpad dump (R412, R413) -/

/-- The enabled windows of a site that can be read: those of a site in service whose bank is ON. -/
def State.dumpWindows (s : State) (site : Nat) : List Nat :=
  (List.range 16).filter fun i => s.rd F.RST_DUMPWIN_EN 0 i == 1 && !s.outOfService site &&
    s.bankAwake site (s.rd F.RST_DUMPWIN_OFFSET 0 i / 16)

/-- A dump slot from 0x40 to 0x1000: the site's last 126 trace records (R412). -/
def State.dumpTrace (s : State) (site : Nat) : List Byte :=
  let recs := (s.traceBuf site).recs
  let tr := (recs.drop (recs.length - 126)).flatMap fun r => r.flatMap fun w => leBytes 8 w.toNat
  tr ++ List.replicate (4032 - tr.length) (0 : Byte)

/-- Address of window `i` of a site. -/
def State.dumpWinAddr (s : State) (site i : Nat) : Nat := site * 0x1000_0000 + s.rd F.RST_DUMPWIN_OFFSET 0 i * 0x1_0000

/-- The dump engine reads every enabled window; one in a bank that is not ON is not copied (R268, R412). -/
def State.dumpRead (s : State) (site : Nat) : List Byte × State :=
  ((List.range 16).filter fun i => s.rd F.RST_DUMPWIN_EN 0 i == 1).foldl (fun (acc : List Byte × State) i =>
    let r := acc.2.load (s.dumpWinAddr site i) 0x1_0000
    (if (s.dumpWindows site).contains i then acc.1 ++ r.1 else acc.1, r.2)) ([], s)

def State.dumpSlot (s : State) (site : Nat) : Nat := s.rd F.RST_DUMP_AREA_ADDR * 0x10_0000 + site * 0x10_1000

/-- Bytes that a site's dump writes. -/
def State.dumpLen (s : State) (site : Nat) : Nat := 0x1000 + (s.dumpWindows site).length * 0x1_0000

/-- The sectors that a dump writes. -/
def State.dumpSectors (s : State) (sites : List Nat) : List Nat :=
  sites.flatMap fun x => (List.range (s.dumpLen x / 64)).map fun i => s.dumpSlot x + 64 * i

/-- Copy a site's slot, the header after the windows (R412, R413). -/
def State.dumpSite (s : State) (r : CompReset) (site : Nat) : State :=
  let a := s.dumpSlot site
  let wins := s.dumpRead site
  let body := s.dumpTrace site ++ wins.1
  let s1 := wins.2.store (a + 0x40) body
  let crc := crc32c (body ++ s1.peek (a + 0x40 + body.length) (0x10_1000 - 0x40 - body.length))
  s1.store a (leBytes 1 site ++ leBytes 1 r.code ++ leBytes 2 (maskOf (s.dumpWindows site)) ++ leBytes 4 0 ++
    leBytes 8 r.tide ++ leBytes 4 crc ++ List.replicate 44 (0 : Byte))

/-- What the dump area holds after a dump that stopped: free values (R413). -/
def State.dumpLost (s : State) (site : Nat) : State :=
  { s.store (s.dumpSlot site) (freeBytes s.free (s.dumpLen site)) with free := s.free + s.dumpLen site }

/-! ### Compute resets (R410, R411, R416) -/

/-- A stream is in use: it is not IDLE or its STR_CFG is not at its reset value (DEDUCED, log entry 30). -/
def State.streamUsed (s : State) (id : Nat) : Bool :=
  (s.stream id).st != .idle || s.reg (F.STR_CFG_CTX.key (id / 16) (id % 16)) != regReset (F.STR_CFG_CTX.key (id / 16) (id % 16))

/-- The contexts with a stream, stage, pontoon or landing on a site of the list. -/
def State.ctxsOn (s : State) (sites : List Nat) : List Nat :=
  let m := maskOf sites
  let strs := (sites.flatMap fun x => (List.range 256).map fun i => x * 256 + i).filter s.streamUsed
  let stages := (List.range 16).filter fun g => s.rd F.DEF_SITES_MASK g &&& m != 0
  let pons := (sites.flatMap fun x => (List.range 16).map fun i => x * 16 + i).filter fun p => s.rd F.PON_CTRL_ENABLE p == 1
  let lnds := (List.range 64).filter fun l => s.rd F.LND_CTRL_ENABLE l == 1 &&
    decide (s.rd F.LND_BUF_ADDR l * 64 < sramEnd) && sites.contains (s.rd F.LND_BUF_ADDR l * 64 / 0x1000_0000)
  (List.range 64).filter fun c => strs.any (fun id => s.strCtx id == c) || stages.any (fun g => s.stageCtx g == c) ||
    pons.any (fun p => s.rd F.PON_CFG_CTX p == c) || lnds.any (fun l => s.stageCtx (l / 4) == c)

/-- Reset the T-die and the pilot of a site. DEDUCED, log entry 108. -/
def State.resetSite (s : State) (x : Nat) : State :=
  let s1 := (List.range 16).foldl (fun t i =>
    ((t.setCore (16 * x + i) Core.reset).wr F.TC_ABSURD_FLAG (16 * x + i) 0 0).wr F.TC_SAT_CNT_COUNT (16 * x + i) 0 0) s
  let s2 := { s1 with
    bollards := s1.bollards.filter fun (b : Nat × Bollard) => b.1 / 256 != x
    waiters := s1.waiters.filter fun w => w.bollard / 256 != x && w.stream / 256 != x }
  let s3 := (s2.streams.filter fun (e : Nat × Stream) => e.1 / 256 == x).foldl (fun (t : State) (e : Nat × Stream) =>
    t.setStream e.1 { e.2.rewound with st := if e.2.st = .faulted then .faulted else .idle }) s2
  let s4 := (s3.setPilot x Pilot.reset).setEngineQ (engineKey (.coreSeq x)) EngineQ.reset
  (s4.setEngineQ (engineKey (.weights x)) EngineQ.reset).setTraceBuf x Trace.reset

/-- Every bank of a site OFF and back ON (R411). -/
def State.scrubSite (s : State) (x : Nat) : State :=
  (List.range 256).foldl (fun t b => (t.requestBank x b 2).requestBank x b 0) s

/-- The reset itself: contexts first, then the T-dies and pilots. -/
def State.resetProceed (s : State) (r : CompReset) : State :=
  let sites := setBitsOf r.sites 64
  let s1 := (s.ctxsOn sites).foldl (fun t c =>
    if (t.ctx c).st = .armed ∨ (t.ctx c).st = .tearing then t.teardown c else t) s
  let s2 := sites.foldl State.resetSite s1
  let s3 := if r.scrub then sites.foldl State.scrubSite s2 else s2
  { s3 with resets := { s3.resets with current := some { r with dumping := false } } }

/-- Compute resets of a site within the window. -/
def State.siteInWindow (s : State) (x : Nat) : Nat :=
  (s.resets.siteHist.filter fun e => e.2 == x && inWindow s.resets.age (s.rd F.RST_ESC_SITE_WINDOW_S) e.1).length

/-- Map a site out (R34, R35, R416): reason 1 escalation, 2 FAILED edge. -/
def State.mapOut (s : State) (x reason : Nat) : State :=
  ({ s with resets := { s.resets with mapped := Sparse.put (fun _ => 0) s.resets.mapped x reason } }.event 0x18 0 1).logWords
    5 x [reason]

/-- Map out a site whose count exceeds the limit. -/
def State.escalate (s : State) (x : Nat) : State :=
  if s.rd F.RST_ESC_SITE_LIMIT < s.siteInWindow x ∧ Sparse.get (fun _ => 0) s.resets.mapped x = 0 then
    (s.mapOut x 1).traceRec 27 8 0xFF (0x18 * 1024) x (s.siteInWindow x) s.resets.age
  else s

/-- A compute reset of some sites: recorded, escalated, and the dump started or the reset run.  One that comes during a
dump joins it. DEDUCED, log entry 107. -/
def State.computeReset (s : State) (sites : List Nat) (code : Nat) : State :=
  let m := maskOf sites
  let s1 := { s with resets := { s.resets with siteHist := s.resets.siteHist ++ sites.map fun x => (s.resets.age, x) } }
  let s2 := sites.foldl State.escalate s1
  let c := if sites.any fun x => Sparse.get (fun _ => 0) s.resets.mapped x == 0 && Sparse.get (fun _ => 0) s2.resets.mapped x == 1
    then 0x20 else code
  let s3 := (s2.setCause 1 c).wr F.RST_CAUSE_SITES_MASK 0 0 m
  let s4 := (s3.logWords 3 0 [s.resets.age, 1, c, m]).traceRec 27 5 0xFF (0x18 * 1024) (1 + c * 16) m 0
  let prev := match s.resets.current with | some r => r.sites | none => 0
  let r : CompReset := ⟨m ||| prev, c, s.now, true, s.rd F.RST_CFG_SCRUB == 1, none⟩
  if s.rd F.RST_CFG_DUMP_EN = 1 then { s4 with resets := { s4.resets with current := some r } }
  else s4.resetProceed { r with sites := m }

/-- The sites that a write of RST_CTRL.COMPUTE names. -/
def State.targetSitesOfReset (s : State) : List Nat :=
  let m := s.rd F.RST_TARGET_MASK
  if m = 0 then s.sitesInService else s.sitesInService.filter fun x => m / 2 ^ x % 2 == 1

/-- COMPUTE_RESET. -/
def execComputeReset (code : Nat) (s : State) : Host.Outcome State Fault Refusal :=
  s.act (s.computeReset s.targetSitesOfReset (code % 256))

/-- DUMP_DONE: the slots are written, DUMP_OK is set and the reset proceeds.  The dump's sectors are charged to class 62; while its
regulators hold some, the dump is not complete (R171, R412). -/
def State.dumpDone (s : State) : State :=
  match s.resets.current with
  | some r =>
    if r.dumping then
      let m := s.admitSectors 62 (r.due.getD (s.dumpSectors (setBitsOf r.sites 64)))
      if m.1 = [] then
        (((setBitsOf r.sites 64).foldl (fun t x => t.dumpSite r x) m.2).wr F.RST_CAUSE_DUMP_OK 0 0 1).resetProceed r
      else { m.2 with resets := { m.2.resets with current := some { r with due := some m.1 } } }
    else s
  | none => s

def execDumpDone (s : State) : Host.Outcome State Fault Refusal := s.act s.dumpDone

/-- DUMP_TIMEOUT: the dump stops and the reset proceeds. -/
def State.dumpTimeout (s : State) : State :=
  match s.resets.current with
  | some r => if r.dumping then (((setBitsOf r.sites 64).foldl State.dumpLost s).event 0x18 0 2).resetProceed r else s
  | none => s

def execDumpTimeout (s : State) : Host.Outcome State Fault Refusal := s.act s.dumpTimeout

/-- Banks of the reset sites that still scrub. -/
def State.scrubbing (s : State) (r : CompReset) : Bool :=
  r.scrub && s.banks.any fun (b : Nat × Bank) =>
    r.sites / 2 ^ (b.1 / 256) % 2 == 1 && (b.2.going != none || b.2.pending != none)

/-- COMPUTE_RESET_DONE. -/
def State.computeDone (s : State) : State :=
  match s.resets.current with
  | some r =>
    if r.dumping || s.scrubbing r then s
    else { s with resets := { s.resets with current := none } }.event 0x18 0 0
  | none => s

def execComputeResetDone (s : State) : Host.Outcome State Fault Refusal := s.act s.computeDone

end Sys2Proof.Machine
end

