-- ==== Sys2Proof/Machine/Security.lean ====
section
/-! DEFINITION. Bring-up, security and pins (R469 to R479, R485, R486 to R488, R493): power on and off, firmware update,
life cycle, tamper, fuse programming and the reset pin. -/

namespace Sys2Proof.Machine

/-! ### Power on and power loss -/

/-- The module after its regulators came up, with what non-volatile storage holds. -/
def State.powered (s : State) : State :=
  { State.reset with
    pending := s.pending, log := s.log, fuses := s.fuses, flash := s.flash, out := s.out, free := s.free
    cells := s.cells.filter fun e => e.2.hard
    resets := s.resetsFromLog, pins := { Pins.reset with lidOpen := s.pins.lidOpen, resetLow := s.pins.resetLow } }

/-- POWER_ON_SEQUENCE, of a module without power or one that has not booted. -/
def State.powerOn (s : State) (f : BootFacts) : State :=
  if s.hold = some .unpowered ∨ (s.hold = none ∧ s.boot.step = 1) then
    if s.pins.resetLow then s.powered.setHold (some .pinLow) else s.powered.bootSteps f
  else s

def execPowerOnSequence (f : BootFacts) (s : State) : Host.Outcome State Fault Refusal := .next (s.powerOn f)

/-- Replace the bytes of an image region from its start; the rest of the region is erased. -/
def State.writeImage (s : State) (i : Nat) (bs : List Byte) : State :=
  let lo := s.flash.filter fun (e : Nat × Byte) => decide (e.1 < imageBase i)
  let hi := s.flash.filter fun (e : Nat × Byte) => decide (imageBase (i + 1) ≤ e.1)
  let mid := ((List.range bs.length).zip bs).filterMap fun (e : Nat × Byte) =>
    if e.2 = 0xFF then none else some (imageBase i + e.1, e.2)
  { s with flash := lo ++ mid ++ hi }

/-- An image half written: how much of it is written is free. DESIGN CHOICE, log entry 124. -/
def State.cutImage (s : State) : State :=
  if s.boot.fwup = 1 then
    let bs := s.flashBytes (imageBase s.boot.fwTarget) 0x400_0000
    { s.writeImage s.boot.fwTarget (bs.take (Config.freeNat s.free % 0x400_0000)) with free := s.free + 1 }
  else s

/-- Fuse rows of a transition that the power loss cut: a free number of them is burnt, in order. -/
def State.cutFuses (s : State) : State :=
  match s.boot.lcsBusy with
  | some t =>
    { s with free := s.free + 1
             fuses := { s.fuses with rows := s.fuses.rows ++ (List.range (Config.freeNat s.free % 4)).map fun r => (t, r) } }
  | none => s

/-- POWER_LOSS: all volatile state is gone, the next power-on finds what the log, flash and fuses hold. -/
def State.powerLoss (s : State) (cut : LogCut) : State :=
  let s1 := (s.cutLog cut).cutImage.cutFuses
  { s1.powered with log := { s1.log with ready := false, exporting := false } }.setHold (some .unpowered)

def execPowerLoss (s : State) (cut : LogCut := .none) : Host.Outcome State Fault Refusal := .next (s.powerLoss cut)

/-! ### The reset pin (R493) and the lid (R478) -/

/-- MOD_RESET_N is low for `ns`: at least 1 µs starts a module reset, which runs when the pin returns high. -/
def State.resetLow (s : State) (ns : Nat) : State :=
  if ns < 1000 then s
  else
    let s0 := { s with pins := { s.pins with resetLow := true } }
    match s.hold with
    | some .unpowered => s0
    | some (.protective _) => s0.enterReset 0x03
    | _ => (s0.enterReset 0x03).setHold (some .pinLow)

def execModResetNLow (ns : Nat) (s : State) : Host.Outcome State Fault Refusal := .next (s.resetLow ns)

/-- The boot steps from step 2, as a held module runs them when its hold ends. -/
def State.resume2 (s : State) : State := { s with hold := none }.bootSteps s.goodFacts

/-- MOD_RESET_N returns high. -/
def State.resetHigh (s : State) : State :=
  let s1 := { s with pins := { s.pins with resetLow := false } }
  if s.hold = some .pinLow then s1.resume2 else s1

def execModResetNRelease (s : State) : Host.Outcome State Fault Refusal := .next s.resetHigh

/-- LID_CLOSE: a module held at step 2 by the open lid goes on. -/
def State.closeLid (s : State) : State :=
  let s1 := { s with pins := { s.pins with lidOpen := false } }
  if s.hold = some .lidOpen then s1.resume2 else s1

def execLidClose (s : State) : Host.Outcome State Fault Refusal := .next s.closeLid

/-! ### Tamper and the secure wipe (R274, R476, R478) -/

/-- The tamper sources enabled: all of them from PRODUCTION on (R474). -/
def State.tamperOn (s : State) : Nat := if 3 ≤ s.fuses.lifecycle then 0xF else s.rd F.SEC_TAMPER_EN_SOURCES

/-- TAMPER_EVENT: the sources of one clock; the lid's contact stays open until it is closed. DEDUCED, log entry 122. -/
def State.tamper (s : State) (sources : Nat) : State :=
  let s0 := if sources % 2 = 1 then { s with pins := { s.pins with lidOpen := true } } else s
  let hit := sources % 16 &&& s.tamperOn
  if hit = 0 then s0
  else
    let s1 := (s0.wr F.SEC_TAMPER_SOURCES 0 0 (s.rd F.SEC_TAMPER_SOURCES ||| hit)).wr F.SEC_TAMPER_TIDE_TIDE 0 0 s.now
    let s2 := (s1.event 0x1C 0 1).wipe
    { s2 with boot := { s2.boot with tamperReset := true } }

def execTamperEvent (sources : Nat) (s : State) : Host.Outcome State Fault Refusal := s.mgmtAct (s.tamper sources)

/-- The module reset of a tamper event, once the wipe is complete and no fuse row is being burnt. -/
def State.tamperReset (s : State) : State :=
  if s.boot.tamperReset && !s.wiping && s.boot.lcsBusy.isNone then
    ({ s with boot := { s.boot with tamperReset := false } }.logWords 7 0
      [s.rd F.SEC_TAMPER_TIDE_TIDE, s.rd F.SEC_TAMPER_SOURCES]).moduleReset 0x51
  else s

/-- SECURE_WIPE_DONE. -/
def execSecureWipeDone (s : State) : Host.Outcome State Fault Refusal :=
  s.mgmtAct (if s.wiping then s.wipeEnds.tamperReset else s)

/-! ### Firmware update (R472, R486) -/

def State.fwupAddr (s : State) : Nat := s.rd F.SEC_FWUP_ADDR_ADDR * 4096

/-- FWUP_START: the staged image is checked; a failing one is refused without writing flash. -/
def State.fwupStart (s : State) : State :=
  let len := s.rd F.SEC_FWUP_LEN_BYTES
  let r := s.load s.fwupAddr len
  let reason := imageReason s.fuses len (r.1.take 0x130) fun n => (r.1.drop 0x1000).take n
  let target := 1 - s.boot.image
  if s.boot.fwup = 1 then s
  else if reason ≠ 0 then { r.2 with boot := { s.boot with fwup := 3, fwReason := reason, fwTarget := target } }.event 0x1C 0 2
  else { r.2.writeImage target r.1 with boot := { s.boot with fwup := 1, fwReason := 0, fwTarget := target } }

/-- FWUP_DONE: written, and verified from flash or not. -/
def State.fwupDone (s : State) (verified : Bool) : State :=
  if s.boot.fwup = 1 then
    { s with boot := { s.boot with fwup := if verified then 2 else 3, fwReason := if verified then 0 else 7 } }.event 0x1C 0 2
  else s

def execFwupDone (verified : Bool) (s : State) : Host.Outcome State Fault Refusal := s.act (s.fwupDone verified)

/-! ### Life cycle (R475, R476, R487) -/

/-- The legal transitions. -/
def legalMove (cur target : Nat) : Bool :=
  [(0, 1), (1, 2), (1, 3), (2, 3), (3, 4)].contains (cur, target) || (target == 5 && cur != 5)

/-- The keys that may sign a transition: one that the state accepts, and the production key for RETURN. -/
def tokenKeys (cur target : Nat) : List Nat := if target = 4 then [2] else acceptedKeys cur

/-- LCS_RESULT of a write of LCS_CMD with the token's bytes: 1 accepted, else the reason of the refusal. -/
def State.lcsCheck (s : State) (target : Nat) (tok : List Byte) : Nat :=
  let cur := s.fuses.lifecycle
  let key := hdrField tok 0x18 1
  if !legalMove cur target then 2
  else if hdrField tok 0 4 ≠ 0x4C435354 ∨ hdrField tok 4 1 ≠ target then 3
  else if hdrField tok 8 8 % 2 ^ 48 ≠ s.fuses.serial ∨ hdrField tok 0x10 8 ≠ s.boot.nonce then 4
  else if !(tokenKeys cur target).contains key || !s.fuses.keyMatches key (hdrPart tok 0x20 97) then 5
  else if !ecdsaVerify (hdrPart tok 0x20 97) (hdrPart tok 0 0xA0) (hdrPart tok 0xA0 96) then 6
  else 1

/-- LCS_GO: a refusal changes the nonce; an accepted transition wipes the secure region and burns the rows. -/
def State.lcsGo (s : State) (v : Word) : State :=
  let t0 := bits v 0 3
  let target := if 6 ≤ t0 then s.fuses.lifecycle else t0
  let tok := s.load (s.rd F.LCS_TOKEN_ADDR * 256) 256
  let res := s.lcsCheck target tok.1
  if !bit v 8 ∨ s.boot.lcsBusy.isSome then s
  else if res ≠ 1 then ({ tok.2 with boot := { s.boot with lcsResult := res } }.newNonce).event 0x1D 0 0
  else
    let s1 := tok.2.wipe
    { s1 with boot := { s1.boot with lcsResult := 1, lcsBusy := some target }
              fuses := { s1.fuses with debugLock := s1.fuses.debugLock || target == 3 } }

/-- LCS_BURN_DONE: `rows` rows of the target bit are burnt, three unless a tamper event cut the transition short. -/
def State.lcsBurnDone (s : State) (rows : Nat) : State :=
  match s.boot.lcsBusy with
  | none => s
  | some t =>
    let s1 := { s with boot := { s.boot with lcsBusy := none }
                       fuses := { s.fuses with rows := s.fuses.rows ++ (List.range (min rows 3)).map fun r => (t, r) } }
    let s2 := if s1.fuses.lifecycle = t then s1.logWords 8 t [s1.now] else s1
    if s.boot.tamperReset then s2.tamperReset else s2.moduleReset 0x52

def execLcsBurnDone (rows : Nat) (s : State) : Host.Outcome State Fault Refusal := s.mgmtAct (s.lcsBurnDone rows)

/-! ### Fuse programming (R477, R488) -/

/-- Start a programming, or give the reason why it is refused; one in progress is let finish. DEDUCED, log entry 121. -/
def State.program (s : State) (refused : Nat) (p : Nat × Nat × List Byte) : State :=
  if s.boot.prog.isSome then s
  else if refused ≠ 0 then { s with boot := { s.boot with progResult := refused } }
  else { s with boot := { s.boot with prog := some p } }

/-- FUS_PROG.DEBUG_LOCK. -/
def execFusProgDebugLock (s : State) : Host.Outcome State Fault Refusal :=
  s.act (s.program (if s.fuses.lifecycle = 5 then 1 else if s.fuses.debugLock then 2 else 0) (1, 0, []))

/-- FUS_PROG.ROLLBACK_SET. -/
def execFusProgRollbackSet (s : State) : Host.Outcome State Fault Refusal :=
  s.act (s.program (if s.fuses.rollback < s.boot.rollback then 0 else 2) (2, s.boot.rollback, []))

/-- FUS_PROG.KEY_HASH: TEST only, once for each key; KEY_SEL 0 takes the default, 2. -/
def State.progHash (s : State) (keySel : Nat) : State :=
  let k := if keySel % 4 = 0 then 2 else keySel % 4
  let has := s.fuses.hashes.any fun (e : Nat × List Byte) => e.1 == k
  let r := s.load (s.rd F.FUS_HASH_SRC_ADDR * 64) 48
  r.2.program (if s.fuses.lifecycle ≠ 1 then 1 else if has then 2 else 0) (3, k, r.1)

/-- The fuses after a programming. -/
def Fuses.programmed (f : Fuses) (p : Nat × Nat × List Byte) : Fuses :=
  if p.1 = 1 then { f with debugLock := true }
  else if p.1 = 2 then { f with rollback := p.2.1 }
  else { f with hashes := Sparse.put (fun _ => []) f.hashes p.2.1 p.2.2 }

/-- FUS_PROG_DONE: a programming that does not verify leaves the fuse as it sensed before (DESIGN CHOICE, log entry 33). -/
def State.progDone (s : State) (verified : Bool) : State :=
  match s.boot.prog with
  | none => s
  | some p =>
    { s with boot := { s.boot with prog := none, progResult := if verified then 0 else 3 }
             fuses := if verified then s.fuses.programmed p else s.fuses }.event 0x1E 0 0

def execFusProgDone (verified : Bool) (s : State) : Host.Outcome State Fault Refusal := s.act (s.progDone verified)

/-! ### The test port (R474, R477, R479) -/

/-- The debug instructions act. -/
def State.tapOpen (s : State) : Bool := !s.fuses.debugLock && s.fuses.lifecycle != 3 && s.fuses.lifecycle != 5

/-- A loop-back found a wire group of an edge failing in TEST: the lane-repair map steers it onto its spare (R31, R480). -/
def State.repairGroup (s : State) (f : Nat × Nat) : State :=
  let old := ((s.log.ofType 1).filter fun r => r.key == f.1).getLast?
  let e := match old with
    | some r => r.edge
    | none => EdgeDir.reset
  let k := regKey 0x05 (f.1 / 4) (0x40 + 8 * (f.1 % 4))
  let w := match old with
    | some r => BitVec.ofNat 64 (r.word 0)
    | none => regReset k
  if e.steered.contains f.2 then s
  else
    let used := edgeFld F.MSH_EDGE_SPARES_USED 0
    let w1 := if f.2 < 64 then setBits w used.lo used.width (fld w used + 1) else w
    s.logWords 1 f.1 (edgeBody w1 { e with steered := e.steered ++ [f.2] })

/-- A stand-alone test of a die: in BLANK, TEST and DEVELOP, while the module is held in module reset.  A loop-back reports each
failing group (R480). -/
def State.dieTest (s : State) (t : DieTest) : State :=
  if s.fuses.lifecycle ≤ 2 ∧ s.hold.isSome then
    let kind := match t.kind with | .scan => 0 | .logicBist => 1 | .memoryBist => 2 | .loopBack => 3
    let s1 := { s with boot := { s.boot with dieTest := some t }
                       out := s.out ++ [.ctrl 27 "DIE_TEST" (t.die :: kind :: t.fails.flatMap fun f => [f.1, f.2])] }
    if t.kind = .loopBack ∧ s.fuses.lifecycle = 1 then t.fails.foldl State.repairGroup s1 else s1
  else s

/-- TAP_DIE_SELECT reaches the die chains and through them a die's wrapper, which can run a stand-alone test; closed, it acts as
BYPASS (R477, R479, R480). -/
def execTapDieSelect (s : State) (test : Option DieTest := none) : Host.Outcome State Fault Refusal :=
  let s1 : State := { s with boot := { s.boot with tap := if s.tapOpen then 1 else 3 } }
  s.mgmtAct (match test with
    | some t => if s.tapOpen then s1.dieTest t else s1
    | none => s1)

end Sys2Proof.Machine
end

