-- ==== Sys2Proof/Machine/Power.lean ====
section
/-! DEFINITION. Power and thermal control (chapter 13): monitors, protective limits, energy charges, the inertia
controller with its ballast and thermal prediction, and the power states. -/

namespace Sys2Proof.Machine

def State.pwrEvent (s : State) (i : Nat) : State := s.event 0x19 0 i

/-! ### Monitors (R429, R430, R432, R447) -/

/-- The temperatures of a site's page by sensor index: the T-die's 0–15, then the S-die's. -/
def State.temps (s : State) (site : Nat) : List Int :=
  ((List.range 16).map fun i => signed 16 (s.rd F.MON_TEMP_T site i)) ++
    (List.range 4).map fun i => signed 16 (s.rd F.MON_STEMP_T site i)

/-- The hottest sensor, the lowest of equals. -/
def hottest : List Int → Nat → Int × Nat → Int × Nat
  | [], _, m => m
  | t :: ts, i, m => hottest ts (i + 1) (if m.1 < t then (t, i) else m)

/-- Show a temperature and the page's maximum. -/
def State.setTemp (s : State) (f : FieldRef) (site i : Nat) (v : Int) : State :=
  let s1 := s.wr f site i (code 16 v)
  let m := hottest (s1.temps site) 0 (signed 16 (s1.rd F.MON_TEMP_T site 0), 0)
  (s1.wr F.MON_TMAX_T site 0 (code 16 m.1)).wr F.MON_TMAX_SENSOR site 0 m.2

/-- Watts of one ballast core: CORE_PJ × 1.8 ⁄ 1,000, rounded to whole W (R436). -/
def State.ballastW (s : State) : Nat := (s.rd F.PWR_ECOEF_CORE_PJ * 18 + 5000) / 10000

/-- Input power: voltage × current, and its sums for the controller. -/
def State.samplePin (s : State) : State :=
  let w := min (s.rd F.MON_VIN_MV 64 * s.rd F.MON_IIN_A10M 64 / 100000) 65535
  let s1 := (s.wr F.MON_PIN_W 64 0 w).wr F.MON_PEAK_W 64 0 (max w (s.rd F.MON_PEAK_W 64))
  { s1 with power := { s1.power with
      pinSum := s1.power.pinSum + w, samples := s1.power.samples + 1
      balSum := s1.power.balSum + s1.power.ballast * s.ballastW } }

/-- MONITOR_SAMPLE, in the units of the monitor's register. -/
def State.sample (s : State) (m : Monitor) (v : Int) : State :=
  match m with
  | .tdie site i => if site < 64 ∧ i < 16 then s.setTemp F.MON_TEMP_T site i v else s
  | .sdie site i => if site < 64 ∧ i < 4 then s.setTemp F.MON_STEMP_T site i v else s
  | .process site i => if site < 64 ∧ i < 4 then s.wr F.MON_PROC_COUNT site i (code 32 v) else s
  | .vin => s.wr F.MON_VIN_MV 64 0 (code 16 v)
  | .iin => s.wr F.MON_IIN_A10M 64 0 (code 16 v)
  | .pin => s.samplePin
  | .tin =>
    let s1 := s.wr F.MON_TIN_T 64 0 (code 16 v)
    if 640 < v then s1.pwrEvent 2 else s1
  | .tout => s.wr F.MON_TOUT_T 64 0 (code 16 v)
  | .flow =>
    let s1 := s.wr F.MON_FLOW_CLPM 64 0 (code 16 v)
    if v < 2400 then s1.pwrEvent 3 else s1
  | .bulk c => if c < 4 then s.wr F.BLK_STATUS_TEMP c 0 (code 8 v) else s

def execMonitorSample (m : Monitor) (value : Int) (s : State) : Host.Outcome State Fault Refusal :=
  s.mgmtAct (s.sample m value)

/-- DROOP_EVENT: a droop beyond the threshold is counted, and changes nothing else (R430). -/
def execDroopEvent (site mv : Nat) (s : State) : Host.Outcome State Fault Refusal :=
  s.mgmtAct (if site < 64 ∧ s.rd F.MON_DROOP_MV site < mv then (s.bump F.MON_DROOP_CNT_COUNT site).event 0x08 site 0 else s)

/-- PROTECTIVE_TRIP: a limit that lasted its time causes a module reset that holds (R431). DEDUCED, log entry 123. -/
def State.trip (s : State) (code : Nat) : State :=
  if 0x40 ≤ code ∧ code ≤ 0x45 ∧ s.hold ≠ some .unpowered then (s.enterReset code).setHold (some (.protective code)) else s

def execProtectiveTrip (code : Nat) (s : State) : Host.Outcome State Fault Refusal := .next (s.trip code)

/-- PROTECTIVE_RELEASE: the condition has been absent for 1 s. -/
def State.untrip (s : State) : State :=
  match s.hold with
  | some (.protective _) => if s.pins.resetLow then s.setHold (some .pinLow) else s.resume2
  | _ => s

def execProtectiveRelease (s : State) : Host.Outcome State Fault Refusal := .next s.untrip

/-! ### Energy (R433) -/

/-- Energy in whole µJ, rounded to nearest. DEDUCED, log entry 110. -/
def microJoules (pj : Nat) : Nat := (pj + 500000) / 1000000

/-- ENERGY_CHARGE: each class is charged with the energy of its charges of the last µs, ballast with its cores'. -/
def State.energyCharge (s : State) : State :=
  let bal := s.power.ballast * s.rd F.PWR_ECOEF_CORE_PJ * 1800
  let pjs := addAt s.power.classPj 61 bal
  let be := s.power.balEnergy + microJoules bal
  let s1 := { s with power := { s.power with classPj := [], balEnergy := be % 1000 } }
  (pjs.foldl (fun (t : State) (e : Nat × Nat) => t.charge e.1 6 0 (microJoules e.2)) s1).bump F.PWR_BALLAST_MJ_COUNT 0 0 (be / 1000)

def execEnergyCharge (s : State) : Host.Outcome State Fault Refusal := s.act s.energyCharge

/-! ### The inertia controller (R434 to R438) -/

/-- Class 61 is kept exempt and its ENERGY toll staged (R436). -/
def State.ballastToll (s : State) : State :=
  if s.rd F.PWR_CFG_EN = 1 ∧ s.rd F.PWR_CFG_BALLAST_EN = 1 then
    (s.wr F.TOL_CFG_EXEMPT 61 0 1).wr (tollField 6) 61 0 (s.rd F.PWR_BALLAST_MAX_W * s.tide.len / 1000)
  else s

/-- The cap that the coolant flow leaves (R432). DEDUCED, log entry 111. -/
def State.flowCap (s : State) : Int :=
  let cap := s.rd F.PWR_LIMIT_CAP_W
  let flow := s.rd F.MON_FLOW_CLPM 64
  if flow < 2400 then (cap * flow / 2400 : Nat) else (cap : Nat)

/-- A non-exempt class with charges in this crossing is unmetered in ISSUE and in ENERGY (R435). -/
def State.unmeteredActive (s : State) : Bool :=
  s.spent.any fun (e : Nat × Int) =>
    let c := e.1 / 8192
    e.2 != 0 && s.rd F.TOL_CFG_EXEMPT c == 0 && s.baseToll c 0 == unmetered && s.baseToll c 6 == unmetered

/-- e^(−a ⁄ b) with 192 fractional bits. -/
def expNeg (a b : Nat) : Nat := fxOne * fxOne / fxExp (a * fxOne / b)

/-- A site's predicted temperature in 1⁄16 °C, rounded down (R439; the rounding DESIGN CHOICE, log entry 34).  `dt` is the
time over which the site's energy was noted, in µs.  A stack's temperature counts among the sensors of its edge site (R289; DESIGN
CHOICE, log entry 158). -/
def State.predict (s : State) (dt site : Nat) : Int :=
  let tc := (signed 16 (s.rd F.MON_TIN_T 64) + signed 16 (s.rd F.MON_TOUT_T 64)) / 2
  let watts := Sparse.get (fun _ => 0) s.power.sitePj site / (dt * 1000000) + s.rd F.PWR_LIMIT_STATIC_W / 60
  let near := (List.range 24).filterMap fun k => if portNode (2 * k) = site then some (16 * (s.stack k).temp) else none
  let tss := tc + ((s.rd F.PWR_THERM_THETA_MK_W * watts * 16 / 1000 : Nat) : Int)
  let tnow := near.foldl max (signed 16 (s.rd F.MON_TMAX_T site))
  tss - (tss - tnow) * (expNeg (s.rd F.PWR_THERM_HORIZON_US) (s.rd F.PWR_THERM_TAU_US) : Nat) / (fxOne : Nat)

/-- The largest prediction over the T-dies in service. -/
def State.predTj (s : State) (dt : Nat) : Int :=
  match s.sitesInService.map (s.predict dt) with
  | [] => 0
  | t :: ts => ts.foldl max t

/-- The thermal limit after an update. -/
def State.thermCap (s : State) (cur pred : Int) : Int :=
  let step : Int := (s.rd F.PWR_THERM_STEP_STEP_W : Nat)
  let target : Int := 16 * (s.rd F.PWR_THERM_TJ_TARGET : Nat)
  if target < pred then max 1000 (cur - step)
  else if pred < target - 32 then min (s.rd F.PWR_LIMIT_CAP_W : Nat) (cur + step)
  else cur

/-- What the controller computes (R434), from the update interval in µs. -/
structure Update where
  pm    : Int
  pb    : Int
  pd    : Int
  floor : Int
  until' : Nat
  tgt   : Int
  frac  : Nat
  pred  : Int
  cap   : Int
  deriving DecidableEq, Repr

/-- The throttle fraction for a demand over the cap; a demand equal to STATIC_W leaves the quotient open (a free value). -/
def State.fraction (s : State) (cap d : Int) : Nat :=
  let st : Int := (s.rd F.PWR_LIMIT_STATIC_W : Nat)
  let q : Int := if d = st then (Config.freeNat s.free : Int) else ((cap - st) * 256).tdiv (d - st)
  if d ≤ cap then 256 else (clampInt (s.rd F.PWR_LIMIT_FRAC_MIN : Nat) 256 q).toNat

/-- DEDUCED, log entry 113. -/
def State.computeUpdate (s : State) (dt : Nat) : Update :=
  let p := s.power
  let pm : Int := if p.samples = 0 then (s.rd F.MON_PIN_W 64 : Nat) else p.pinSum / (p.samples : Nat)
  let pb : Int := if p.samples = 0 then 0 else p.balSum / (p.samples : Nat)
  let pd := pm - pb
  let pmPrev := if p.started then p.pmPrev else pm
  let pdPrev := if p.started then p.pdPrev else pd
  let drop := pd < pdPrev - (s.rd F.PWR_FLOOR_DROP_W : Nat)
  let floor := if drop then (pmPrev * (s.rd F.PWR_FLOOR_FLOOR_FRAC : Nat)).tdiv 256 else p.floor
  let floorUntil := if drop then s.now + s.rd F.PWR_FLOOR_HOLD_US * 1000 else p.floorUntil
  let pred := s.predTj dt
  let therm := s.thermCap (if p.started then p.thermcap else (s.rd F.PWR_LIMIT_CAP_W : Nat)) pred
  let capW : Int := (s.rd F.PWR_LIMIT_CAP_W : Nat)
  let rise : Int := pm + (s.rd F.PWR_SLEW_UP_W_MS * dt / 1000 : Nat)
  let cap : Int := min (min capW s.flowCap) (min therm rise)
  let t0 := pm - (s.rd F.PWR_SLEW_DN_W_MS * dt / 1000 : Nat)
  let t1 := if s.now < floorUntil then max t0 floor else t0
  let st : Int := (s.rd F.PWR_LIMIT_STATIC_W : Nat)
  let d := if p.heldAny then st + ((pd - st) * 256).tdiv (p.frac : Nat) else pd
  ⟨pm, pb, pd, floor, floorUntil, min t1 cap, s.fraction cap d, pred, therm⟩

/-- Ballast cannot fill a fall: at its maximum, held, off, or without idle cores (R438). -/
def State.ballastFull (s : State) (pb : Int) : Bool :=
  s.rd F.PWR_CFG_BALLAST_EN == 0 || decide ((s.rd F.PWR_BALLAST_MAX_W : Int) ≤ pb) || s.tollHeld 61 6 0 ||
    s.sitesInService.all fun x => (List.range 16).all fun i => !(s.core (16 * x + i)).inflight.isEmpty

/-- CONTROLLER_UPDATE: its outputs are staged for the next boundary (R173).  It runs at the end of a crossing whose number is a multiple of ALIGN_N. -/
def State.controller (s : State) : State :=
  let n := s.rd F.PWR_CFG_ALIGN_N
  if s.rd F.PWR_CFG_EN = 0 ∨ s.xnum % n ≠ 0 then s
  else
    let dt := n * s.tide.len
    let u := s.computeUpdate dt
    let fall := s.power.started && decide (((s.rd F.PWR_SLEW_DN_W_MS * dt / 1000 : Nat) : Int) < s.power.pmPrev - u.pm)
    let s2 := if u.frac < 256 ∧ s.unmeteredActive then s.pwrEvent 1 else s
    let s3 := if fall && s.ballastFull u.pb then (s2.bump F.PWR_SLEW_VIOL_COUNT).pwrEvent 0 else s2
    { s3 with
      free := s3.free + 1
      power := { s3.power with
        started := true, pmPrev := u.pm, pdPrev := u.pd, floor := u.floor, floorUntil := u.until', frac := u.frac
        thermcap := u.cap, tgt := u.tgt, pm := u.pm, pb := u.pb, predTj := u.pred, pinSum := 0, balSum := 0
        samples := 0, heldAny := false, sitePj := [], fracStaged := some u.frac } }.ballastToll

def execControllerUpdate (s : State) : Host.Outcome State Fault Refusal := s.act s.controller

/-- A write of PWR_CFG: with EN clear the controller starts afresh at the next update. -/
def State.writePwrCfg (s : State) (v : Word) : State :=
  let s1 := s.writeField 0x19 0 0x40 v
  if s1.rd F.PWR_CFG_EN = 0 then { s1 with power := { s1.power with started := false } } else s1

/-- The idle cores that ballast picks: ascending global ID, on sites in service. -/
def State.ballastPick (s : State) (n : Nat) : List Nat :=
  ((s.sitesInService.flatMap fun x => (List.range 16).map fun i => 16 * x + i).filter fun c =>
    (s.core c).inflight.isEmpty).take n

/-- Set which cores run bursts. -/
def State.setBallast (s : State) (cs : List Nat) : State :=
  let s1 := s.cores.foldl (fun (t : State) (e : Nat × Core) => if e.2.ballast then t.setCore e.1 { e.2 with ballast := false } else t) s
  let s2 := cs.foldl (fun t c => t.setCore c { t.core c with ballast := true }) s1
  { s2 with power := { s2.power with ballast := cs.length } }

/-- BALLAST_UPDATE; ballast stops while class 61 is held (R437).  Where one core draws 0 W, the number of cores is open (log entry
159). -/
def State.ballast (s : State) : State :=
  if s.rd F.PWR_CFG_EN = 0 ∨ s.rd F.PWR_CFG_BALLAST_EN = 0 ∨ s.tollHeld 61 6 0 then s.ballastToll.setBallast []
  else
    let gap := (s.power.tgt - (s.rd F.MON_PIN_W 64 : Nat)).toNat
    s.ballastToll.setBallast (s.ballastPick (if s.ballastW = 0 then Config.divZero gap else ceilDiv gap s.ballastW))

def execBallastUpdate (s : State) : Host.Outcome State Fault Refusal := s.act s.ballast

/-! ### Power states (R440 to R445) -/

/-- Depth of a state: its code. -/
def PowerSt.rank : PowerSt → Nat
  | .active => 0 | .idle => 1 | .nap => 2 | .deep => 3

/-- Sites gated or ungated per boundary. -/
def State.perStep (s : State) (slew : FieldRef) : Nat :=
  max 1 (s.rd slew * s.tide.len / (1000 * s.rd F.PWR_BALLAST_SITE_LEAK_W))

/-- Entry latency in µs. -/
def State.entryUs (s : State) (st : PowerSt) : Nat :=
  let nap := (ceilDiv 60 (s.perStep F.PWR_SLEW_DN_W_MS) + 1) * s.tide.len
  match st with
  | .active => 0 | .idle => 1 | .nap => nap | .deep => nap + 1000

/-- Exit latency in µs. -/
def State.exitUs (s : State) (st : PowerSt) : Nat :=
  let nap := (ceilDiv 60 (s.perStep F.PWR_SLEW_UP_W_MS) + 1) * s.tide.len + 2
  match st with
  | .active => 0 | .idle => 1 | .nap => nap | .deep => nap + 2000

/-- Nothing works (R441). -/
def State.quietNow (s : State) : Bool :=
  s.engines.all (fun (e : Nat × EngineQ) => e.2.entries.isEmpty && e.2.cur.isNone) &&
    s.streams.all (fun (e : Nat × Stream) => e.2.st != .running && e.2.st != .held) &&
    s.ferries.all (fun (e : Nat × Ferry) => e.2.st == .idle || e.2.st == .disabled) &&
    s.landings.all (fun (e : Nat × Landing) => e.2.entries.all fun x => x.2.st != .filling) &&
    (s.ckpt.st == .idle || s.ckpt.st == .done || s.ckpt.st == .error) && s.optHeld.isEmpty

/-- DEEP is eligible. -/
def State.deepOk (s : State) : Bool :=
  s.rd F.PWR_WAKE_DEEP_OK == 1 && s.pins.attached && (List.range 4).all fun d => !s.dieDirty d

/-- The deepest state of a list whose exit latency PWR_WAKE allows. -/
def State.deepest (s : State) (l : List PowerSt) : PowerSt :=
  (l.find? fun st => decide (s.exitUs st ≤ s.rd F.PWR_WAKE_US)).getD .active

/-- NOT_BEFORE times of the WAITING heads. -/
def State.notBefores (s : State) : List Nat :=
  s.streams.filterMap fun (e : Nat × Stream) =>
    match e.2.st, e.2.store with
    | .waiting, d :: _ => if mNotBefore d.words = 0 ∨ e.2.nbReleased then none else some (mNotBefore d.words)
    | _, _ => none

/-- A POWER record of the hub's trace buffer (R445). -/
def State.powerTrace (s : State) (new old : PowerSt) : State :=
  s.traceRec 27 6 0xFF (0x19 * 1024) (new.rank + 16 * old.rank) (s.rd F.MON_PIN_W 64 + s.rd F.PWR_WAKE_US * 2 ^ 32) 0

/-- QUIET_ENTRY: a module quiet for its time starts an entry, unless a wake event comes in the same tick.
DEDUCED, log entry 114. -/
def State.quietEntry (s : State) (wakeSame : Bool) : State :=
  let target := s.deepest (if s.deepOk then [.deep, .nap, .idle] else [.nap, .idle])
  if wakeSame || !s.powerActive || !s.quietNow || target == .active ||
      s.notBefores.any (fun t => decide (t < s.now + (s.entryUs target + s.exitUs target) * 1000)) then s
  else { s.powerTrace target .active with power := { s.power with target := target, transition := true } }

def execQuietEntry (wakeSame : Bool) (s : State) : Host.Outcome State Fault Refusal := s.act (s.quietEntry wakeSame)

/-- Where record i of a buffer that holds n lies. -/
def Trace.place (b : Trace) (i : Nat) : Nat := (b.widx + 2048 - b.recs.length + i) % 2048

/-- Copy every trace buffer to PWR_TRACE_SAVE, charged to class 63 (DESIGN CHOICE, log entry 157). -/
def State.saveTraces (s : State) : State :=
  s.traces.foldl (fun (t : State) (e : Nat × Trace) =>
    let a := s.rd F.PWR_TRACE_SAVE_ADDR * 0x40_0000 + e.1 * 0x1_0000
    ((List.range e.2.recs.length).zip e.2.recs).foldl (fun (u : State) (r : Nat × List Word) =>
      let b := a + 32 * e.2.place r.1
      (u.chargeSectors 63 (sectors b 32)).store b (r.2.flatMap fun w => leBytes 8 w.toNat)) t) s

/-- POWER_ENTRY_DONE; before DEEP the trace buffers are saved, and it loses the SRAM.
UNVERIFIED that cores keep their state, log entry 115. -/
def State.entryDone (s : State) : State :=
  let p := s.power
  if p.transition && decide (p.st.rank < p.target.rank) then
    let s1 := if p.target = .deep then s.saveTraces.blank 0 sramEnd else s
    { s1 with power := { p with st := p.target, transition := false } }.pwrEvent 4
  else s

def execPowerEntryDone (s : State) : Host.Outcome State Fault Refusal := s.act s.entryDone

/-- Start an exit; an entry in progress is aborted. -/
def State.startExit (s : State) (target : PowerSt) : State :=
  if s.power.st = .active ∧ !s.power.transition then s
  else { s with power := { s.power with target := target, transition := true } }

/-- The event wakes the module (R442). -/
def wakes : Wake → Bool
  | .registerWrite b => [0x03, 0x04, 0x10, 0x0F, 0x17, 0x19].contains b
  | _ => true

/-- WAKE_EVENT. -/
def execWakeEvent (w : Wake) (s : State) : Host.Outcome State Fault Refusal :=
  s.act (if wakes w then s.startExit .active else s)

/-- Bank states written during NAP or DEEP are taken (R444). -/
def State.exitBanks (s : State) : State :=
  let s1 := s.power.bankAtExit.foldl (fun (t : State) (e : Nat × Nat) =>
    let b := bankTarget (t.bank e.1).st e.2
    let t1 := if b = .off then t.blank (bankBase (e.1 / 256) (e.1 % 256)) (bankBase (e.1 / 256) (e.1 % 256) + 0x10_0000) else t
    t1.setBank e.1 ⟨b, none, none⟩) s
  { s1 with power := { s1.power with bankAtExit := [] } }

/-- POWER_EXIT_DONE. -/
def State.exitDone (s : State) : State :=
  let p := s.power
  if p.transition && decide (p.target.rank ≤ p.st.rank) then
    let s1 := ({ s with power := { p with st := p.target, transition := false } }.pwrEvent 4).powerTrace p.target p.st
    if p.target.rank ≤ 1 then s1.exitBanks else s1
  else s

def execPowerExitDone (s : State) : Host.Outcome State Fault Refusal := s.act s.exitDone

/-- PWR_WAKE_WRITE: a value below the current state's exit latency starts an exit to the deepest state that meets it. -/
def State.writeWake (s : State) (v : Word) : State :=
  let s1 := s.writeField 0x19 0 0x78 v
  let below := [PowerSt.deep, .nap, .idle].filter fun st => decide (st.rank < s.power.st.rank)
  if s1.rd F.PWR_WAKE_US < s1.exitUs s.power.st then s1.startExit (s1.deepest below) else s1

def execPwrWakeWrite (v : Word) (s : State) : Host.Outcome State Fault Refusal := s.act (s.writeWake v)

/-- NOT_BEFORE_EXIT: the exit for a WAITING head starts its latency before the head's NOT_BEFORE (R441). -/
def State.notBeforeExit (s : State) (id : Nat) : State :=
  match (s.stream id).st, (s.stream id).store with
  | .waiting, d :: _ =>
    if mNotBefore d.words ≠ 0 ∧ mNotBefore d.words ≤ s.now + s.exitUs s.power.st * 1000 then s.startExit .active else s
  | _, _ => s

def execNotBeforeExit (stream : Nat) (s : State) : Host.Outcome State Fault Refusal := s.act (s.notBeforeExit stream)

end Sys2Proof.Machine
end

