-- ==== Sys2Proof/Machine/Verath.lean ====
section
/-! DEFINITION. The Verath link layer (R338 to R366, R371, R373): port states, flits, credits, replay, live changes,
transit and tide markers. -/

namespace Sys2Proof.Machine

/-! ### Port states (R353 to R356) -/

/-- Store a port; a change of its state reaches the census (R369). -/
def State.portTo (s : State) (p : Nat) (x : Port) : State :=
  if x.st = (s.port p).st then s.setPort p x else (s.setPort p x).portChanged

/-- The last SEQ accepted in order. -/
def Port.lastAccepted (x : Port) : Nat := (x.rxExpect + 65535) % 65536

/-- Replay window in flits (R351, R354). -/
def Port.window (x : Port) : Nat := if x.v1 then 512 else 2048

/-- Something the port sends in a LINK flit. -/
def State.linkOut (s : State) (p : Nat) (what : String) (body : List Nat) : State :=
  { s with out := s.out ++ [Out.link p what body] }

/-- The protocol version this end declares. -/
def State.ownVersion (s : State) (p : Nat) : Nat := if s.rd F.VPT_CFG_MODE p = 2 then 1 else 2

/-- Both INITs exchanged: the port is UP with fresh sequence numbers and the partner's credits. -/
def State.portUp (s : State) (p : Nat) (m : InitMsg) : State :=
  let x := s.port p
  let v1 := m.version == 1 || s.rd F.VPT_CFG_MODE p == 2
  let s1 := s.portTo p { Port.reset with
    st := .up, initSent := true, initGot := some m, v1 := v1, width := x.width, lanes := x.lanes, half := v1
    lock := x.lock, credits := [nth m.bufs 0, nth m.bufs 1, nth m.bufs 2], echoTx := x.echoTx, echoRx := x.echoRx }
  let s2 := s1.event 0x14 p 0
  if v1 then s2.event 0x14 p 7 else s2

/-- INIT_RECEIVE. -/
def State.initReceive (s : State) (p : Nat) (m : InitMsg) : State :=
  let x := s.port p
  if x.st ≠ .training then s
  else if x.initSent then s.portUp p m
  else s.setPort p { x with initGot := some m }

def execInitReceive (port : Nat) (m : InitMsg) (s : State) : Host.Outcome State Fault Refusal :=
  s.act (if port < 48 then s.initReceive port m else s)

/-- LINK_TRAINING_DONE: the trained lanes hold lock, and the INIT is sent (R346, R353). DEDUCED, log entry 93. -/
def State.trainingDone (s : State) (p : Nat) : State :=
  let x := s.port p
  if x.st ≠ .training then s
  else
    let v := s.ownVersion p
    let s1 := (s.linkOut p "INIT" [v, s.ownNode, s.fuses.serial, 64, 2048, 256, if v = 1 then 512 else 2048,
      s.rd F.VPT_CFG_ROLE p, p]).setPort p { x with initSent := true, lock := x.lock ||| x.lanes }
    match x.initGot with
    | some m => s1.portUp p m
    | none => s1

def execLinkTrainingDone (port : Nat) (s : State) : Host.Outcome State Fault Refusal :=
  s.act (if port < 48 then s.trainingDone port else s)

/-- A port begins training at its present width; nothing of the old connection is kept. -/
def State.toTraining (s : State) (p : Nat) : State :=
  let x := s.port p
  s.portTo p { Port.reset with st := .training, width := x.width, lanes := x.lanes, half := x.half, lock := x.lock }

/-! ### Losing a link (R197, R202, R357) -/

/-- Count the stalled time so far; `stop` ends the stall. DEDUCED, log entry 98. -/
def State.stallTime (s : State) (p : Nat) (stop : Bool) : State :=
  match (s.port p).stalled with
  | some t => (s.setPort p { s.port p with stalled := if stop then none else some (s.siteNow (portNode p)) }).bump F.VPT_STALL_NS p 0
      (s.siteNow (portNode p) - t)
  | none => s

/-- Send ABORT for a forwarded transfer over any remaining route to its destination (R357). -/
def State.abortTransit (s : State) (p : Nat) (t : Transit) : State :=
  match ((s.route t.inPort t.hdr.destNode).getD []).find? fun q => q != p && s.portOpen q with
  | some q => s.queueFlit q (newFlit 4 (msgVc msgAbort) 0 false (msgPayload t.hdr.destNode s.ownNode msgAbort
      (s.rd F.VPT_TRANSIT_TTL 48) (leBytes 2 t.hdr.srcNode ++ leBytes 1 t.hdr.ferry ++ leBytes 2 t.hdr.xferSeq)))
  | none => s

/-- Forwarded transfers that use a port, to or from. -/
def State.transitsOf (s : State) (p : Nat) : List (Nat × Transit) :=
  s.ports.flatMap fun (e : Nat × Port) => (e.2.transit.filter fun t => e.1 == p || t.inPort == p).map fun t => (e.1, t)

/-- Two transits carry parts of one transfer. -/
def Transit.same (a b : Transit) : Bool :=
  a.hdr.srcNode == b.hdr.srcNode && a.hdr.ferry == b.hdr.ferry && a.hdr.xferSeq == b.hdr.xferSeq

/-- Drop a broken transfer's channels and waiting flits on every port. -/
def State.dropTransit (s : State) (t : Transit) : State :=
  s.ports.foldl (fun (u : State) (e : Nat × Port) =>
    let x := u.port e.1
    let mine := (x.transit.filter fun y => y.same t).map Transit.chan
    if mine.isEmpty then u
    else u.setPort e.1 { x with
      transit := x.transit.filter fun y => !y.same t
      txQueue := x.txQueue.filter fun f => !((f.type == 2 || f.type == 3) && mine.contains f.chan) }) s

/-- Break off the transfers forwarded through a port. -/
def State.breakTransits (s : State) (p : Nat) : State :=
  (s.transitsOf p).foldl (fun (u : State) (e : Nat × Transit) =>
    if (u.transitsOf p).any fun f => f.2.same e.2 then (u.dropTransit e.2).abortTransit p e.2 else u) s

/-- Ferries whose bond includes a port enter ROUTE_DOWN. -/
def State.downFerries (s : State) (p : Nat) : State :=
  (List.range 128).foldl (fun (t : State) n =>
    if t.rd F.FRY_CFG_MESH n = 0 ∧ (t.bond n).contains p then t.routeDown n else t) s

/-- FILLING entries fed through a port are completed. -/
def State.stopFed (s : State) (p : Nat) : State :=
  s.landings.foldl (fun (t : State) (l : Nat × Landing) =>
    l.2.entries.foldl (fun (u : State) (e : Nat × LEntry) =>
      if e.2.st = .filling ∧ e.2.feeds.contains p then u.stopEntry l.1 e.1 else u) t) s

/-- What a link that goes down, is disabled or restarts from SEQ 0 does to everything that used it.
DEDUCED, log entry 92. -/
def State.linkLost (s : State) (p : Nat) : State :=
  let s1 := ((s.downFerries p).stopFed p).breakTransits p
  if s.rd F.TID_CFG_UP_PORT = p then s1.upLost else s1

/-- The port leaves its connection for a state. -/
def State.portGone (s : State) (p : Nat) (st : PortSt) : State :=
  let x := s.port p
  let gone : Port := { Port.reset with st := st, width := x.width, lanes := x.lanes, half := x.half, lock := x.lock,
                                       transit := x.transit }
  let s1 := ((s.stallTime p true).portTo p gone).linkLost p
  s1.setPort p { s1.port p with transit := [] }

/-- Entering DOWN (R357). -/
def State.portDown (s : State) (p : Nat) : State :=
  (((s.bump F.VPT_LOST_COUNT p 0 (s.port p).replay.length).bump F.VPT_DOWNS_COUNT p).event 0x14 p 1).portGone p .down

/-- No active lane holds lock. -/
def Port.lockLost (x : Port) : Bool := x.lock &&& x.lanes == 0

/-- PORT_DOWN_TIMEOUT: lock that returns in the same tick wins. -/
def State.downTimeout (s : State) (p : Nat) (lockSame : Bool) : State :=
  let x := s.port p
  match x.st with
  | .up => if x.lockLost && !lockSame then s.portDown p else s
  | .training => if lockSame then s else s.portDown p
  | .paused => if lockSame then s else s.portDown p
  | _ => s

def execPortDownTimeout (port : Nat) (lockSame : Bool) (s : State) : Host.Outcome State Fault Refusal :=
  s.act (if port < 48 then s.downTimeout port lockSame else s)

/-- PORT_ENABLE. -/
def State.portEnable (s : State) (p : Nat) : State :=
  let s1 := s.wr F.VPT_CTRL_ENABLE p 0 1
  if (s.port p).st = .disabled then s1.toTraining p else s1

def execPortEnable (port : Nat) (s : State) : Host.Outcome State Fault Refusal :=
  s.act (if port < 48 then s.portEnable port else s)

/-- PORT_DISABLE. -/
def State.portDisable (s : State) (p : Nat) : State :=
  let s1 := s.wr F.VPT_CTRL_ENABLE p 0 0
  if (s.port p).st = .disabled then s1 else s1.portGone p .disabled

def execPortDisable (port : Nat) (s : State) : Host.Outcome State Fault Refusal :=
  s.act (if port < 48 then s.portDisable port else s)

/-- PORT_RETRAIN: an UP or DOWN port trains anew. -/
def State.portRetrain (s : State) (p : Nat) : State :=
  match (s.port p).st with
  | .up => s.portGone p .training
  | .down => s.toTraining p
  | _ => s

def execPortRetrain (port : Nat) (s : State) : Host.Outcome State Fault Refusal :=
  s.act (if port < 48 then s.portRetrain port else s)

/-! ### Live changes (R358 to R361) -/

/-- The lane sets of a width, lowest-numbered first. -/
def laneSets (width : Nat) : List Nat :=
  if width = 8 then [0xFF] else if width = 4 then [0x0F, 0xF0] else [0x03, 0x0C, 0x30, 0xC0]

/-- Every lane of a set holds lock. -/
def Port.locked (x : Port) (set : Nat) : Bool := x.lock &&& set == set

/-- The set a width uses: the lowest-numbered whose lanes all hold lock. -/
def Port.laneSet (x : Port) (width : Nat) : Nat :=
  ((laneSets width).find? x.locked).getD (nth (laneSets width) 0)

/-- Send PAUSE and enter PAUSED for a change to a target. DEDUCED, log entry 91. -/
def State.sendPause (s : State) (p : Nat) (t : LinkTarget) : State :=
  let x := s.port p
  ((s.linkOut p "PAUSE" [t.width, t.lanes, t.half.toNat]).portTo p { x with
    st := .paused, pauseSent := true, target := t, resumeSent := false, resumeGot := false, overruled := false }).event 0x14 p 2

/-- PORT_RECONFIG: a Verath-1 port keeps HALF. -/
def State.portReconfig (s : State) (p : Nat) : State :=
  let x := s.port p
  let w := s.rd F.VPT_TARGET_WIDTH p
  if x.st = .up then s.sendPause p ⟨w, x.laneSet w, x.v1 || s.rd F.VPT_TARGET_HALF p == 1⟩ else s

def execPortReconfig (port : Nat) (s : State) : Host.Outcome State Fault Refusal :=
  s.act (if port < 48 then s.portReconfig port else s)

/-- LANE_LOCK_LOSS: with AUTO_NARROW an active lane that loses lock starts a change to the widest legal set that holds. -/
def State.laneLoss (s : State) (p lane : Nat) : State :=
  let x := { s.port p with lock := maskOf ((setBitsOf (s.port p).lock 8).filter (· != lane)) }
  let s1 := s.setPort p x
  if s.rd F.VPT_CFG_AUTO_NARROW p = 1 ∧ x.st = .up ∧ x.lanes / 2 ^ lane % 2 = 1 then
    match ([8, 4, 2].flatMap fun w => (laneSets w).map fun l => (w, l)).find? fun t => x.locked t.2 with
    | some (w, l) => (s1.sendPause p ⟨w, l, x.half⟩).event 0x14 p 4
    | none => s1
  else s1

def execLaneLockLoss (port lane : Nat) (s : State) : Host.Outcome State Fault Refusal :=
  s.act (if port < 48 ∧ lane < 8 then s.laneLoss port lane else s)

/-- LOCK_RETURN: a DOWN port trains; an UP port that had lost lock retrains and resumes as it was. -/
def State.lockReturn (s : State) (p lanes : Nat) : State :=
  let x := s.port p
  let s1 := s.setPort p { x with lock := lanes % 256 }
  match x.st with
  | .down => if s.rd F.VPT_CTRL_ENABLE p = 1 then s1.toTraining p else s1
  | .up => if x.lockLost then s1.sendPause p ⟨x.width, x.lanes, x.half⟩ else s1
  | _ => s1

def execLockReturn (port lanes : Nat) (s : State) : Host.Outcome State Fault Refusal :=
  s.act (if port < 48 then s.lockReturn port lanes else s)

/-- This end's target applies over the partner's (R360). DEDUCED, log entry 99. -/
def State.ownTarget (s : State) (p : Nat) : Bool :=
  match (s.port p).initGot with
  | some m =>
    if s.ownNode ≠ m.node then decide (s.ownNode < m.node) else decide (s.fuses.serial < m.serial)
  | none => true

/-- PAUSE_RECEIVE: answer and stop, or settle two targets. -/
def State.pauseReceive (s : State) (p : Nat) (t0 : LinkTarget) : State :=
  let x := s.port p
  let t := { t0 with half := t0.half || x.v1 }
  match x.st with
  | .up => s.sendPause p t
  | .paused =>
    if t = x.target ∨ s.ownTarget p then s
    else (s.setPort p { x with target := t, overruled := true }).event 0x14 p 2
  | _ => s

def execPauseReceive (port : Nat) (t : LinkTarget) (s : State) : Host.Outcome State Fault Refusal :=
  s.act (if port < 48 then s.pauseReceive port t else s)

/-- RESUME exchanged: the port is UP again at its target; a change of speed has the round trip measured again. -/
def State.resumeCheck (s : State) (p : Nat) : State :=
  let x := s.port p
  if x.resumeSent && x.resumeGot then
    (s.portTo p { x with st := .up, pauseSent := false, resumeSent := false, resumeGot := false }).event 0x14 p 3
  else s

/-- RETRAIN_DONE. -/
def State.retrainDone (s : State) (p : Nat) : State :=
  let x := s.port p
  if x.st ≠ .paused then s
  else
    let t := x.target
    ((s.linkOut p "RESUME" [x.lastAccepted]).setPort p { x with
      width := t.width, lanes := t.lanes, half := t.half, lock := x.lock ||| t.lanes, resumeSent := true
      remeasure := if t.half = x.half then x.remeasure else 2 }).resumeCheck p

def execRetrainDone (port : Nat) (s : State) : Host.Outcome State Fault Refusal :=
  s.act (if port < 48 then s.retrainDone port else s)

/-! ### Acknowledgement and replay (R348 to R352) -/

/-- Apply an ACK: flits up to it leave the replay buffer. -/
def State.applyAck (s : State) (p a : Nat) : State :=
  let x := s.port p
  let keep := x.replay.filter fun f => !atOrAfter 16 a f.seq
  let s1 := s.setPort p { x with
    replay := keep, acked := if keep.length < x.replay.length then a else x.acked
    txPos := if keep.length < x.replay.length ∧ atOrAfter 16 a x.txPos then (a + 1) % 65536 else x.txPos }
  if keep.length < x.window then s1.stallTime p true else s1

/-- Replay from a SEQ on, unless it lies after the next flit to be sent (R350); flits already freed are not sent again. -/
def State.replayFrom (s : State) (p a : Nat) : State :=
  let x := s.port p
  if atOrAfter 16 x.txPos a then
    match x.replay with
    | f :: _ => s.setPort p { x with txPos := if atOrAfter 16 a f.seq then a else f.seq }
    | [] => s
  else s

/-- RESUME_RECEIVE. -/
def State.resumeReceive (s : State) (p last : Nat) : State :=
  if (s.port p).st ≠ .paused then s
  else
    let s1 := (s.applyAck p last).replayFrom p ((last + 1) % 65536)
    (s1.setPort p { s1.port p with resumeGot := true }).resumeCheck p

def execResumeReceive (port lastSeq : Nat) (s : State) : Host.Outcome State Fault Refusal :=
  s.act (if port < 48 then s.resumeReceive port (lastSeq % 65536) else s)

/-- REPLAY_TIMEOUT. -/
def State.replayTimeout (s : State) (p : Nat) : State :=
  match (s.port p).st, (s.port p).replay with
  | .up, f :: _ => (s.setPort p { s.port p with txPos := f.seq }).bump F.VPT_REPLAY_TO_COUNT p
  | _, _ => s

def execReplayTimeout (port : Nat) (s : State) : Host.Outcome State Fault Refusal :=
  s.act (if port < 48 then s.replayTimeout port else s)

/-- Fill the link fields of an outgoing flit and send it (R343, R347, R351). -/
def State.transmit (s : State) (p : Nat) (nak : Bool) (f : Flit) : State :=
  let x := s.port p
  let ackv := x.v1 || x.ackDue
  let g := { f with ack := x.lastAccepted, ackv := ackv, nak := nak, cvc := x.cvc, credits := nth x.freed x.cvc % 256 }
  { s with out := s.out ++ [Out.flit p g] }.setPort p { x with
    cvc := (x.cvc + 1) % 3, reported := setNth x.reported x.cvc (nth x.freed x.cvc)
    ackDue := x.ackDue && !ackv, sinceAck := if ackv then 0 else x.sinceAck }

/-- A LINK flit. -/
def State.linkFlit (s : State) (p : Nat) (nak : Bool) : State := s.transmit p nak (newFlit 1 0 0 false [])

/-- Send NAK with the last accepted SEQ. -/
def State.sendNak (s : State) (p : Nat) : State :=
  ((s.setPort p { s.port p with nakSent := true }).linkFlit p true).bump F.VPT_NAK_COUNT p

/-- A flit discarded: the first after an accepted one is answered with NAK (R349). DEDUCED, log entry 94. -/
def State.discardFlit (s : State) (p : Nat) : State := if (s.port p).nakSent then s else s.sendNak p

/-- NAK_REPEAT_TIMEOUT. -/
def execNakRepeatTimeout (port : Nat) (s : State) : Host.Outcome State Fault Refusal :=
  s.act (if port < 48 ∧ (s.port port).st = .up ∧ (s.port port).nakSent then s.sendNak port else s)

/-- The ferry whose flits a channel below 128 carries, or the forwarded transfer. -/
def State.flitClass (s : State) (f : Flit) : Nat :=
  if f.chan < 128 then s.classOf (s.rd F.FRY_CFG_CTX f.chan) else s.rd F.VPT_TRANSIT_CLASS 48

/-- The arrival port of a transit flit. -/
def Port.arrival (x : Port) (f : Flit) : Option Nat :=
  if f.chan < 128 then none else (x.transit.find? fun t => t.chan == f.chan).map Transit.inPort

/-- A request flit's class is held on its port, or in the mesh that a transit flit crosses. -/
def State.flitHeld (s : State) (p : Nat) (f : Flit) : Bool :=
  f.vc == 1 && (s.tollHeld (s.flitClass f) 4 p ||
    match (s.port p).arrival f with
    | some q => s.tollHeld (s.flitClass f) 3 (portNode q)
    | none => false)

/-- The next new flit: control before response before request, with a credit, its class not held (R171, R346). -/
def State.nextFlit (s : State) (p : Nat) : Option Flit :=
  let x := s.port p
  [0, 2, 1].findSome? fun vc =>
    if nth x.credits vc = 0 then none else x.txQueue.find? fun f => f.vc == vc && !s.flitHeld p f

/-- Ferries whose flits wait for a toll show TOLL_WAIT (R195). -/
def State.waitTolls (s : State) (p : Nat) : State :=
  (s.port p).txQueue.foldl (fun (t : State) f =>
    if f.chan < 128 ∧ f.vc = 1 ∧ t.flitHeld p f ∧ (t.ferry f.chan).st = .sending then
      t.setFerry f.chan { t.ferry f.chan with st := .tollWait } else t) s

/-- Charge the first transmission of a flit. DEDUCED, log entry 97. -/
def State.chargeFlit (s : State) (p : Nat) (f : Flit) : State :=
  if f.vc ≠ 1 then s
  else
    let c := s.flitClass f
    let s0 := s.charge c 4 p 1
    let s1 := if f.chan < 128 then s0.bump F.FRY_SENT_COUNT f.chan else s0
    match (s.port p).arrival f with
    | some q => s1.charge c 3 (portNode q) 1
    | none => if (s1.ferry f.chan).st = .tollWait then s1.setFerry f.chan { s1.ferry f.chan with st := .sending } else s1

/-- Send a new flit for the first time: it takes a credit and the next SEQ, and stays in the replay buffer. -/
def State.sendNew (s : State) (p : Nat) (f : Flit) : State :=
  let s1 := s.chargeFlit p f
  let x := s1.port p
  let g := { f with seq := x.txNext }
  (s1.setPort p { x with
    txQueue := x.txQueue.erase f, replay := x.replay ++ [g], txNext := (x.txNext + 1) % 65536
    txPos := (x.txNext + 1) % 65536, credits := setNth x.credits f.vc (nth x.credits f.vc - 1)
    transit := if f.last then x.transit.filter fun t => !(t.closed && t.chan == f.chan) else x.transit }).transmit p false g

/-- Start or go on with a stall (R352). -/
def State.stall (s : State) (p : Nat) : State :=
  if (s.port p).stalled.isSome then s.stallTime p false
  else (s.setPort p { s.port p with stalled := some (s.siteNow (portNode p)) }).event 0x14 p 5

/-- FLIT_TRANSMISSION: a replay, else a new flit, else LINK or IDLE.  In DEEP the port sends no sequenced flit (R440). -/
def State.flitSlot (s : State) (p : Nat) : State :=
  let x := s.port p
  let idle := fun (t : State) => if x.ackDue then t.linkFlit p false else t.transmit p false (newFlit 0 0 0 false [])
  if x.st ≠ .up then s
  else if s.power.st = .deep then s.linkFlit p false
  else if x.txPos ≠ x.txNext then
    match x.replay.find? fun f => f.seq == x.txPos with
    | some f => ((s.setPort p { x with txPos := (x.txPos + 1) % 65536 }).transmit p false f).bump F.VPT_REPLAY_COUNT p
    | none => idle s
  else
    let s1 := s.waitTolls p
    match s1.nextFlit p with
    | none => idle s1
    | some f => if x.window ≤ x.replay.length then idle (s1.stall p) else s1.sendNew p f

def execFlitTransmission (port : Nat) (s : State) : Host.Outcome State Fault Refusal :=
  s.act (if port < 48 then s.flitSlot port else s)

/-- ACK_HOLD_EXPIRE: the next flit carries the ACK; with none to send a LINK flit does. -/
def State.ackHold (s : State) (p : Nat) : State :=
  let x := s.port p
  if x.st ≠ .up ∨ x.sinceAck = 0 then s
  else
    let s1 := s.setPort p { x with ackDue := true }
    if x.txPos = x.txNext ∧ (s.nextFlit p).isNone then s1.linkFlit p false else s1

def execAckHoldExpire (port : Nat) (s : State) : Host.Outcome State Fault Refusal :=
  s.act (if port < 48 then s.ackHold port else s)

/-- CREDIT_REPORT: a LINK flit reports a VC that is 128 ahead of its last report. -/
def State.creditReport (s : State) (p vc : Nat) : State :=
  let x := s.port p
  if x.st = .up ∧ nth x.reported vc + 128 ≤ nth x.freed vc then (s.setPort p { x with cvc := vc }).linkFlit p false else s

def execCreditReport (port vc : Nat) (s : State) : Host.Outcome State Fault Refusal :=
  s.act (if port < 48 ∧ vc < 3 then s.creditReport port vc else s)

/-! ### Routing and transit (R364 to R366) -/

/-- Every port of a bond may carry transit traffic. -/
def State.transitPorts (s : State) (b : List Nat) : Bool :=
  b.all fun q => decide (s.rd F.VPT_CFG_ROLE q ≤ 1) && !(s.port q).v1

/-- TRANSIT_FORWARD: `idx` is the arrival port's place in the arriving bond.  The header waits for a free channel.
DEDUCED, log entry 96. -/
def State.transitForward (s : State) (p chan idx : Nat) (h : FerryHdr) : State :=
  if h.destNode = s.ownNode then s
  else match s.route p h.destNode with
    | none => s.noRoute p
    | some b =>
      if (s.port p).v1 ∨ b.length ≠ h.ports ∨ !s.transitPorts b then s.noRoute p
      else
        let q := nth b idx
        let x := s.port q
        match ((List.range 128).map (· + 128)).find? fun c => !(x.transit.any fun t => t.chan == c) with
        | none => s
        | some c =>
          let last := decide (ceilDiv (h.dataBytes + h.scaleBytes) 240 ≤ idx)
          if b.length ≤ idx ∨ !s.portOpen q then s
          else (s.setPort q { x with transit := x.transit ++ [⟨c, p, chan, h, last⟩] }).queueFlit q
            (newFlit 2 1 c last (hdrBytes h))

def execTransitForward (port chan idx : Nat) (h : FerryHdr) (s : State) : Host.Outcome State Fault Refusal :=
  s.act (if port < 48 then s.transitForward port chan idx h else s)

/-- A payload flit of a forwarded transfer goes on. -/
def State.transitData (s : State) (p : Nat) (f : Flit) : State :=
  s.ports.foldl (fun (u : State) (e : Nat × Port) =>
    let x := u.port e.1
    match x.transit.find? fun t => t.inPort == p && t.inChan == f.chan && !t.closed with
    | some t =>
      let mark := fun (y : Transit) => if y.chan = t.chan then { y with closed := f.last } else y
      (u.setPort e.1 { x with transit := x.transit.map mark }).queueFlit e.1 (newFlit 3 1 t.chan f.last f.payload)
    | none => u) s

/-- A message for another node: one hop less, by the arrival port's table. -/
def State.routeMsg (s : State) (p : Nat) (f : Flit) : State :=
  let dest := leNat (f.payload.take 2)
  let ttl := leNat ((f.payload.drop 5).take 1)
  if dest = 0xFFFF ∨ dest = s.ownNode then s
  else if ttl ≤ 1 then s.bump F.VPT_TTL_DROP_COUNT p
  else match s.route p dest with
    | some (q :: b) =>
      if (s.port p).v1 ∨ !s.transitPorts (q :: b) then s.noRoute p
      else s.queueFlit q (newFlit 4 f.vc 0 false (f.payload.take 5 ++ leBytes 1 (ttl - 1) ++ f.payload.drop 6))
    | _ => s.noRoute p

/-- ABORT_RECEIVE: the landing's entry of the named transfer is completed as stopped. -/
def State.abortReceive (s : State) (srcNode ferry xferSeq : Nat) : State :=
  s.landings.foldl (fun (t : State) (l : Nat × Landing) =>
    l.2.entries.foldl (fun (u : State) (e : Nat × LEntry) =>
      if e.2.st = .filling ∧ e.2.hdr.srcNode = srcNode ∧ e.2.hdr.ferry = ferry ∧ e.2.hdr.xferSeq = xferSeq then
        u.stopEntry l.1 e.1 else u) t) s

def execAbortReceive (srcNode ferry xferSeq : Nat) (s : State) : Host.Outcome State Fault Refusal :=
  s.act (s.abortReceive srcNode ferry xferSeq)

/-! ### Receiving (R342, R343, R347 to R350) -/

/-- Apply the credit and acknowledgement fields of a good flit. -/
def State.linkFields (s : State) (p : Nat) (f : Flit) : State :=
  let x := s.port p
  let more := (f.credits + 256 - nth x.lastSeen f.cvc % 256) % 256
  let s1 := if f.cvc < 3 then s.setPort p { x with
      credits := setNth x.credits f.cvc (nth x.credits f.cvc + more), lastSeen := setNth x.lastSeen f.cvc f.credits } else s
  let s2 := if f.ackv then s1.applyAck p f.ack else s1
  if f.nak then s2.replayFrom p ((f.ack + 1) % 65536) else s2

/-- Accept the expected flit; its receive slot is freed at once. -/
def State.accept (s : State) (p : Nat) (f : Flit) : State :=
  let x := s.port p
  let s1 := s.setPort p { x with
    rxExpect := (x.rxExpect + 1) % 65536, freed := setNth x.freed f.vc ((nth x.freed f.vc + 1) % 2 ^ 32)
    sinceAck := x.sinceAck + 1, ackDue := x.ackDue || decide (64 ≤ x.sinceAck + 1), nakSent := false }
  if f.type = 3 then s1.transitData p f else if f.type = 4 then s1.routeMsg p f else s1

/-- FLIT_RECEIVE. -/
def State.flitReceive (s : State) (p : Nat) (f : Flit) (fx : RxFx) : State :=
  let s1 := (s.bump F.VPT_FEC_CORR_COUNT p 0 fx.corrected).bump F.VPT_FEC_UNCORR_COUNT p 0 fx.uncorr
  if !s.portOpen p then s
  else if !fx.crcOk ∨ fx.uncorr ≠ 0 ∨ 5 < f.type then (s1.bump F.VPT_CRC_ERR_COUNT p).discardFlit p
  else
    let s2 := s1.linkFields p f
    if f.type < 2 ∨ f.type = 5 then s2
    else if f.seq = (s2.port p).rxExpect then s2.accept p f
    else s2.discardFlit p

def execFlitReceive (port : Nat) (f : Flit) (fx : RxFx) (s : State) : Host.Outcome State Fault Refusal :=
  s.act (if port < 48 then s.flitReceive port f fx else s)

/-! ### Tide markers (R160, R362, R363) -/

/-- TIDE_MARKER_SEND. -/
def State.markerSend (s : State) (p : Nat) : State :=
  let x := s.port p
  if x.st ≠ .up then s
  else s.transmit p false (newFlit 5 0 0 false
    (leBytes 8 (s.siteNow (portNode p)) ++ leBytes 2 s.tide.hops ++ leBytes 6 0 ++ leBytes 8 x.echoTx ++ leBytes 8 x.echoRx))

def execTideMarkerSend (port : Nat) (s : State) : Host.Outcome State Fault Refusal :=
  s.act (if port < 48 then s.markerSend port else s)

/-- A valid marker of the tide-upstream port is a source value. -/
def State.upMarker (s : State) (m : TideMarker) (t4 : Nat) : State :=
  let d : Int := (m.tTx : Int) + (s.tide.linkDelay : Nat) - (t4 : Nat)
  let s1 := { s with tide := { s.tide with upOff := d, upHops := m.hops + 1 } }
  if !s1.upValid then s1
  else if s.tide.st = .upstream ∨ (s.tide.st = .qualify ∧ s.tide.prev = .upstream) then
    { s1 with tide := { s1.tide with hops := m.hops + 1 } }.tideAdjust d
  else s1.qualify false

/-- TIDE_MARKER_RECEIVE: `t4` is the local time of arrival. DEDUCED, log entry 95. -/
def State.markerReceive (s : State) (p : Nat) (m : TideMarker) (t4 : Nat) : State :=
  let x := s.port p
  let rtt := code 32 ((t4 : Int) - m.echoTx - ((m.tTx : Int) - m.echoRx))
  let valid := decide (m.hops < 510)
  let s1 := s.setPort p { x with
    echoTx := m.tTx, echoRx := t4, markers := if valid then x.markers + 1 else 0, remeasure := x.remeasure - 1 }
  let s2 := if x.remeasure ≤ 1 then s1.wr F.VPT_RTT_NS p 0 rtt else s1
  if s.rd F.TID_CFG_UP_PORT ≠ p then s2
  else
    let s3 := { s2 with tide := { s2.tide with linkDelay := s2.rd F.VPT_RTT_NS p / 2 % 65536 } }
    if valid then s3.upMarker m t4 else s3.unqualify false

def execTideMarkerReceive (port : Nat) (m : TideMarker) (t4 : Nat) (crcOk : Bool) (s : State) :
    Host.Outcome State Fault Refusal :=
  s.act (if port < 48 ∧ crcOk ∧ s.portOpen port then s.markerReceive port m t4 else s)

end Sys2Proof.Machine
end

