-- ==== Sys2Proof/Machine/Views.lean ====
section
/-! DEFINITION. Register pages as a reader sees them (R449 to R452, R456): which pages exist, the common header, and the
read-only fields that show the state of a unit. -/

namespace Sys2Proof.Machine

/-! ### Pages (R449 to R453) -/

/-- Size of a block type's instance range. -/
def pageCount (block : Nat) : Nat :=
  match block with
  | 0x00 => 1024 | 0x01 => 1024 | 0x02 => 64 | 0x03 => 1024 | 0x04 => 64 | 0x05 => 64 | 0x06 => 64 | 0x07 => 64
  | 0x08 => 65 | 0x09 => 128 | 0x0A => 64 | 0x0B => 16 | 0x0C => 16 | 0x0D => 16 | 0x0E => 1024 | 0x0F => 25
  | 0x10 => 1 | 0x11 => 24 | 0x12 => 4 | 0x13 => 16 | 0x14 => 49 | 0x15 => 1 | 0x16 => 65 | 0x17 => 64 | 0x18 => 1
  | 0x19 => 1 | 0x1A => 5 | 0x1B => 2 | 0x1C => 1 | 0x1D => 1 | 0x1E => 1 | 0x1F => 1
  | _ => 0

/-- The page exists (R451). -/
def pageExists (block inst : Nat) : Bool :=
  decide (inst < pageCount block) &&
    !((block == 0x00 || block == 0x01) && isHub (inst / 16)) &&
    !(block == 0x0E && isHub (inst / 16) && inst != 432) &&
    !((block == 0x02 || block == 0x06 || block == 0x07 || block == 0x08) && (inst == 28 || inst == 35 || inst == 36))

/-- PG_CTRL acts on the pages of the block type (R453). -/
def ctrlEffect (block : Nat) : Bool :=
  block == 0x02 || block == 0x03 || block == 0x09 || block == 0x0A || block == 0x0C || block == 0x0E || block == 0x0F ||
    block == 0x10

/-- The page belongs to a unit that a mapped-out site withdraws (R35, R451). -/
def withdrawn (block : Nat) : Bool :=
  block == 0x00 || block == 0x01 || block == 0x02 || block == 0x03 || block == 0x04 || block == 0x06 || block == 0x07 ||
    block == 0x0E

def State.pageOos (s : State) (block inst : Nat) : Bool := withdrawn block && s.outOfService (pageSite block inst)

/-- Work in progress of a unit that PG_CTRL acts on. -/
def State.unitBusy (s : State) (block inst : Nat) : Bool :=
  let issuing := fun (pred : Nat → Bool) => s.streams.any fun (e : Nat × Stream) => pred e.1 && !e.2.issued.isEmpty
  match block with
  | 0x02 => issuing fun id => pilotOf (id / 256) == inst
  | 0x03 => issuing fun id => id / 16 == inst
  | 0x09 => (s.ferry inst).queue.any (·.started)
  | 0x0A => (s.landing inst).entries.any fun (e : Nat × LEntry) => e.2.st == .filling
  | 0x0C => !(s.stage inst).runs.isEmpty
  | 0x0F => (s.engineQ (engineKey (.opt inst))).cur.isSome
  | 0x10 => s.ckpt.st == .quiesced || s.ckpt.st == .background || s.ckpt.st == .restoring
  | _ => false

/-- Put values into the fields of a word. -/
def putFields (w : Word) (fs : List (FieldRef × Nat)) : Word := fs.foldl (fun u f => setFld u f.1 f.2) w

/-- The common header (R452). -/
def State.header' (s : State) (block inst off : Nat) : Word :=
  match off with
  | 0x00 => BitVec.ofNat 64 (block + inst * 2 ^ 6 + 2 ^ 16 + pageSite block inst * 2 ^ 24)
  | 0x08 => BitVec.ofNat 64 (pageCount block + (ctrlEffect block).toNat * 2 ^ 11)
  | 0x10 => if s.pageOos block inst then setBits (s.reg (regKey block inst 0x10)) 1 1 0 else s.reg (regKey block inst 0x10)
  | 0x18 => BitVec.ofNat 64 ((s.quiesced block inst && !s.unitBusy block inst).toNat + (s.pageOos block inst).toNat * 2)
  | _ => s.reg (regKey block inst off)

/-! ### Views of units -/

/-- Codes of the states that registers show. -/
def StreamSt.code : StreamSt → Nat
  | .idle => 0 | .running => 1 | .waiting => 2 | .held => 3 | .timeout => 4 | .stopped => 5 | .done => 6 | .faulted => 7
def FerrySt.code : FerrySt → Nat
  | .disabled => 0 | .idle => 1 | .sending => 2 | .creditWait => 3 | .tollWait => 4 | .routeDown => 5
def VetoSt.code : VetoSt → Nat
  | .opened => 0 | .closed => 1 | .clear => 2 | .veto => 3 | .held => 4
def BankSt.code : BankSt → Nat
  | .on => 0 | .retention => 1 | .off => 2
def CkpSt.code : CkpSt → Nat
  | .idle => 0 | .quiesced => 1 | .background => 2 | .done => 3 | .error => 4 | .restoring => 5
def TideSt.code : TideSt → Nat
  | .slack => 0 | .qualify => 1 | .ref => 2 | .upstream => 3
def CensusSt.code : CensusSt → Nat
  | .idle => 0 | .running => 1 | .done => 2 | .failed => 3
def CtxSt.code : CtxSt → Nat
  | .free => 0 | .armed => 1 | .tearing => 2 | .torn => 3

/-- TC page (R110). -/
def State.tcView (s : State) (core off : Nat) (w : Word) : Word :=
  if off = 0x48 then
    let c := s.core core
    putFields w [(F.TC_STATE_INFLIGHT, c.inflight.length), (F.TC_STATE_HOLD_CAUSE, c.hold),
      (F.TC_STATE_RESIDENT, maskOf ((List.range 16).filter fun i => c.tables.any fun (e : Nat × UTable) => e.1 == 0x10 + i))]
  else w

/-- STR page (R152): the parameters of the selected stream, and the streams' positions and states. -/
def State.strView (s : State) (inst off idx : Nat) (w : Word) : Word :=
  if 0x80 ≤ off ∧ off < 0x180 then
    let st := s.stream (16 * inst + s.rd F.STR_PSEL_STREAM inst)
    if off < 0x100 then st.params.getD ((off - 0x80) / 8) 0 else st.strides.getD ((off - 0x100) / 8) 0
  else if off < 0x200 then w
  else
    let id := 16 * inst + idx
    let st := s.stream id
    match (off - 0x200) % 0x80 with
    | 0x28 => putFields w [(F.STR_POS_ISSUE, st.issueIdx), (F.STR_POS_RETIRE, st.retireIdx), (F.STR_POS_REPLAY, st.replay % 2 ^ 32)]
    | 0x30 => putFields w [(F.STR_STATUS_STATE, st.st.code), (F.STR_STATUS_WAITS, s.shownWaits st),
        (F.STR_STATUS_NB, (s.beforeNB id).toNat), (F.STR_STATUS_GATE, (st.gateReg && !st.gateMet).toNat)]
    | 0x38 => BitVec.ofNat 64 st.retired
    | 0x40 => BitVec.ofNat 64 st.lastRetire
    | 0x58 => setFld w F.STR_CREC_LEN_WIDX st.crecIdx
    | _ => w

/-- BOL page (R154). -/
def State.bolView (s : State) (inst off idx : Nat) (w : Word) : Word :=
  if 0x800 ≤ off then
    let b := s.bollard (256 * inst + idx)
    let n := (s.waiters.filter fun x => x.bollard == 256 * inst + idx).length
    BitVec.ofNat 64 (b.count.toNat + b.owner * 2 ^ 32 + b.err.toNat * 2 ^ 38 + min n 255 * 2 ^ 40)
  else w

/-- TID page (R180). -/
def State.tidView (s : State) (off : Nat) (w : Word) : Word :=
  let t := s.tide
  match off with
  | 0x40 => BitVec.ofNat 64 t.count
  | 0x48 => putFields w [(F.TID_STATUS_STATE, t.st.code),
      (F.TID_STATUS_SLACK, (t.st == .slack || (t.st == .qualify && t.prev == .slack)).toNat),
      (F.TID_STATUS_SLEWING, (t.slew != 0).toNat), (F.TID_STATUS_HOPS, t.hops)]
  | 0x60 => BitVec.ofNat 64 t.linkDelay
  | 0x68 => BitVec.ofInt 64 t.offset
  | 0x80 => BitVec.ofNat 64 s.xnum
  | _ => w

/-- TOL_PEEK (R182): an HBM instance is a partition, whose regulators' counters are added. DEDUCED, log entry 74. -/
def State.tolView (s : State) (inst off : Nat) (w : Word) : Word :=
  if off = 0x98 ∧ inst < 64 then
    let r := s.rd F.TOL_PEEK_SEL_RESOURCE inst
    let i := s.rd F.TOL_PEEK_SEL_INSTANCE inst
    BitVec.ofInt 64 (if r = 1 then ((s.partStacks i).map fun k => s.counter inst 1 (32 * i + k)).sum else s.counter inst r i)
  else w

/-- FRY page (R227). -/
def State.fryView (s : State) (n off : Nat) (w : Word) : Word :=
  let f := s.ferry n
  match off with
  | 0x68 => setFld w F.FRY_CREDIT_AVAIL f.credits.length
  | 0x70 => putFields w [(F.FRY_STATUS_STATE, f.st.code), (F.FRY_STATUS_QUEUED, f.queue.length), (F.FRY_STATUS_XFER_SEQ, f.xferSeq)]
  | _ => w

/-- LND page (R229). -/
def State.lndView (s : State) (l off : Nat) (w : Word) : Word :=
  let x := s.landing l
  let n := fun (st : EntrySt) => (x.entries.filter fun (e : Nat × LEntry) => e.2.st == st).length
  match off with
  | 0x70 => putFields w [(F.LND_STATUS_FREE, s.rd F.LND_CFG_ENTRIES l - x.entries.length), (F.LND_STATUS_FILLING, n .filling),
      (F.LND_STATUS_READY, n .ready), (F.LND_STATUS_TAKEN, n .taken)]
  | 0x78 => putFields w [(F.LND_LAST_FWD_MB, x.lastFwd), (F.LND_LAST_BWD_MB, x.lastBwd)]
  | _ => w

/-- MOR page (R231). -/
def State.morView (s : State) (inst off idx : Nat) (w : Word) : Word :=
  if off = 0x40 + 0x20 * idx ∧ idx < 8 then
    putFields w [(F.MOR_STATUS_COUNT, (s.mooring (8 * inst + idx)).count), (F.MOR_STATUS_LIVE, (s.mooring (8 * inst + idx)).live.toNat)]
  else w

/-- DEF page (R233). -/
def State.defView (s : State) (g off : Nat) (w : Word) : Word :=
  if off = 0x58 then
    let x := s.stage g
    putFields w [(F.DEF_STATUS_DEPTH, x.queue.length),
      (F.DEF_STATUS_FILLING, (x.runs.any fun (r : DefRun) => r.flags % 2 == 1).toNat),
      (F.DEF_STATUS_DRAINING, x.draining.toNat)]
  else w

/-- PON pages (R262, R264). -/
def State.ponView (s : State) (p off idx : Nat) (w : Word) : Word :=
  if p = 432 then
    if off = 0x68 + 0x40 * idx then
      let v := s.veto idx
      putFields w [(F.PON_VETO_STATUS_STEP, v.step), (F.PON_VETO_STATUS_STATE, v.st.code), (F.PON_VETO_STATUS_LATE, v.late.toNat),
        (F.PON_VETO_STATUS_LATE_RESULT, v.lateResult.toNat), (F.PON_VETO_STATUS_LATE_VETO, v.lateVeto.toNat),
        (F.PON_VETO_STATUS_AFTER_CLOSE, v.afterClose.toNat), (F.PON_VETO_STATUS_COUNT_MISMATCH, v.mismatch.toNat),
        (F.PON_VETO_STATUS_CHILDREN_IN, v.ups.length)]
    else w
  else
    let x := s.pontoon p
    let expect := s.rd F.PON_CFG_EXPECT p
    match off with
    | 0x68 =>
      let cur := x.entry (x.next % s.ponDepth p)
      putFields w [(F.PON_STATUS_NEXT_ROUND, x.next),
        (F.PON_STATUS_READY, (x.entries.filter fun (e : Nat × PEntry) => decide (expect ≤ e.2.applied.length)).length),
        (F.PON_STATUS_COLLECTING, (x.entries.filter fun (e : Nat × PEntry) => decide (e.2.applied.length < expect)).length),
        (F.PON_STATUS_APPLIED, if cur.round = x.next then cur.applied.length else 0)]
    | 0x70 => BitVec.ofNat 64 x.lastTake
    | _ => w

/-- SRM page (R299): the banks' current states; NAP holds every ON bank in RETENTION, DEEP every bank OFF
(R440, R444). -/
def State.srmView (s : State) (site off idx : Nat) (w : Word) : Word :=
  if off < 0x80 then
    (List.range 32).foldl (fun u b =>
      let st := (s.bank (site * 256 + 32 * idx + b)).st
      setBits u (2 * b) 2 (if s.power.st == .deep then 2 else if s.power.st == .nap && st == .on then 1 else st.code)) 0
  else if off = 0xC8 then setFld w F.SRM_SECURE_WIPE_BUSY s.wiping.toNat
  else w

/-- HBM page (R301). -/
def State.hbmView (s : State) (k off : Nat) (w : Word) : Word :=
  let x := s.stack k
  match off with
  | 0x48 => putFields w [(F.HBM_STATUS_TEMP, code 8 x.temp), (F.HBM_STATUS_THERM, if x.crit then 3 else x.level),
      (F.HBM_STATUS_REFRESH, x.refresh)]
  | 0x58 => setFld w F.HBM_LANES_LEFT (min 255 (Config.redundantLanes - s.rd F.HBM_LANES_USED k))
  | 0x78 =>
    match x.req with
    | p :: _ => putFields 0 [(F.HBM_RETIRE_REQ_PAGE, p), (F.HBM_RETIRE_REQ_VALID, 1)]
    | [] => 0
  | 0x88 => Sparse.get (fun _ => (0 : Word)) x.table (s.rd F.HBM_RETIRE_SEL_ENTRY k)
  | _ => w

/-- OPT pages (R334, R335). -/
def State.optView (s : State) (u off : Nat) (w : Word) : Word :=
  let g := Sparse.get (fun _ => 0) s.gnorm (s.rd F.OPT_GSEL_CTX 24)
  if u = 24 then
    if off = 0x48 then BitVec.ofNat 64 g else if off = 0x50 then BitVec.ofNat 64 (g / 2 ^ 64 % 2 ^ 32) else w
  else if off = 0x48 then
    let q := s.engineQ (engineKey (.opt u))
    let act := match q.cur with
      | some d => mSubop d.words % 3 + 1
      | none => 0
    putFields w [(F.OPT_STATUS_QUEUED, q.entries.length), (F.OPT_STATUS_ACTIVE, act),
      (F.OPT_STATUS_HELD, (s.optHeld.any fun (h : Nat × Delivered) => h.1 / 64 == u).toNat)]
  else w

/-- CKP page (R336). -/
def State.ckpView (s : State) (off : Nat) (w : Word) : Word :=
  if off = 0x78 then
    putFields w [(F.CKP_STATUS_STATE, s.ckpt.st.code), (F.CKP_STATUS_REASON, s.ckpt.reason),
      (F.CKP_STATUS_CHUNKS_LEFT, (s.ckpt.chunks.filter fun c => c.st != 2).length)]
  else w

/-- VPT pages (R371, R372). -/
def State.vptView (s : State) (p off : Nat) (w : Word) : Word :=
  if p = 48 then
    if off = 0x60 then
      let c := s.census
      putFields w [(F.VPT_CENSUS_EPOCH, c.epoch), (F.VPT_CENSUS_STATE, c.st.code), (F.VPT_CENSUS_RESTARTS, c.restarts),
        (F.VPT_CENSUS_COUNT, c.count)]
    else w
  else
    let x := s.port p
    match off with
    | 0x58 =>
      let node := match x.initGot with
        | some m => (m.node, m.port)
        | none => (0xFFFF, 0)
      putFields w [(F.VPT_STATUS_STATE, x.st.code), (F.VPT_STATUS_V1, x.v1.toNat), (F.VPT_STATUS_WIDTH, x.width),
        (F.VPT_STATUS_HALF, x.half.toNat), (F.VPT_STATUS_OVERRULED, x.overruled.toNat), (F.VPT_STATUS_LANES, x.lanes),
        (F.VPT_STATUS_LOCK, x.lock), (F.VPT_STATUS_PARTNER_NODE, node.1), (F.VPT_STATUS_PARTNER_PORT, node.2)]
    | 0x70 => putFields w [(F.VPT_SEQ_TX_NEXT, x.txNext), (F.VPT_SEQ_ACKED, x.acked), (F.VPT_SEQ_RX_EXPECT, x.rxExpect),
        (F.VPT_SEQ_UNACKED, x.replay.length)]
    | _ => w

/-- CPX pages (R396). -/
def State.cpxView (s : State) (d off : Nat) (w : Word) : Word :=
  if d = 4 then (if off = 0x40 then setFld w F.CPX_MODE_HOSTMODE s.pins.attached.toNat else w)
  else if off = 0x58 then
    putFields w [(F.CPX_STATUS_DIRTY, (s.dieDirty d).toNat), (F.CPX_STATUS_FLUSHING, (s.flushing.contains d).toNat)]
  else w

/-- CTX pages (R424). -/
def State.ctxView (s : State) (c off : Nat) (w : Word) : Word :=
  let x := s.ctx c
  match off with
  | 0x48 => putFields w [(F.CTX_STATE_STATE, x.st.code), (F.CTX_STATE_KEY_SET, x.keySet.toNat), (F.CTX_STATE_GEN, x.gen)]
  | 0xA0 => BitVec.ofNat 64 x.lastRetire
  | 0xA8 => BitVec.ofNat 64 x.retired
  | 0xB8 => setFld w F.CTX_ERREC_LEN_WIDX x.errecIdx
  | _ => w

/-- RST page (R426). -/
def State.rstView (s : State) (off : Nat) (w : Word) : Word :=
  let x := s.rd F.RST_SEL_SITE
  let why := Sparse.get (fun _ => 0) s.resets.mapped x
  let out := (List.range 64).filter s.outOfService
  match off with
  | 0x90 => BitVec.ofNat 64 s.resets.age
  | 0x98 => BitVec.ofNat 64 (maskOf out)
  | 0xA0 => BitVec.ofNat 64 s.sitesInService.length
  | 0xB0 => putFields w [(F.RST_SITE_INFO_IN_WINDOW, min (s.siteInWindow x) 255), (F.RST_SITE_INFO_MAPPED, (s.outOfService x).toNat),
      (F.RST_SITE_INFO_REASON, why)]
  | 0xB8 => putFields w [(F.RST_MOD_INFO_IN_WINDOW, min s.modInWindow 255), (F.RST_MOD_INFO_OOS, s.resets.oos.toNat)]
  | _ => w

/-- TRC pages (R428). -/
def State.trcView (s : State) (site off : Nat) (w : Word) : Word :=
  let b := s.traceBuf site
  if off = 0x48 then putFields w [(F.TRC_WIDX_WIDX, b.widx), (F.TRC_WIDX_WRAPPED, b.wrapped.toNat)]
  else if 0x60 ≤ off ∧ off < 0x80 then
    let i := s.rd F.TRC_RSEL_INDEX site
    match ((List.range b.recs.length).zip b.recs).find? fun r => b.place r.1 == i with
    | some r => r.2.getD ((off - 0x60) / 8) 0
    | none => 0
  else w

/-- PWR page (R446). -/
def State.pwrView (s : State) (off : Nat) (w : Word) : Word :=
  let p := s.power
  match off with
  | 0x80 => putFields w [(F.PWR_STATE_STATE, p.st.rank), (F.PWR_STATE_TARGET, p.target.rank), (F.PWR_STATE_TRANSITION, p.transition.toNat)]
  | 0x90 => putFields w [(F.PWR_MEAS_INPUT_W, code 16 p.pm), (F.PWR_MEAS_BALLAST_W, code 16 p.pb), (F.PWR_MEAS_TARGET_W, code 16 p.tgt),
      (F.PWR_MEAS_PRED_TJ, code 16 p.predTj)]
  | 0xA0 => putFields w [(F.PWR_EXITLAT_NAP_US, s.exitUs .nap), (F.PWR_EXITLAT_DEEP_US, s.exitUs .deep)]
  | _ => w

/-- SEC, LCS, FUS and LOG pages (R468, R486 to R489). -/
def State.secView (s : State) (off : Nat) (w : Word) : Word :=
  let b := s.boot
  match off with
  | 0x40 => putFields w [(F.SEC_BOOT_STEP, b.step), (F.SEC_BOOT_IMAGE, b.image), (F.SEC_BOOT_FALLBACK, b.fallback.toNat),
      (F.SEC_BOOT_VERSION, b.version)]
  | 0x60 => BitVec.ofNat 64 ((s.log.ofType 7).length % 2 ^ 48)
  | 0x80 => putFields w [(F.SEC_FWUP_STATUS_STATE, b.fwup), (F.SEC_FWUP_STATUS_REASON, b.fwReason), (F.SEC_FWUP_STATUS_TARGET, b.fwTarget)]
  | _ => w

def State.lcsView (s : State) (off : Nat) (w : Word) : Word :=
  let b := s.boot
  match off with
  | 0x40 => putFields w [(F.LCS_STATE_STATE, s.fuses.lifecycle), (F.LCS_STATE_BUSY, b.lcsBusy.isSome.toNat)]
  | 0x48 => BitVec.ofNat 64 b.nonce
  | 0x60 => setFld w F.LCS_RESULT_CODE b.lcsResult
  | _ => w

def State.fusView (s : State) (off : Nat) (w : Word) : Word :=
  let f := s.fuses
  match off with
  | 0x40 => putFields w [(F.FUS_IDENT_PART, 0x6048), (F.FUS_IDENT_STEPPING, f.stepping), (F.FUS_IDENT_FAMILY, 1)]
  | 0x48 => setFld w F.FUS_SERIAL_SERIAL f.serial
  | 0x50 => BitVec.ofNat 64 f.good
  | 0x100 => setFld w F.FUS_LOCK_DEBUG_LOCK f.debugLock.toNat
  | 0x108 => setFld w F.FUS_ROLLBACK_MIN f.rollback
  | 0x110 => setFld w F.FUS_KEYSET_PROGRAMMED
      (maskOf ((List.range 3).filter fun i => f.hashes.any fun (e : Nat × List Byte) => e.1 == i + 1))
  | 0x128 => putFields w [(F.FUS_PROG_STATUS_BUSY, s.boot.prog.isSome.toNat), (F.FUS_PROG_STATUS_RESULT, s.boot.progResult)]
  | _ => w

def State.logView (s : State) (off : Nat) (w : Word) : Word :=
  let l := s.log
  let es := l.blocks.map fun (b : Nat × LogBlock) => b.2.erases
  match off with
  | 0x40 => putFields w [(F.LOG_STATUS_READY, l.ready.toNat), (F.LOG_STATUS_SCANNED, l.scanned.toNat), (F.LOG_STATUS_GC, 0),
      (F.LOG_STATUS_FREE, l.freeBlocks)]
  | 0x48 => BitVec.ofNat 64 l.seq
  | 0x50 => putFields w [(F.LOG_WEAR_MAX, es.foldl max 0),
      (F.LOG_WEAR_MIN, if es.length < 1022 then 0 else es.foldl min (es.headD 0))]
  | _ => w

/-- A stored word with the fields that show the state of the page's unit. -/
def State.view (s : State) (block inst off idx : Nat) (w : Word) : Word :=
  match block with
  | 0x00 => s.tcView inst off w
  | 0x02 =>
    if off = 0x58 then setFld w F.PIL_STORE_USED (min 4096 (s.storeUsed inst))
    else if off = 0x60 then setFld w F.PIL_POOL_FREE (2048 - s.poolUsed inst) else w
  | 0x03 => s.strView inst off idx w
  | 0x04 => s.bolView inst off idx w
  | 0x06 => s.srmView inst off idx w
  | 0x07 => s.trcView inst off w
  | 0x09 => s.fryView inst off w
  | 0x0A => s.lndView inst off w
  | 0x0B => s.morView inst off idx w
  | 0x0C => s.defView inst off w
  | 0x0D => if off = 0x48 then setFld w F.PHT_LEN_WIDX (s.stage inst).phtIdx else w
  | 0x0E => s.ponView inst off idx w
  | 0x0F => s.optView inst off w
  | 0x10 => s.ckpView off w
  | 0x11 => s.hbmView inst off w
  | 0x13 => if off = 0x58 then BitVec.ofNat 64 ((s.partStacks inst).length * s.rd F.PRT_RANGE_SIZE inst * 2 ^ 20) else w
  | 0x14 => s.vptView inst off w
  | 0x15 => s.tidView off w
  | 0x16 => s.tolView inst off w
  | 0x17 => s.ctxView inst off w
  | 0x18 => s.rstView off w
  | 0x19 => s.pwrView off w
  | 0x1A => s.cpxView inst off w
  | 0x1B => if off = 0x50 then setFld w F.PCI_STATUS_ROOT (!s.pins.attached).toNat else w
  | 0x1C => s.secView off w
  | 0x1D => s.lcsView off w
  | 0x1E => s.fusView off w
  | 0x1F => s.logView off w
  | _ => w

/-- What a read of an existing page's offset returns; an offset that no register occupies reads zero (R456). -/
def State.readReg (s : State) (block inst off : Nat) : Word :=
  if off < 0x40 then s.header' block inst off
  else match findReg block inst off with
    | some (_, idx) => s.view block inst off idx (s.reg (regKey block inst off))
    | none => 0

end Sys2Proof.Machine
end

