-- ==== Sys2Proof/Machine/RegAccess.lean ====
section
/-! DEFINITION. Register accesses (R449 to R463): every write reaches the operation its register stands for, every read
shows the unit; the commands of the common header, the host ports, the back door and the sideband. -/

namespace Sys2Proof.Machine

/-- Apply a change where a bit of a written word is set; several command bits of one write of any register but STR_CTRL are
taken in bit order (DEDUCED, log entry 36). -/
def whenBit (v : Word) (i : Nat) (f : State → State) (s : State) : State := if bit v i then f s else s

/-! ### The common header (R452 to R454, R462) -/

/-- A W1C write of PG_EVENT; `setSame` are bits the unit sets in the same clock, which stay set and raise a further MSI. -/
def State.clearEvents (s : State) (block inst : Nat) (v setSame : Word) : State :=
  let old := s.reg (regKey block inst 0x20)
  let en := s.reg (regKey block inst 0x28)
  let new := (old &&& ~~~v) ||| setSame
  let s1 := s.setReg (regKey block inst 0x20) new
  if (setSame &&& v ≠ 0 ∨ old &&& en = 0) ∧ new &&& en ≠ 0 then s1.sendMsi block inst else s1

def execPgEventClear (block inst : Nat) (v setSame : Word) (s : State) : Host.Outcome State Fault Refusal :=
  s.act (if pageExists block inst then s.clearEvents block inst v setSame else s)

/-- Writing 1 to PG_CLAMPED.CLAMPED; a clamped write of offset `same` in the same clock prevails. -/
def State.clearClamped (s : State) (block inst : Nat) (v : Word) (same : Option Nat) : State :=
  let s1 := if bit v 63 then s.setReg (regKey block inst 0x30) 0 else s
  match same with
  | some off => s1.clampedMark block inst off
  | none => s1

def execPgClampedClear (block inst : Nat) (v : Word) (clampSame : Option Nat) (s : State) : Host.Outcome State Fault Refusal :=
  s.act (if pageExists block inst then s.clearClamped block inst v clampSame else s)

/-- A write of PG_CTRL, ignored where it has no effect and on a withdrawn page. -/
def State.writeCtrl (s : State) (block inst : Nat) (v : Word) : State :=
  if ctrlEffect block && !s.pageOos block inst then s.setReg (regKey block inst 0x10) (v &&& 3) else s

def execPgQuiesce (block inst : Nat) (v : Word) (s : State) : Host.Outcome State Fault Refusal :=
  s.act (if pageExists block inst then s.writeCtrl block inst v else s)

/-- PG_RESUME: QUIESCE cleared with ENABLE set. -/
def execPgResume (block inst : Nat) (s : State) : Host.Outcome State Fault Refusal :=
  s.act (if pageExists block inst then s.writeCtrl block inst 2 else s)

/-- A write of a common-header register. -/
def State.writeHeader (s : State) (block inst off : Nat) (v : Word) : State :=
  match off with
  | 0x10 => s.writeCtrl block inst v
  | 0x20 => s.clearEvents block inst v 0
  | 0x28 => s.setEvents block inst (s.reg (regKey block inst 0x20)) v
  | 0x30 => s.clearClamped block inst v none
  | 0x38 => s.setReg (regKey block inst 0x38) v
  | _ => s

/-! ### PCIe ports (R465 to R467) -/

/-- PCI_RETRAIN: the link enters recovery and trains at the limits of PCI_CFG. DEDUCED, log entry 118. -/
def State.pciRetrain (s : State) (p : Nat) : State :=
  let s1 := s.bump F.PCI_RECOVERY_COUNT p
  { s1 with out := s1.out ++ [.ctrl 27 "PCI_RETRAIN" [p, s.rd F.PCI_CFG_MAX_SPEED p, s.rd F.PCI_CFG_MAX_WIDTH p]] }

def execPciRetrain (port : Nat) (s : State) : Host.Outcome State Fault Refusal :=
  s.act (if port < 2 then s.pciRetrain port else s)

/-- PCI_HOT_RESET, below a root port only. -/
def State.pciHotReset (s : State) (p : Nat) : State :=
  if s.pins.attached then s else { s with out := s.out ++ [.hotReset p] }

def execPciHotReset (port : Nat) (s : State) : Host.Outcome State Fault Refusal :=
  s.act (if port < 2 then s.pciHotReset port else s)

/-- Errors that a port has noted (R466, R467). -/
def State.pciErrors (s : State) (p ce ue : Nat) : State :=
  let s1 := (s.bump F.PCI_CE_COUNT p 0 ce).bump F.PCI_UE_COUNT p 0 ue
  if ue = 0 then s1 else s1.event 0x1B p 2

/-- PCIE_LINK_CHANGE. -/
def State.linkChange (s : State) (p : Nat) (up : Bool) (speed width : Nat) (flit : Bool) : State :=
  let was := s.rd F.PCI_STATUS_LINK_UP p
  let s1 := (((s.wr F.PCI_STATUS_LINK_UP p 0 up.toNat).wr F.PCI_STATUS_SPEED p 0 (if up then speed else 0)).wr
    F.PCI_STATUS_WIDTH p 0 (if up then width else 0)).wr F.PCI_STATUS_FLIT p 0 (up && flit).toNat
  let s2 := if up ∧ was = 0 then s1.event 0x1B p 0 else if !up ∧ was = 1 then s1.event 0x1B p 1 else s1
  if up ∧ (speed < s.rd F.PCI_CFG_MAX_SPEED p ∨ width < s.rd F.PCI_CFG_MAX_WIDTH p) then s2.event 0x1B p 3 else s2

/-- `ce` and `ue` are the errors that the port has noted since its last change. -/
def execPcieLinkChange (port : Nat) (up : Bool) (speed width : Nat) (flit : Bool) (s : State) (ce : Nat := 0) (ue : Nat := 0) :
    Host.Outcome State Fault Refusal :=
  s.act (if port < 2 then (s.linkChange port up speed width flit).pciErrors port ce ue else s)

/-! ### Jobs of the firmware (R168, R472, R475, R488, R489) -/

/-- The first byte, the length and whether it writes of a job's memory. -/
def State.jobMeter (s : State) : FwJob → Nat × Nat × Bool
  | .token v => (s.rd F.LCS_TOKEN_ADDR * 256, if bit v 8 && s.boot.lcsBusy.isNone then 256 else 0, false)
  | .image => (s.fwupAddr, if s.boot.fwup = 1 then 0 else s.rd F.SEC_FWUP_LEN_BYTES, false)
  | .hash _ => (s.rd F.FUS_HASH_SRC_ADDR * 64, 48, false)
  | .exportLog => (s.rd F.LOG_EXPORT_ADDR * 4096, s.exported.length, true)

/-- Do a job. -/
def State.jobDo (s : State) : FwJob → State
  | .token v => s.lcsGo v
  | .image => s.fwupStart
  | .hash k => s.progHash k
  | .exportLog => s.logExport

/-- A job is charged to class 63; while the class is held in one of its meters the job waits (R168, R171). -/
def State.jobReq (s : State) (j : FwJob) : State :=
  let m := s.jobMeter j
  let secs := sectors m.1 m.2.1
  match s.heldMeter 63 27 (s.meshFlits 27 m.2.2 secs) secs with
  | some res => { s with busQ := s.busQ ++ [BusAcc.job j] }.markHeld 63 res
  | none => ((s.chargeMesh 63 27 (s.meshFlits 27 m.2.2 secs)).chargeSectors 63 secs).jobDo j

/-- FWUP_START. -/
def execFwupStart (s : State) : Host.Outcome State Fault Refusal := s.act (s.jobReq .image)

/-- LCS_GO. -/
def execLcsGo (v : Word) (s : State) : Host.Outcome State Fault Refusal := s.act (s.jobReq (.token v))

/-- FUS_PROG_KEY_HASH. -/
def execFusProgKeyHash (keySel : Nat) (s : State) : Host.Outcome State Fault Refusal := s.act (s.jobReq (.hash keySel))

/-- LOG_EXPORT. -/
def execLogExport (s : State) : Host.Outcome State Fault Refusal := s.mgmtAct (s.jobReq .exportLog)

/-! ### Writes by block (R450) -/

/-- WIN page. -/
def State.writeWin (s : State) (core off : Nat) (v : Word) : State :=
  if off = 0x140 then s.stepWins core (bits v 0 8)
  else if off % 0x20 = 0x18 ∧ off < 0x140 then s.headWrite core ((off - 0x40) / 0x20) v false
  else s.writeField 0x01 core off v

/-- STR_CTRL: a write with several command bits acts as the one of highest precedence (R132). -/
def State.strCtrl (s : State) (id : Nat) (v : Word) : State :=
  match ctrlCommand v with
  | some c => s.strCmd id c false
  | none => s

/-- The next index of a ring whose LEN is written: taken modulo the new length (DESIGN CHOICE, log entry 152). -/
def ringIdx (len i : Nat) : Nat := if len = 0 then i else i % len

/-- STR page. -/
def State.writeStr (s : State) (inst off idx : Nat) (v : Word) : State :=
  if 0x80 ≤ off ∧ off < 0x180 then
    let id := 16 * inst + s.rd F.STR_PSEL_STREAM inst
    let st := s.stream id
    if off < 0x100 then s.paramWrite id ((off - 0x80) / 8) v false
    else s.setStream id { st with strides := setNth st.strides ((off - 0x100) / 8) v }
  else if off < 0x200 then s.writeField 0x03 inst off v
  else
    match (off - 0x200) % 0x80 with
    | 0x00 => s.strCtrl (16 * inst + idx) v
    | 0x20 => s.tailWrite (16 * inst + idx) v
    | 0x58 =>
      let s1 := s.writeField 0x03 inst off v
      let st := s1.stream (16 * inst + idx)
      s1.setStream (16 * inst + idx) { st with crecIdx := ringIdx (s1.str F.STR_CREC_LEN_LEN (16 * inst + idx)) st.crecIdx }
    | _ => s.writeField 0x03 inst off v

/-- PHT_LEN. -/
def State.writePht (s : State) (g off : Nat) (v : Word) : State :=
  let s1 := s.writeField 0x0D g off v
  if off = 0x48 then s1.setStage g { s1.stage g with phtIdx := ringIdx (s1.rd F.PHT_LEN_LEN g) (s1.stage g).phtIdx } else s1

/-- FRY_CTRL. -/
def State.writeFry (s : State) (n : Nat) (v : Word) : State :=
  let s1 := if bit v 0 then s.ferryEnable n else if (s.ferry n).st = .disabled then s.wr F.FRY_CTRL_ENABLE n 0 0 else s.ferryDisable n
  whenBit v 1 (·.ferryFlush n) s1

/-- MOR page: the configuration of a LIVE mooring is kept and sets BUSY (R208). -/
def State.writeMor (s : State) (inst off idx : Nat) (v : Word) : State :=
  let m := 8 * inst + idx
  match (off - 0x40) % 0x20 with
  | 0x08 => if (s.mooring m).live then s.event 0x0B inst 4 else s.writeField 0x0B inst off v
  | 0x10 => if (s.mooring m).live then s else s.writeField 0x0B inst off v
  | 0x18 => whenBit v 1 (·.hostRelease m) (whenBit v 0 (fun t => (t.publish m).2) s)
  | _ => s.writeField 0x0B inst off v

/-- PON pages. -/
def State.writePon (s : State) (p off idx : Nat) (v : Word) : State :=
  if p = 432 then
    match (off - 0x40) % 0x40 with
    | 0x00 => s.vetoJob idx v
    | 0x20 => s.vetoClose idx (bits v 0 32)
    | 0x30 => whenBit v 1 (·.vetoResolve idx true) (whenBit v 0 (·.vetoResolve idx false) s)
    | _ => s.writeField 0x0E p off v
  else if off = 0x40 then whenBit v 1 (·.pontoonReset p) (s.writeField 0x0E p off v)
  else s.writeField 0x0E p off v

/-- Set OFFLINE where it changes. -/
def State.writeOffline (s : State) (ctrl ack delay vref : FieldRef) (inst : Nat) (v : Word) : State :=
  if s.rd ctrl inst = bits v 0 1 then s else s.offline ctrl ack delay vref inst (bit v 0)

/-- HBM page. -/
def State.writeHbm (s : State) (k off : Nat) (v : Word) : State :=
  match off with
  | 0x40 => s.writeOffline F.HBM_CTRL_OFFLINE F.HBM_STATUS_OFFLINE_ACK F.HBM_MARGIN_DELAY F.HBM_MARGIN_VREF k v
  | 0x88 => s.retireWrite k v
  | 0x90 => whenBit v 0 (·.retireCommit k) s
  | 0xB0 => s.marginWrite 0x11 k off F.HBM_STATUS_OFFLINE_ACK F.HBM_MARGIN_RUN v
  | _ => s.writeField 0x11 k off v

/-- TC page: a limit written below the step's count makes the first condition of R79 hold. -/
def State.writeTc (s : State) (core off : Nat) (v : Word) : State :=
  let s1 := s.writeField 0x00 core off v
  if off = 0x50 ∧ s1.rd F.TC_ABSURD_SAT_LIMIT core < s1.rd F.TC_SAT_CNT_COUNT core then s1.setAbsurd core else s1

/-- BLK page. -/
def State.writeBlk (s : State) (c off : Nat) (v : Word) : State :=
  match off with
  | 0x40 => s.writeOffline F.BLK_CTRL_OFFLINE F.BLK_STATUS_OFFLINE_ACK F.BLK_MARGIN_DELAY F.BLK_MARGIN_VREF c v
  | 0xB0 => s.marginWrite 0x12 c off F.BLK_STATUS_OFFLINE_ACK F.BLK_MARGIN_RUN v
  | _ => s.writeField 0x12 c off v

/-- VPT pages. -/
def State.writeVpt (s : State) (p off : Nat) (v : Word) : State :=
  if p < 48 ∧ off = 0x40 then
    whenBit v 2 (·.portRetrain p) (whenBit v 1 (·.portReconfig p) (if bit v 0 then s.portEnable p else s.portDisable p))
  else if p = 48 ∧ off = 0x50 then whenBit v 0 (·.censusBegin 0) s
  else s.writeField 0x14 p off v

/-- A write of a window's BASE word also holds the stored LIMIT within its clamps against the new base and kind, reported on
LIMIT where one had been written (R278; DEDUCED, log entry 134). -/
def State.writeSegBase (s : State) (c off : Nat) (v : Word) : State :=
  let s1 := s.writeField 0x17 c off v
  let k := regKey 0x17 c (off + 8)
  let lim := clampSegLimit (s1.reg k) (s1.reg (regKey 0x17 c off))
  if lim = s1.reg k then s1
  else
    let s2 := s1.setReg k lim
    if s1.reg k = 0 then s2 else s2.clampedMark 0x17 c (off + 8)

/-- CTX page. -/
def State.writeCtx (s : State) (c off : Nat) (v : Word) : State :=
  match off with
  | 0x40 => whenBit v 1 (fun t => t.hubReports c [⟨c, 5, 0x17, c, 0, 0, t.now⟩]) (whenBit v 0 (·.arm c) s)
  | 0x58 => s.stageKey c false v
  | 0x60 => s.stageKey c true v
  | 0xB8 =>
    let s1 := s.writeField 0x17 c off v
    s1.setCtx c { s1.ctx c with errecIdx := ringIdx (s1.rd F.CTX_ERREC_LEN_LEN c) (s1.ctx c).errecIdx }
  | _ => if 0x400 ≤ off ∧ (off - 0x400) % 0x20 = 0 then s.writeSegBase c off v else s.writeField 0x17 c off v

/-- RST page. -/
def State.writeRst (s : State) (off : Nat) (v : Word) : State :=
  match off with
  | 0x40 => whenBit v 1 (·.moduleReset 0x01) (whenBit v 0 (fun t => t.computeReset t.targetSitesOfReset 0x01) s)
  | 0xC0 => s.unmap v
  | 0xC8 => s.oosAck v
  | _ => s.writeField 0x18 0 off v

/-- FUS page. -/
def State.writeFus (s : State) (off : Nat) (v : Word) : State :=
  if off = 0x118 then
    let s1 := whenBit v 0 (fun t => t.program (if t.fuses.lifecycle = 5 then 1 else if t.fuses.debugLock then 2 else 0) (1, 0, [])) s
    let s2 := whenBit v 1 (fun t => t.program (if t.fuses.rollback < t.boot.rollback then 0 else 2) (2, t.boot.rollback, [])) s1
    whenBit v 2 (·.jobReq (.hash (bits v 4 2))) s2
  else s.writeField 0x1E 0 off v

/-- A write of a block register. -/
def State.writeBlock (s : State) (block inst off idx : Nat) (v : Word) : State :=
  match block with
  | 0x00 => s.writeTc inst off v
  | 0x01 => s.writeWin inst off v
  | 0x03 => s.writeStr inst off idx v
  | 0x04 => if 0x800 ≤ off then s.bollardSet (256 * inst + idx) v else s.writeField 0x04 inst off v
  | 0x06 => if off < 0x80 then s.writeBanks inst idx v else s.writeField 0x06 inst off v
  | 0x09 => if off = 0x40 then s.writeFry inst v else s.writeField 0x09 inst off v
  | 0x0A => if off = 0x40 then whenBit v 1 (·.drain inst) (s.writeField 0x0A inst off v) else s.writeField 0x0A inst off v
  | 0x0B => if off < 0x140 then s.writeMor inst off idx v else s.writeField 0x0B inst off v
  | 0x0D => s.writePht inst off v
  | 0x0E => s.writePon inst off idx v
  | 0x10 =>
    if off = 0x40 then whenBit v 1 (·.ckpAbort) (whenBit v 0 (·.ckpStart) s)
    else if off = 0x68 then s.stageIdxWrite v else s.writeField 0x10 0 off v
  | 0x11 => s.writeHbm inst off v
  | 0x12 => s.writeBlk inst off v
  | 0x13 => if off = 0x40 then s.partWrite inst v else s.partField inst off v
  | 0x14 => s.writeVpt inst off v
  | 0x15 => if off = 0x50 then s.writeTidCfg v else if off = 0x70 then s.xingWrite false v else if off = 0x78 then s.xingWrite true v else s.writeField 0x15 0 off v
  | 0x17 => s.writeCtx inst off v
  | 0x18 => s.writeRst off v
  | 0x19 => if off = 0x40 then s.writePwrCfg v else if off = 0x78 then s.writeWake v else s.writeField 0x19 0 off v
  | 0x1A =>
    if inst < 4 ∧ off = 0x40 then s.freqChange inst v
    else if inst < 4 ∧ off = 0x50 then
      whenBit v 0 (fun t => if t.flushing.contains inst then t else { t with flushing := t.flushing ++ [inst] }) s
    else s.writeField 0x1A inst off v
  | 0x1B => if off = 0x40 then whenBit v 1 (·.pciHotReset inst) (whenBit v 0 (·.pciRetrain inst) s) else s.writeField 0x1B inst off v
  | 0x1C =>
    if off = 0x78 then whenBit v 0 (·.jobReq .image) s
    else if off = 0x48 ∧ 3 ≤ s.fuses.lifecycle then s
    else s.writeField 0x1C 0 off v
  | 0x1D => if off = 0x58 then whenBit v 8 (·.jobReq (.token v)) s else s.writeField 0x1D 0 off v
  | 0x1E => s.writeFus off v
  | 0x1F => if off = 0x58 then whenBit v 1 (·.jobReq .exportLog) (whenBit v 0 (·.gc) s) else s.writeField 0x1F 0 off v
  | _ => s.writeField block inst off v

/-- A write of an offset of an existing page: withdrawn pages keep only their header registers writable (R451), and an
offset that no register occupies ignores it (R456). -/
def State.writeReg (s : State) (block inst off : Nat) (v : Word) : State :=
  if off < 0x40 then s.writeHeader block inst off v
  else if s.pageOos block inst then s
  else match findReg block inst off with
    | some (_, idx) => s.writeBlock block inst off idx v
    | none => s

/-! ### Accesses by address (R40, R449, R455, R458) -/

/-- The page and offset of a register-space address: none where the access is a hole. -/
def pageOf (addr : Nat) : Option (Nat × Nat × Nat) :=
  let o := addr - regBase
  let block := o / 0x40_0000
  let inst := o / 0x1000 % 1024
  if regBase ≤ addr ∧ addr < regBase + 0x1000_0000 ∧ addr % 8 = 0 ∧ pageExists block inst then some (block, inst, o % 0x1000)
  else none

/-- Source node of an access. -/
def srcNode : Source → Nat
  | .hart n => dieSite (n / 24)
  | .pcie _ => 27
  | .mgmt => 27
  | .stream n => pilotOf (n / 256)

/-- A completer abort (R385, R455). -/
def State.pciAbort (s : State) (p : Nat) : State :=
  let s1 := s.bump F.PCI_ABORTS_COUNT p
  { s1 with out := s1.out ++ [.abort p] }

/-- A hole access of a source. -/
def State.holeBy (s : State) (src : Source) (addr : Nat) : State :=
  let s1 := s.holeAccess (srcNode src) addr
  match src with
  | .pcie p => s1.pciAbort p
  | _ => s1

/-- The management core and the security engine reach the secure region (R272, R273). -/
def State.mgmtSecure (s : State) (src : Source) (addr : Nat) : Bool := src == .mgmt && s.region addr == .secure

/-- A word of memory as a hart or the management core reaches it: a hart's store that its target refuses is recorded (R377, R380,
R392). -/
def State.memWord (s : State) (src : Source) (addr : Nat) (write : Option Word) : State :=
  match write with
  | some v =>
    let r := s.memWrite (srcNode src) (src == .mgmt) addr (leBytes 8 v.toNat) MemFx.clean
    match src with
    | .hart _ => if r.1 = 1 then r.2.storeFailed addr else r.2
    | _ => r.2
  | none =>
    let r := s.memRead (srcNode src) (src == .mgmt) addr 8 MemFx.clean
    { r.2.2 with out := r.2.2.out ++ [.ctrl (srcNode src) "READ" [addr, leNat r.1]] }

/-- An access that names no register: a word of memory, or a hole (R40); the host's BAR0 reaches register space only (R384). -/
def State.offPage (s : State) (src : Source) (addr : Nat) (write : Option Word) : State :=
  match s.region addr, src with
  | .hole, _ => s.holeBy src addr
  | .regs, _ => s.holeBy src addr
  | _, .pcie _ => s.holeBy src addr
  | _, _ => s.memWord src addr write

/-- A write of a source: a register, or for the management core a word of the secure region, held while a wipe runs (R274). -/
def State.busWrite (s : State) (src : Source) (addr : Nat) (v : Word) : State :=
  match pageOf addr with
  | some (b, i, o) => s.writeReg b i o v
  | none =>
    if s.mgmtSecure src addr then
      (if s.wiping then { s with secHeld := s.secHeld ++ [(addr, some v)] } else s.secureAccess (addr, some v))
    else s.offPage src addr (some v)

/-- Clear the RC fields of a register; `inc` increments of its counter fall in the same clock and follow. -/
def State.rcClear (s : State) (block inst idx : Nat) (r : RegDef) (inc : Nat) : State :=
  let fs := r.fields.filter fun f => f.acc == .rc
  let s1 := fs.foldl (fun (t : State) f => t.wr f.ref inst idx 0) s
  match fs with
  | f :: _ => if block = 0x11 ∧ r.off = 0x78 then s1.setStack inst { s1.stack inst with req := (s1.stack inst).req.drop 1 }
      else s1.bump f.ref inst idx inc
  | [] => s1

/-- A register read: the value and the state after. -/
def State.regRead (s : State) (block inst off inc : Nat) : Word × State :=
  (s.readReg block inst off,
   if off < 0x40 then s
   else match findReg block inst off with
     | some (r, idx) => s.rcClear block inst idx r inc
     | none => s)

/-- A read by a source; the value leaves the block. DEDUCED, log entry 116. -/
def State.busRead (s : State) (src : Source) (addr inc : Nat) : State :=
  match pageOf addr with
  | some (b, i, o) =>
    let r := s.regRead b i o inc
    { r.2 with out := r.2.out ++ [.ctrl (srcNode src) "READ" [addr, r.1.toNat]] }
  | none =>
    if s.mgmtSecure src addr then
      (if s.wiping then { s with secHeld := s.secHeld ++ [(addr, none)] } else s.secureAccess (addr, none))
    else s.offPage src addr none

/-! ### BAR2, the back door, the sideband (R384, R385, R479, R496) -/

/-- A BAR2 access as its target sees it: physical; register space takes only aligned 8-byte accesses (R455).
DESIGN CHOICE, log entry 103; DEDUCED, log entry 117. -/
def State.bar2 (s : State) (p a : Nat) (write : Option (List Byte)) (n : Nat) (fx : MemFx) : State :=
  match s.region a, write with
  | .hole, _ => (s.holeAccess 27 a).pciAbort p
  | .secure, _ => (s.bump F.SRM_SECURE_DENY_COUNT 27).pciAbort p
  | .regs, some bs =>
    if bs.length = 8 then s.busWrite (.pcie p) a (BitVec.ofNat 64 (leNat bs)) else s.holeBy (.pcie p) a
  | .regs, none => if n = 8 then s.busRead (.pcie p) a 0 else s.holeBy (.pcie p) a
  | _, some bs =>
    let t := (s.memWrite 27 false a bs fx).2
    if (s.unsavedChunk a bs.length).isSome then
      t.setCkpt { t.ckpt with held := t.ckpt.held.dropLast ++ (t.ckpt.held.getLast?.toList.map fun h => { h with host := some p }) }
    else t
  | _, none =>
    let r := s.memRead 27 false a n fx
    { r.2.2 with out := r.2.2.out ++ [.ctrl 27 "BAR2" (p :: r.1.map BitVec.toNat)] }

/-- A back-door access: registers and memory, unchecked. -/
def State.tapAccess (s : State) (addr : Nat) (write : Option Word) : State :=
  let tdo := fun (t : State) (v : Nat) => { t with out := t.out ++ [Out.ctrl 27 "TDO" [v]] }
  match pageOf addr, write with
  | some (b, i, o), some v => s.writeReg b i o v
  | some (b, i, o), none => let r := s.regRead b i o 0; tdo r.2 r.1.toNat
  | none, some v => (s.memWrite 27 false addr (leBytes 8 v.toNat) MemFx.clean).2
  | none, none => let r := s.memRead 27 false addr 8 MemFx.clean; tdo r.2.2 (leNat r.1)

/-! ### Class 63 and the dies' classes at the meters (R168, R171, R377, R383) -/

/-- Who sends an access: accesses of one sender keep their order. -/
def BusAcc.sender : BusAcc → Option Source
  | .word src _ _ _ => some src
  | .host p _ _ _ _ => some (.pcie p)
  | .tap _ _ => none
  | .job _ => none
  | .own _ rs _ _ => some (.hart (rs.headD 96))
  | .wback c _ _ => some (.hart c)

/-- Activity class, source node, first byte and length of an access, and whether it writes.  An ownership request of a held line
moves no memory. -/
def State.busMeter (s : State) (x : BusAcc) : Nat × Nat × Nat × Nat × Bool :=
  match x with
  | .word (.hart n) a w _ => (s.dieClass n, dieSite (n / 24), a, 8, w.isSome)
  | .word src a w _ => (63, srcNode src, a, 8, w.isSome)
  | .host _ a (some bs) _ _ => (63, 27, a, bs.length, true)
  | .host _ a none n _ => (63, 27, a, n, false)
  | .tap a w => (63, 27, a, 8, w.isSome)
  | .job _ => (63, 27, 0, 0, false)
  | .own l rs _ _ =>
    let r := (grantOrder (s.slicePtr l) ((rs.filter (· < 97)).dedup)).headD 96
    (s.dieClass r, dieSite (r / 24), 64 * l, if (s.line l).held ∨ 96 ≤ r then 0 else 64, false)
  | .wback c l _ => (s.dieClass c, dieSite (c / 24), 64 * l, if (s.line l).held && (s.line l).owner == c && decide (c < 96) then 64 else 0, true)

/-- Perform an access. -/
def State.busDo (s : State) : BusAcc → State
  | .word src a (some v) _ => s.busWrite src a v
  | .word src a none inc => s.busRead src a inc
  | .host p a w n fx => s.bar2 p a w n fx
  | .tap a w => s.tapAccess a w
  | .job j => s.jobReq j
  | .own l rs wb ev => s.ownership l rs wb ev
  | .wback c l data => s.writeback c l data

/-- An earlier access of the sender stands in its way: it waits at a meter, or, for a write of register space by a host, an earlier
posted write of the port is held at its controller (R383). -/
def State.busBehind (s : State) (x : BusAcc) : Bool :=
  s.busQ.any (fun y => y.sender.isSome && y.sender == x.sender) ||
    match x with
    | .host p a (some _) _ _ => s.region a == .regs && s.ckpt.held.any fun h => h.host == some p
    | _ => false

/-- The access charges its meters when it is performed; a processor die's line accesses and the firmware's jobs charge themselves. -/
def State.busCharge (s : State) (x : BusAcc) : State :=
  match x with
  | .own _ _ _ _ => s
  | .wback _ _ _ => s
  | .job _ => s
  | _ =>
    let m := s.busMeter x
    let secs := sectors m.2.2.1 m.2.2.2.1
    (s.chargeMesh m.1 m.2.1 (s.meshFlits m.2.1 m.2.2.2.2 secs)).chargeSectors m.1 secs

/-- An access arrives at its meters: while its class is held there it waits (R171).  The accesses of a stream have been metered with
its manifest. -/
def State.busReq (s : State) (x : BusAcc) : State :=
  match x with
  | .word (.stream _) _ _ _ => s.busDo x
  | _ =>
    let m := s.busMeter x
    let secs := sectors m.2.2.1 m.2.2.2.1
    if s.busBehind x then { s with busQ := s.busQ ++ [x] }
    else match s.heldMeter m.1 m.2.1 (s.meshFlits m.2.1 m.2.2.2.2 secs) secs with
      | some res => { s with busQ := s.busQ ++ [x] }.markHeld m.1 res
      | none => (s.busCharge x).busDo x

/-- The accesses that wait try their meters again, oldest first. -/
def State.drainBus (s : State) : State := s.busQ.foldl (fun (t : State) x => t.busReq x) { s with busQ := [] }

/-- Rank of a source among the writes of one register in one clock (R459): streams by ID, harts by ID, PCIe ports, the management
core. -/
def sourceRank : Source → Nat
  | .stream n => n
  | .hart n => 2 ^ 16 + n
  | .pcie p => 2 ^ 17 + p
  | .mgmt => 2 ^ 18

/-- Insert a write behind those of its rank or below. -/
def insertByRank (w : Word × Source) : List (Word × Source) → List (Word × Source)
  | [] => [w]
  | x :: xs => if sourceRank w.2 < sourceRank x.2 then w :: x :: xs else x :: insertByRank w xs

/-- REGISTER_WRITE: `same` are writes of the register by other sources in the same clock; the last applied prevails (R459).  While the
module is out of service only the acknowledgement reaches its register (R417). -/
def execRegisterWrite (addr : Nat) (v : Word) (src : Source) (s : State) (same : List (Word × Source) := []) :
    Host.Outcome State Fault Refusal :=
  if s.hold = some .outOfService ∧ pageOf addr = some (0x18, 0, 0xC8) then s.mgmtAct (s.oosAck v)
  else s.act ((same.foldl (fun l w => insertByRank w l) [(v, src)]).foldl (fun (t : State) w =>
    t.busReq (.word w.2 addr (some w.1) 0)) s)

/-- RC_READ. -/
def execRcRead (addr incSame : Nat) (src : Source) (s : State) : Host.Outcome State Fault Refusal :=
  s.act (s.busReq (.word src addr none incSame))

/-- HOST_BAR2_ACCESS: until READY the endpoint answers with a completer abort (R470). -/
def execHostBar2Access (port offset : Nat) (write : Option (List Byte)) (bytes : Nat) (fx : MemFx) (s : State) :
    Host.Outcome State Fault Refusal :=
  s.mgmtAct (if !(s.pins.attached && decide (port < 2) && decide (offset < 2 ^ 36)) then s
    else if s.hold.isSome || s.boot.step != 15 then s.pciAbort port
    else s.busReq (.host port (s.rd F.CPX_APERTURE_BASE 4 * 2 ^ 36 + offset) write bytes fx))

/-- TAP_BACKDOOR: closed, it acts as BYPASS. -/
def State.backdoor (s : State) (addr : Nat) (write : Option Word) : State :=
  if !s.tapOpen then { s with boot := { s.boot with tap := 3 } }
  else { s with boot := { s.boot with tap := 2 } }.busReq (.tap addr write)

def execTapBackdoor (addr : Nat) (write : Option Word) (s : State) : Host.Outcome State Fault Refusal :=
  s.act (s.backdoor addr write)

def execOwnershipRequest (line : Nat) (reqs : List Nat) (wb evict : Option (Nat × List Byte)) (s : State) :
    Host.Outcome State Fault Refusal :=
  s.act (if s.isCoherent (64 * line) then s.busReq (.own line reqs wb evict) else s)

/-- WRITEBACK: `ecc` is how the L2's read of the line went: 1 corrected, 2 uncorrectable. -/
def execWriteback (core line : Nat) (data : List Byte) (s : State) (ecc : Nat := 0) : Host.Outcome State Fault Refusal :=
  s.act (if s.isCoherent (64 * line) then (s.cacheRead core ecc).busReq (.wback core line data) else s)

/-- The sensors: sensor 0 is RST_CAUSE, 1 RST_MOD_INFO, 2 SEC_BOOT, any other the MON register at that offset of page
`inst` (DESIGN CHOICE of the numbering, log entry 37).  A reading of an RC register (MON_DROOP_CNT, MON_PEAK) returns the value
and does not clear it: the model's choice (log entry 37), R496 and R9 leave open whether a sensor reading is a register read. -/
def State.sensor (s : State) (sensor inst : Nat) : Word :=
  match sensor with
  | 0 => s.readReg 0x18 0 0x60
  | 1 => s.readReg 0x18 0 0xB8
  | 2 => s.readReg 0x1C 0 0x40
  | off => if pageExists 0x08 inst then s.readReg 0x08 inst off else 0

/-- MCTP_MESSAGE to the SMBus address `addr`: the module answers at 0x60 + SMBADDR. -/
def execMctpMessage (sensor inst : Nat) (s : State) (addr : Nat := 0x60) : Host.Outcome State Fault Refusal :=
  s.mgmtAct (if addr ≠ 0x60 + s.pins.smbAddr then s else { s with out := s.out ++ [.mctp [sensor, inst, (s.sensor sensor inst).toNat]] })

end Sys2Proof.Machine
end

