-- ==== Sys2Proof/Machine/Crossings.lean ====
section
/-! DEFINITION. The crossing boundary (R167, R170 to R172, R195, R196): counters reload, and what its classes' tolls held goes on. -/

namespace Sys2Proof.Machine

/-- A HELD stream whose head the boundary released runs again (R131, R171). -/
def State.unholdStreams (s : State) : State :=
  s.streams.foldl (fun t e => match e.2.st, e.2.store with
    | .held, d :: _ => if (t.issueHeld e.1 (resolveWords d)).isNone then t.setStream e.1 { e.2 with st := .running } else t
    | _, _ => t) s

/-- The head transfer of a ferry in TOLL_WAIT is held no longer, at a meter or at the regulator of a sector it owes (R195). -/
def State.ferryFree (s : State) (n : Nat) : Bool :=
  match (s.ferry n).queue with
  | [] => true
  | x :: _ =>
    let h := (s.handleOf x.d (opAddr (mOperand x.d.words 0))).getD default
    (s.ferryHeld n h).isNone &&
      (s.heldMeter (s.classOf (s.rd F.FRY_CFG_CTX n)) 27 0 ((s.owedOf x.d).getD [])).isNone

/-- A ferry in TOLL_WAIT whose class the boundary released is SENDING (R196). -/
def State.unholdFerries (s : State) : State :=
  s.ferries.foldl (fun t e =>
    if e.2.st = .tollWait ∧ t.ferryFree e.1 then t.setFerry e.1 { e.2 with st := .sending } else t) s

/-- CROSSING_BOUNDARY: the boundary reached, or passed by a step of the count, is handled once (R167, R172). -/
def State.boundaryStep (s : State) : State :=
  let s1 := s.applyXing
  if s1.tide.lastBoundary < s1.boundary then
    let s2 := s1.reload.drainQueued.drainBus.unholdStreams.unholdFerries
    { s2 with tide := { s2.tide with lastBoundary := s1.boundary } }
  else s1

/-- HELD_WRITE_PROCEED: a write that a chunk held proceeds, and with it the register writes that a host sent after it (R324, R383). -/
def execHeldWriteProceed (s : State) : Host.Outcome State Fault Refusal := s.act s.heldProceed.drainBus

def execCrossingBoundary (s : State) : Host.Outcome State Fault Refusal := s.act s.boundaryStep

end Sys2Proof.Machine
end

