-- ==== Sys2Proof/Machine/MeshOps.lean ====
section
/-! DEFINITION. The mesh (chapter 01): routing with the detour around a FAILED edge, requests at their targets,
responses at their requesters, and the wires' repair, halving and failure. -/

namespace Sys2Proof.Machine

/-! ### Routing (R13, R25, R26, R36) -/

/-- The neighbour in a direction: 0 N to y - 1, 1 E to x + 1, 2 S to y + 1, 3 W to x - 1; none at the boundary. -/
def neighbour (node dir : Nat) : Option Nat :=
  match dir with
  | 0 => if node < 8 then none else some (node - 8)
  | 1 => if node % 8 = 7 then none else some (node + 1)
  | 2 => if 56 ≤ node then none else some (node + 8)
  | _ => if node % 8 = 0 then none else some (node - 1)

def opposite (dir : Nat) : Nat := (dir + 2) % 4

/-- The nearer of 3 and 4. -/
def nearHub (v : Nat) : Nat := if v ≤ 3 then 3 else 4

/-- The hub node through which a sender reaches the hub (R26). -/
def hubEntry (src : Nat) : Nat := 8 * nearHub (src / 8) + nearHub (src % 8)

/-- The node a packet is routed to: a request to the hub goes to the hub node nearest its sender. -/
def packetTarget (p : Packet) : Nat := if isHub p.dest && p.vc == 1 then hubEntry p.src else p.dest

def dirX (node dest : Nat) : Option Nat :=
  if node % 8 < dest % 8 then some 1 else if dest % 8 < node % 8 then some 3 else none

def dirY (node dest : Nat) : Option Nat :=
  if node / 8 < dest / 8 then some 2 else if dest / 8 < node / 8 then some 0 else none

/-- Direction of the next hop: X then Y, or Y then X; none at the destination. -/
def nextDir (yFirst : Bool) (node dest : Nat) : Option Nat :=
  if yFirst then (dirY node dest).or (dirX node dest) else (dirX node dest).or (dirY node dest)

/-- Direction of the detour step at a FAILED edge (R36). -/
def detourDir (node dir : Nat) : Nat :=
  if dir % 2 = 1 then (if node / 8 = 7 then 0 else 2) else (if node % 8 = 7 then 3 else 1)

/-- The escape lanes route Y then X while the module's FAILED edge is a Y edge (R36, R37). DEDUCED, log entry 52. -/
def State.escapeYFirst (s : State) : Bool :=
  match s.failedEdges with
  | (_, d) :: _ => d % 2 == 0
  | [] => false

/-- Direction a packet leaves a node in, and whether it is on the escape lane afterwards. -/
def State.routeDir (s : State) (node : Nat) (p : Packet) : Option (Nat × Bool) :=
  match nextDir (p.escape && s.escapeYFirst) node (packetTarget p) with
  | none => none
  | some d => if s.edgeState node d = 2 then some (detourDir node d, true) else some (d, p.escape)

/-- Put a packet at a node of the mesh, wherever it was. -/
def State.placePacket (s : State) (node : Nat) (p q : Packet) : State :=
  { s.takePacket p with net := (s.takePacket p).net ++ [(node, q)] }

/-- Request flits are charged as MESH at their source node, hub-internal traffic and the other channels are not (R169).
DEDUCED, log entry 47. -/
def packetCharged (p : Packet) (node : Nat) : Bool := p.vc == 1 && node == p.src && !(isHub p.src && isHub p.dest)

/-- MESH_HOP: one hop in dimension order.  A flit with a bad CRC is replayed by the router it leaves, which counts it; a
direction that steers sends nothing, and a held class is kept at its source router.
MSH_CRC_ERR of the sender counts (DEDUCED, log entry 46). -/
def State.meshHop (s : State) (node : Nat) (p : Packet) (crcOk : Bool) : State :=
  let cls := s.classOf p.ctx
  match s.routeDir node p with
  | none => s.placePacket node p p
  | some (d, esc) =>
    match neighbour node d with
    | none => s.placePacket node p p
    | some n =>
      if s.edgeState node d = 2 ∨ (s.edge (n * 4 + opposite d)).steering then s.placePacket node p p
      else if (packetCharged p node) && s.tollHeld cls 3 node then (s.placePacket node p p).markHeld cls 3
      else if !crcOk then (s.placePacket node p p).bump F.MSH_CRC_ERR_COUNT node
      else
        let s1 := if (packetCharged p node) then s.charge cls 3 node (1 + p.len) else s
        s1.placePacket n p { p with escape := esc }

def execMeshHop (node : Nat) (p : Packet) (crcOk : Bool) (s : State) : Host.Outcome State Fault Refusal :=
  s.act (s.meshHop node p crcOk)

/-! ### Requests at their targets (R24, R40, R171, R400, R455) -/

/-- A stale request: counted, dropped, answered with STATUS 3 (R400). -/
def State.staleRequest (s : State) (p : Packet) : State := (s.stale p.ctx).respond p 3 []

/-- A request arrives at its regulators: none while one holds its class, and it stays queued; else the state after the charge (R171).
DEDUCED, log entry 53. -/
def State.arrive (s : State) (p : Packet) (secs : List Nat) : Bool × State :=
  let r := s.admitAll (s.classOf p.ctx) 27 0 secs
  (r.1, if r.1 then r.2.takePacket p else r.2.placePacket (packetTarget p) p p)

/-- Length of a READ: INLINE_LEN, or bytes 0x040 to 0x043; a response carries at most 4,096 bytes.
DEDUCED, log entry 48. -/
def packetReadLen (p : Packet) : Nat := min 4096 (if p.inlineLen ≠ 0 then p.inlineLen else leNat (p.inl.take 4))

/-- MESH_READ. -/
def State.meshRead (s : State) (p : Packet) (fx : MemFx) : State :=
  let n := packetReadLen p
  if p.gen ≠ s.gen p.ctx then (s.takePacket p).staleRequest p
  else
    let a := s.arrive p (sectors p.addr n)
    if !a.1 then a.2
    else match (if n = 8 then pageOf p.addr else none) with
      | some (b, i, o) =>
        let r := a.2.regRead b i o 0
        r.2.respond p 0 (leBytes 8 r.1.toNat)
      | none =>
        let r := a.2.memRead p.src false p.addr n fx
        r.2.2.respond p r.2.1 r.1

def execMeshRead (p : Packet) (fx : MemFx) (s : State) : Host.Outcome State Fault Refusal := s.act (s.meshRead p fx)

/-- The data bytes of a WRITE. -/
def packetPayload (p : Packet) : List Byte := if p.len = 0 then p.inl.take p.inlineLen else p.data

/-- The ticket of a WRITE packet is applied when its data has been delivered (R138): at once, when the write that a
save-ahead holds proceeds, and not at all where the write is discarded (DEDUCED, log entry 130). -/
def State.delivered (s : State) (ticket : Word) (status : Nat) (held : Bool) : State :=
  if held then s.setCkpt { s.ckpt with held := s.ckpt.held.dropLast ++
    (s.ckpt.held.getLast?.toList.map fun h => { h with ticket := ticket }) }
  else if status = 0 then s.ticket ticket else s

/-- MESH_WRITE. -/
def State.meshWrite (s : State) (p : Packet) (fx : MemFx) : State :=
  let bs := packetPayload p
  if p.gen ≠ s.gen p.ctx then (s.takePacket p).staleRequest p
  else
    let a := s.arrive p (sectors p.addr bs.length)
    if !a.1 then a.2
    else match (if bs.length = 8 then pageOf p.addr else none) with
      | some (b, i, o) => ((a.2.writeReg b i o (BitVec.ofNat 64 (leNat bs))).ticket p.ticket).respond p 0 []
      | none =>
        let r := a.2.memWrite p.src false p.addr bs fx
        (r.2.delivered p.ticket r.1 (s.unsavedChunk p.addr bs.length).isSome).respond p r.1 []

def execMeshWrite (p : Packet) (fx : MemFx) (s : State) : Host.Outcome State Fault Refusal := s.act (s.meshWrite p fx)

/-! ### ADD packets (R245) -/

/-- The block of an ADD packet with its format, operation and scale address: mantissas then the scale byte, in the data
flits, or from byte 0x050 where LEN is 0; the scale address in bytes 0x048 to 0x04F (DESIGN CHOICE, log entry 38). -/
def packetFmt (p : Packet) : Nat := (p.inl.getD 0 0).toNat
def packetOp (p : Packet) : Nat := (p.inl.getD 1 0).toNat
def packetScale (p : Packet) : Nat := leNat ((p.inl.drop 8).take 8)
def packetBytes (p : Packet) : List Byte := if p.len = 0 then p.inl.drop 16 else p.data

def packetBlock (p : Packet) : Block :=
  let n := 4 * fmtBits (packetFmt p)
  readRowBlock (fun o => (packetBytes p).getD o 0) (fun _ => (packetBytes p).getD n 0) (packetFmt p) 32 0 (packetOp p == 1)

/-- STATUS of an add from its failed parts. -/
def addStatus (fs : List FailRange) : Nat :=
  match fs with
  | [] => 0
  | f :: _ => if f.2.2 = 2 then 2 else 1

/-- An add that reaches a hole is recorded with the hole's address (R40). -/
def State.addHole (s : State) (node : Nat) (fs : List FailRange) : State :=
  match fs.find? fun f => f.2.2 == 2 with
  | some f => s.holeAccess node f.1
  | none => s

/-- The sectors an add touches. -/
def packetSectors (p : Packet) : List Nat :=
  (sectors p.addr (4 * fmtBits (packetFmt p)) ++ (if (packetFmt p) = 4 then [] else sectors (packetScale p) 1)).dedup

/-- One ADD at its adder.  For a FORMAT or operation code that no table lists the spec states no result: memory is unchanged
and the STATUS is a free value (log entry 24). -/
def State.meshAddOne (s : State) (p : Packet) (fx : MemFx) : State :=
  if p.gen ≠ s.gen p.ctx then (s.takePacket p).staleRequest p
  else if 4 < packetFmt p ∨ 2 < packetOp p then
    { (s.takePacket p).respond p (Config.freeNat s.free % 4) [] with free := s.free + 1 }
  else
    let a := s.arrive p (packetSectors p)
    if !a.1 then a.2
    else
      let r := (a.2.withFx p.addr fx).addBlock (packetOp p) (packetFmt p) p.addr (packetScale p) 32 (packetBlock p)
      ((r.2.settleFx p.addr fx).addHole p.src r.1).respond p (addStatus r.1) []

/-- Insert a packet by source node, after those of the same node. -/
def insertBySrc (p : Packet) : List Packet → List Packet
  | [] => [p]
  | q :: qs => if p.src < q.src then p :: q :: qs else q :: insertBySrc p qs

/-- MESH_ADD.  `same` are further adds, and reads, that reach the adder in the same clock: the adds are applied in ascending
source-node order, then the reads are served (R246). -/
def State.meshAdd (s : State) (p : Packet) (fx : MemFx) (same : List Packet) : State :=
  let adds := (same.filter fun q => q.op == 3).foldl (fun l q => insertBySrc q l) [p]
  let s1 := adds.foldl (fun (t : State) q => t.meshAddOne q (if q = p then fx else MemFx.clean)) s
  (same.filter fun q => q.op == 1).foldl (fun (t : State) q => t.meshRead q MemFx.clean) s1

def execMeshAdd (p : Packet) (fx : MemFx) (s : State) (same : List Packet := []) : Host.Outcome State Fault Refusal :=
  s.act (s.meshAdd p fx same)

/-! ### Responses and control packets (R24, R28, R392, R400) -/

/-- MESH_RESP: a stale response is dropped, STATUS 3 frees the space and is discarded, and a failed response without data
at a hub position belongs to a P-die's store (DEDUCED, log entry 39). -/
def State.meshResp (s : State) (p : Packet) : State :=
  let s0 := s.takePacket p
  if p.status = 3 then s0
  else if p.gen ≠ s.gen p.ctx then s0.stale p.ctx
  else
    let s1 := if isHub p.dest ∧ p.status = 1 ∧ p.len = 0 ∧ p.inlineLen = 0 then s0.storeFailed p.addr else s0
    { s1 with resps := s1.resps ++ [p] }

def execMeshResp (p : Packet) (s : State) : Host.Outcome State Fault Refusal := s.act (s.meshResp p)

/-- MESH_CTRL: the control message is delivered to its unit. -/
def State.meshCtrl (s : State) (p : Packet) : State :=
  let s1 := s.takePacket p
  { s1 with out := s1.out ++ [Out.ctrl p.dest "CTRL" (p.src :: p.inl.map BitVec.toNat)] }

def execMeshCtrl (p : Packet) (s : State) : Host.Outcome State Fault Refusal := s.act (s.meshCtrl p)

/-! ### Wires (R22, R30 to R34, R37, R42) -/

/-- The group of a wire: 0 to 2,047 data, 2,048 to 2,111 the groups' spares, 2,112 to 2,127 check, 2,128 the check
spare; the check wires count as group 64. -/
def wireGroup (w : Nat) : Nat := if w < 2048 then w / 32 else if w < 2112 then w - 2048 else 64

def spareWire (g : Nat) : Nat := if g < 64 then 2048 + g else 2128

def isSpare (w : Nat) : Bool := (decide (2048 ≤ w) && decide (w < 2112)) || w == 2128

/-- Both ends of the edge at a node's direction, each as (node, direction). -/
def edgeEnds (node dir : Nat) : List (Nat × Nat) :=
  match neighbour node dir with
  | some n => [(node, dir), (n, opposite dir)]
  | none => [(node, dir)]

def hubInternal (node dir : Nat) : Bool := (edgeEnds node dir).all fun e => isHub e.1

/-- Record an end's repair map in the log (R31) and the edge event in the trace (R423). DEDUCED, log entry 50. -/
def State.noteEdge (s : State) (ev : Nat) (e : Nat × Nat) : State :=
  let k := e.1 * 4 + e.2
  let w := s.reg (regKey 0x05 e.1 (0x40 + 8 * e.2))
  ((s.event 0x05 e.1 ev).logWords 1 k (edgeBody w (s.edge k))).traceRec (pilotOf e.1) 7 0xFF (0x05 * 1024 + e.1) ev w.toNat e.1

/-- Steer a group onto its spare. -/
def State.steer (s : State) (node dir g : Nat) : State :=
  let k := node * 4 + dir
  let f := edgeFld F.MSH_EDGE_SPARES_USED dir
  let s1 := s.setEdge k { s.edge k with steered := (s.edge k).steered ++ [g], steering := true }
  let s2 := if g < 64 then s1.wr f node 0 (s1.rd f node + 1) else s1
  (edgeEnds node dir).foldl (fun t e => t.noteEdge 0 e) s2

/-- The edge runs on one half (R32). -/
def State.halve (s : State) (node dir live : Nat) : State :=
  let s1 := (edgeEnds node dir).foldl (fun (t : State) e =>
    ((t.wr (edgeFld F.MSH_EDGE_STATE e.2) e.1 0 1).wr (edgeFld F.MSH_EDGE_LIVE_HALF e.2) e.1 0 live).wr
      (edgeFld F.MSH_EDGE_LAT_CLK e.2) e.1 0 13) s
  (edgeEnds node dir).foldl (fun t e => t.noteEdge 1 e) s1

/-- Order of R34 among compute ends: interior before corner before edge. -/
def roleRank (x : Nat) : Nat :=
  let onX := x % 8 == 0 || x % 8 == 7
  let onY := x / 8 == 0 || x / 8 == 7
  if onX && onY then 1 else if onX || onY then 0 else 2

/-- The site a FAILED edge maps out (R34); none between two hub positions. -/
def edgeVictim (a b : Nat) : Option Nat :=
  match isHub a, isHub b with
  | true, true => none
  | true, false => some b
  | false, true => some a
  | false, false =>
    if roleRank a < roleRank b then some b else if roleRank b < roleRank a then some a else some (max a b)

/-- What follows a FAILED edge: the site is mapped out and reset; a second FAILED edge is a module fault.
DEDUCED, log entry 51. -/
def State.afterFailed (s : State) (victim : Option Nat) : State :=
  let s1 := match victim with
    | some x => if s.outOfService x then s else s.mapOut x 2
    | none => s
  if 2 ≤ s.failedEdges.length then s1.moduleReset 0x11
  else match victim with
    | some x => if s.outOfService x then s1 else s1.computeReset [x] 0x10
    | none => s1

/-- The edge fails (R33, R34, R37). -/
def State.failEdge (s : State) (node dir : Nat) : State :=
  let s1 := (edgeEnds node dir).foldl (fun (t : State) e => t.wr (edgeFld F.MSH_EDGE_STATE e.2) e.1 0 2) s
  let s2 := (edgeEnds node dir).foldl (fun t e => t.noteEdge 2 e) s1
  match neighbour node dir with
  | some n => s2.showDetour.afterFailed (edgeVictim node n)
  | none => s2

/-- FLOOR at either end makes an edge fail below full width; it is ignored between hub positions. -/
def State.floored (s : State) (node dir : Nat) : Bool :=
  !hubInternal node dir && (edgeEnds node dir).any fun e => s.rd F.MSH_FLOOR_FLOOR e.1 == 1

/-- A half of the edge goes out. -/
def State.loseHalf (s : State) (node dir half : Nat) : State :=
  if s.edgeState node dir = 1 then
    (if s.rd (edgeFld F.MSH_EDGE_LIVE_HALF dir) node = half then s.failEdge node dir else s)
  else if s.floored node dir then s.failEdge node dir
  else s.halve node dir (1 - half)

/-- A group fails with no spare left.  Which half the check wires take out is not stated: a free value (log entry 40). -/
def State.loseGroup (s : State) (node dir g : Nat) : State :=
  if g < 64 then s.loseHalf node dir (g / 32)
  else { s with free := s.free + 1 }.loseHalf node dir (Config.freeNat s.free % 2)

/-- A wire is marked failed. DEDUCED, log entry 49. -/
def State.failWire (s : State) (node dir w : Nat) : State :=
  let k := node * 4 + dir
  let e := s.edge k
  let g := wireGroup w
  let s1 := s.setEdge k { e with failed := e.failed ++ [w] }
  if s.edgeState node dir = 2 then s1
  else if hubInternal node dir then s1.loseGroup node dir g
  else if isSpare w then (if e.steered.contains g then s1.loseGroup node dir g else s1)
  else if e.steered.contains g ∨ e.failed.contains (spareWire g) then s1.loseGroup node dir g
  else s1.steer node dir g

/-- CHECK_FLIT: wires bad in two consecutive check flits of the direction that `node` receives from side `dir`. -/
def State.checkFlit (s : State) (node dir : Nat) (bad : List Nat) : State :=
  if 64 ≤ node ∨ 4 ≤ dir ∨ 2 ≤ s.edgeState node dir then s
  else
    let k := node * 4 + dir
    let e := s.edge k
    let exist := fun (w : Nat) => decide (w < 2129) && !(hubInternal node dir && isSpare w)
    let ws := (bad.filter exist).dedup
    let new := ws.filter fun w => e.lastBad.contains w && !e.failed.contains w
    new.foldl (fun (t : State) w => t.failWire node dir w) (s.setEdge k { e with lastBad := ws })

def execCheckFlit (node dir : Nat) (badWires : List Nat) (s : State) : Host.Outcome State Fault Refusal :=
  s.act (s.checkFlit node dir badWires)

/-- STEER_DONE: the direction sends again. -/
def State.steerDone (s : State) (node dir : Nat) : State :=
  if node < 64 ∧ dir < 4 then s.setEdge (node * 4 + dir) { s.edge (node * 4 + dir) with steering := false } else s

def execSteerDone (node dir : Nat) (s : State) : Host.Outcome State Fault Refusal := s.act (s.steerDone node dir)

end Sys2Proof.Machine
end

