-- ==== Sys2Proof/Machine/Move.lean ====
section
/-! DEFINITION. MOVE and MADD (R118, R245, R276, R408, R460): the copy engine and the memory-side adder at a tensor. -/

namespace Sys2Proof.Machine

/-- Number of 8-byte units that hold `n` bytes. -/
def units (n : Nat) : Nat := (n + 7) / 8

/-- Read `n` bytes; in register space by 8-byte reads in ascending order, each with its effect (R455). -/
def State.fetchBytes (s : State) (ue : List Nat) (f : Nat → Nat) (a n : Nat) : List Byte × State :=
  if s.region (f a) = .regs then
    let r := (List.range (units n)).foldl (fun (acc : List Byte × State) i =>
      match pageOf (f (a + 8 * i)) with
      | some (b, j, o) =>
        let w := acc.2.regRead b j o 0
        (acc.1 ++ leBytes 8 w.1.toNat, w.2)
      | none => (acc.1 ++ List.replicate 8 0, acc.2.holeAccess 27 (f (a + 8 * i)))) ([], s)
    (r.1.take n, r.2)
  else
    ((List.range n).map fun i => s.readByte ue (f (a + i)),
     s.noteReads ue ((sectors a n).map fun x => f (max x a)))

/-- Write bytes; in register space each 8-byte unit is a write of its own by the stream, in ascending order (R460). -/
def State.moveBytes (s : State) (stream : Nat) (f : Nat → Nat) (a : Nat) (bs : List Byte) : List FailRange × State :=
  if s.region (f a) = .regs then
    ([], (List.range (units bs.length)).foldl (fun (t : State) i =>
      t.busWrite (.stream stream) (f (a + 8 * i)) (BitVec.ofNat 64 (leNat ((bs.drop (8 * i)).take 8)))) s)
  else s.writeThrough f a bs

/-- Copy one row of a tensor: a block with a failed part is poisoned in S formats (R285), the rest is copied. -/
def State.moveRow (s : State) (d : Delivered) (ue : List Nat) (dst src : Handle) (prior : List (Nat × Nat)) (row : List Nat) :
    List FailRange × State :=
  let a := src.addr + src.rowOff row
  let c := src.saddr + src.scaleOff row
  let nb := src.rowBlocks
  let fa := s.xlate d .r a src.rowBytes
  let fc := s.xlate d .r c nb
  let data := s.fetchBytes ue fa a src.rowBytes
  let scale := if src.fmt = 4 then ([], data.2) else data.2.fetchBytes ue fc c nb
  let fails := s.failures ue fa a src.rowBytes ++ (if src.fmt = 4 then [] else s.failures ue fc c nb)
  let failed := fun (b : Nat) =>
    let lo := b * 4 * fmtBits src.fmt
    s.failures ue fa (a + lo) (min src.rowBytes (lo + 4 * fmtBits src.fmt) - lo) ≠ [] ∨ s.failures ue fc (c + b) 1 ≠ []
  let blocks := (List.range nb).map fun b =>
    let blk := readRowBlock (fun o => data.1.getD o 0) (fun o => scale.1.getD o 0) src.fmt (src.dim 0) b
    if src.fmt ≠ 4 ∧ failed b then Block.poison blk.m.length else blk
  let da := dst.addr + dst.rowOff row
  let dc := dst.saddr + dst.scaleOff row
  let out := blocks.flatMap fun b => blockBytes dst.fmt b.m
  let out := if s.region dst.addr = .regs then out.take dst.rowBytes else out
  let x1 := if s.region dst.addr = .regs then (out, scale.2) else scale.2.mixBytes prior (s.xlate d .w da out.length) da out
  let w1 := x1.2.moveBytes d.stream (s.xlate d .w da out.length) da x1.1
  if dst.fmt = 4 then (sectorRanges fails ++ w1.1, w1.2)
  else
    let sc := blocks.map fun b => BitVec.ofNat 8 (code 8 b.e)
    let x2 := w1.2.mixBytes prior (s.xlate d .w dc sc.length) dc sc
    let w2 := x2.2.moveBytes d.stream (s.xlate d .w dc sc.length) dc x2.1
    (sectorRanges fails ++ w1.1 ++ w2.1, w2.2)

/-- Two handles name tensors of one format and shape. -/
def Handle.sameShape (a b : Handle) : Bool := a.fmt == b.fmt && (List.range 4).all fun i => a.dim i == b.dim i

/-- Rows of blocks whose mantissas and exponents are free values drawn from counter value `k` on. -/
def freeRows (h : Handle) (k : Nat) : List (List Block) :=
  (List.range h.rows.length).map fun r => (List.range h.rowBlocks).map fun b =>
    let j := k + 33 * (r * h.rowBlocks + b)
    ⟨signed 8 (Config.freeNat j % 256),
     (List.range 32).map fun i => readMant h.fmt (Config.freeNat (j + 1 + i) % 2 ^ fmtBits h.fmt)⟩

/-- Free values of a destination. -/
def Handle.freeCount (h : Handle) : Nat := 33 * (h.rows.length * h.rowBlocks)

/-- The sectors that a tensor operation of two handles reads, and those it writes. -/
def State.pairSectors (s : State) (d : Delivered) (perm : Perm) (dst src : Handle) : List Nat × List Nat :=
  ((src.sectorList (s.xlate d .r) false).dedup, (dst.sectorList (s.xlate d perm) true).dedup)

/-- MOVE, row by row in dense order.  Where formats or shapes differ the spec states no result: the destination's
elements are free values (log entry 16). -/
def State.move (s : State) (d : Delivered) (ue : List Nat) (dst src : Handle) : State :=
  if dst.sameShape src then
    let r := src.rows.foldl (fun (acc : List (Nat × Nat) × List FailRange × State) row =>
      let w := acc.2.2.moveRow d ue dst src acc.1 row
      (acc.1 ++ dst.rowRanges row, acc.2.1 ++ w.1, w.2)) ([], [], s)
    r.2.2.finishWith d 0 r.2.1
  else
    let w := { s with free := s.free + dst.freeCount }.writeTensor (s.xlate d .w) dst (freeRows dst s.free)
    w.2.finishWith d 0 w.1

/-- The two handles of a manifest; none where a window refuses one. -/
def State.pairOf (s : State) (d : Delivered) : Option (Handle × Handle) :=
  match s.handleOf d (opAddr (mOperand d.words 0)), s.handleOf d (opAddr (mOperand d.words 1)) with
  | some a, some b => some (a, b)
  | _, _ => none

/-- Run a tensor operation of two handles once its sectors have passed their meters (R171). -/
def State.pairOp (s : State) (d : Delivered) (perm : Perm) (block : Nat) (run : State → Handle → Handle → State) : State :=
  match s.pairOf d with
  | none => s.foreign d block (pilotOf (d.stream / 256)) (opAddr (mOperand d.words 0))
  | some (dst, src) =>
    let secs := s.pairSectors d perm dst src
    s.metered (s.classOf d.ctx) d (pilotOf (d.stream / 256)) secs.1 secs.2 fun t => run t dst src

def execMove (d : Delivered) (ue : List Nat) (s : State) : Host.Outcome State Fault Refusal :=
  s.act (if s.ready d then s.pairOp d .w 0x02 (fun t => t.move d ue) else s)

/-- MADD one row, block by block, each block atomically (R245). -/
def State.maddRow (s : State) (d : Delivered) (dst : Handle) (row : List Nat) (bs : List Block) : List FailRange × State :=
  let da := dst.addr + dst.rowOff row
  let dc := dst.saddr + dst.scaleOff row
  let fa := s.xlate d .a da (dst.rowBlocks * 4 * fmtBits dst.fmt)
  let fc := s.xlate d .a dc dst.rowBlocks
  ((List.range bs.length).zip bs).foldl (fun (acc : List FailRange × State) b =>
    let m := b.2.m ++ List.replicate (32 - b.2.m.length) 0
    let w := acc.2.addBlock (mSubop d.words) dst.fmt (fa (da + b.1 * 4 * fmtBits dst.fmt)) (fc (dc + b.1))
      (min 32 (dst.dim 0 - 32 * b.1)) ⟨b.2.e, m⟩
    (acc.1 ++ w.1, w.2)) ([], s)

/-- MADD.  Where formats or shapes differ the destination's elements are free values (log entry 24). -/
def State.madd (s : State) (d : Delivered) (ue : List Nat) (dst src : Handle) : State :=
  if dst.sameShape src then
    let t := s.readTensor (s.xlate d .r) ue src (mSubop d.words == 1)
    let s1 := s.noteReads ue (src.sectorList (s.xlate d .r) false)
    let r := (dst.rows.zip t.rows).foldl (fun (acc : List FailRange × State) row =>
      let w := acc.2.maddRow d dst row.1 row.2
      (acc.1 ++ w.1, w.2)) (sectorRanges t.fails, s1)
    r.2.finishWith d 0 r.1
  else
    let w := { s with free := s.free + dst.freeCount }.writeTensor (s.xlate d .a) dst (freeRows dst s.free)
    w.2.finishWith d 0 w.1

def execMadd (d : Delivered) (ue : List Nat) (s : State) : Host.Outcome State Fault Refusal :=
  s.act (if s.ready d then s.pairOp d .a 0x02 (fun t => t.madd d ue) else s)

end Sys2Proof.Machine
end

