-- ==== Sys2Proof/Machine/Dispatch.lean ====
section
/-! DEFINITION. One arm per command: a direct call of its meaning. -/

namespace Sys2Proof.Machine

/-- The effect of a command on everything but the queue. -/
def exec (i : Instr) (s : State) : Host.Outcome State Fault Refusal :=
  match i with
  | .meshHop node p crcOk => Sys2Proof.Machine.execMeshHop node p crcOk s
  | .meshRead p fx => Sys2Proof.Machine.execMeshRead p fx s
  | .meshWrite p fx => Sys2Proof.Machine.execMeshWrite p fx s
  | .meshAdd p fx same => Sys2Proof.Machine.execMeshAdd p fx s same
  | .meshSignal p => Sys2Proof.Machine.execMeshSignal p s
  | .meshResp p => Sys2Proof.Machine.execMeshResp p s
  | .meshCtrl p => Sys2Proof.Machine.execMeshCtrl p s
  | .checkFlit node dir badWires => Sys2Proof.Machine.execCheckFlit node dir badWires s
  | .steerDone node dir => Sys2Proof.Machine.execSteerDone node dir s
  | .manifestDecode stream => Sys2Proof.Machine.execManifestDecode stream s
  | .manifestIssue stream => Sys2Proof.Machine.execManifestIssue stream s
  | .manifestRetire stream => Sys2Proof.Machine.execManifestRetire stream s
  | .bollardPoll stream slot => Sys2Proof.Machine.execBollardPoll stream slot s
  | .groupDeliver site d late => Sys2Proof.Machine.execGroupDeliver site d late s
  | .engineTake e => Sys2Proof.Machine.execEngineTake e s
  | .nop d => Sys2Proof.Machine.execNop d s
  | .matmul core d => Sys2Proof.Machine.execMatmul core d s
  | .wprefetch site d ue => Sys2Proof.Machine.execWprefetch site d ue s
  | .requant core d => Sys2Proof.Machine.execRequant core d s
  | .vec core d => Sys2Proof.Machine.execVec core d s
  | .vred core d => Sys2Proof.Machine.execVred core d s
  | .func core d => Sys2Proof.Machine.execFunc core d s
  | .tload core d => Sys2Proof.Machine.execTload core d s
  | .copy core d => Sys2Proof.Machine.execCopy core d s
  | .move d ue => Sys2Proof.Machine.execMove d ue s
  | .madd d ue => Sys2Proof.Machine.execMadd d ue s
  | .fsend d => Sys2Proof.Machine.execFsend d s
  | .forwardFsend d => Sys2Proof.Machine.execForwardFsend d s
  | .ltake d => Sys2Proof.Machine.execLtake d s
  | .lfree d => Sys2Proof.Machine.execLfree d s
  | .mget d => Sys2Proof.Machine.execMget d s
  | .mput d => Sys2Proof.Machine.execMput d s
  | .dpush d => Sys2Proof.Machine.execDpush d s
  | .dpushDrain d => Sys2Proof.Machine.execDpushDrain d s
  | .pput d ue same => Sys2Proof.Machine.execPput d ue s same
  | .ptake d => Sys2Proof.Machine.execPtake d s
  | .ostepPrepare d ue => Sys2Proof.Machine.execOstepPrepare d ue s
  | .ostepCommit d => Sys2Proof.Machine.execOstepCommit d s
  | .commitRelease unit => Sys2Proof.Machine.execCommitRelease unit s
  | .ostepPublish d => Sys2Proof.Machine.execOstepPublish d s
  | .ckptSnapshot d => Sys2Proof.Machine.execCkptSnapshot d s
  | .ckptExport d => Sys2Proof.Machine.execCkptExport d s
  | .ckptRestore d => Sys2Proof.Machine.execCkptRestore d s
  | .pset d hostSame => Sys2Proof.Machine.execPset d hostSame s
  | .subring d => Sys2Proof.Machine.execSubring d s
  | .subringRecompute d => Sys2Proof.Machine.execSubringRecompute d s
  | .sctrlStart d => Sys2Proof.Machine.execSctrlStart d s
  | .sctrlStop d => Sys2Proof.Machine.execSctrlStop d s
  | .sctrlCancel d readySame => Sys2Proof.Machine.execSctrlCancel d readySame s
  | .stamp d => Sys2Proof.Machine.execStamp d s
  | .phaseMark d => Sys2Proof.Machine.execPhaseMark d s
  | .coreIssue core d late => Sys2Proof.Machine.execCoreIssue core d s late
  | .coreRead core stream seq o word operand window offset fx => Sys2Proof.Machine.execCoreRead core stream seq o word operand window offset fx s
  | .tileLoad core firstLine lines => Sys2Proof.Machine.execTileLoad core firstLine lines s
  | .stagingLineLands core line => Sys2Proof.Machine.execStagingLineLands core line s
  | .coreWriteRetire core stream seq o last word window offset => Sys2Proof.Machine.execCoreWriteRetire core stream seq o last s word window offset
  | .coreManifestRetire core actual held => Sys2Proof.Machine.execCoreManifestRetire core actual held s
  | .winStep core mask => Sys2Proof.Machine.execWinStep core mask s
  | .winHeadWrite core w v stepSame => Sys2Proof.Machine.execWinHeadWrite core w v stepSame s
  | .strStart stream => Sys2Proof.Machine.execStrStart stream s
  | .strStop stream => Sys2Proof.Machine.execStrStop stream s
  | .strCancel stream readySame => Sys2Proof.Machine.execStrCancel stream readySame s
  | .strResume stream => Sys2Proof.Machine.execStrResume stream s
  | .strRewind stream => Sys2Proof.Machine.execStrRewind stream s
  | .strTailWrite stream v => Sys2Proof.Machine.execStrTailWrite stream v s
  | .paramWrite stream idx v snapSame => Sys2Proof.Machine.execParamWrite stream idx v snapSame s
  | .bollardWrite bollard v signalSame => Sys2Proof.Machine.execBollardWrite bollard v signalSame s
  | .deadlineTimeout stream waitSame doneSame => Sys2Proof.Machine.execDeadlineTimeout stream waitSame s doneSame
  | .notBeforeRelease stream => Sys2Proof.Machine.execNotBeforeRelease stream s
  | .stagedXingApply => Sys2Proof.Machine.execStagedXingApply s
  | .crossingBoundary => Sys2Proof.Machine.execCrossingBoundary s
  | .tideEpochFrame sync value crc => Sys2Proof.Machine.execTideEpochFrame sync value crc s
  | .tideQualifyDone => Sys2Proof.Machine.execTideQualifyDone s
  | .tideSourceLoss why => Sys2Proof.Machine.execTideSourceLoss why s
  | .tidXingWrite base v => Sys2Proof.Machine.execTidXingWrite base v s
  | .tolWrite page off v => Sys2Proof.Machine.execTolWrite page off v s
  | .ferryTransferStart ferry ue => Sys2Proof.Machine.execFerryTransferStart ferry ue s
  | .ferrySendComplete ferry => Sys2Proof.Machine.execFerrySendComplete ferry s
  | .ferryEnable ferry => Sys2Proof.Machine.execFerryEnable ferry s
  | .ferryDisable ferry => Sys2Proof.Machine.execFerryDisable ferry s
  | .ferryFlush ferry => Sys2Proof.Machine.execFerryFlush ferry s
  | .creditReturn ferry slot => Sys2Proof.Machine.execCreditReturn ferry slot s
  | .landingHeader port h => Sys2Proof.Machine.execLandingHeader port h s
  | .landingPayload landing slot port pos bytes => Sys2Proof.Machine.execLandingPayload landing slot port pos bytes s
  | .landingEntryReady landing slot => Sys2Proof.Machine.execLandingEntryReady landing slot s
  | .landingDrain landing => Sys2Proof.Machine.execLandingDrain landing s
  | .mooringPublish mooring => Sys2Proof.Machine.execMooringPublish mooring s
  | .mooringHostRelease mooring => Sys2Proof.Machine.execMooringHostRelease mooring s
  | .bubbleFill stage arrivalSame => Sys2Proof.Machine.execBubbleFill stage arrivalSame s
  | .pontoonGrant pontoon => Sys2Proof.Machine.execPontoonGrant pontoon s
  | .pontoonReset pontoon => Sys2Proof.Machine.execPontoonReset pontoon s
  | .vetoClose ch step => Sys2Proof.Machine.execVetoClose ch step s
  | .vetoUpSend ch => Sys2Proof.Machine.execVetoUpSend ch s
  | .vetoUpReceive port m => Sys2Proof.Machine.execVetoUpReceive port m s
  | .vetoDownSend ch => Sys2Proof.Machine.execVetoDownSend ch s
  | .vetoDownReceive port m => Sys2Proof.Machine.execVetoDownReceive port m s
  | .vetoDeadline ch => Sys2Proof.Machine.execVetoDeadline ch s
  | .vetoCmdCommit ch => Sys2Proof.Machine.execVetoCmdCommit ch s
  | .vetoCmdDiscard ch => Sys2Proof.Machine.execVetoCmdDiscard ch s
  | .bankStateRequest site reg v => Sys2Proof.Machine.execBankStateRequest site reg v s
  | .bankTransitionDone site bank => Sys2Proof.Machine.execBankTransitionDone site bank s
  | .patrolScrub site eccs writtenSince => Sys2Proof.Machine.execPatrolScrub site eccs writtenSince s
  | .secureWipeDone => Sys2Proof.Machine.execSecureWipeDone s
  | .hbmRetireWrite stack v => Sys2Proof.Machine.execHbmRetireWrite stack v s
  | .hbmRetireCommit stack => Sys2Proof.Machine.execHbmRetireCommit stack s
  | .hbmTempRead stack temp => Sys2Proof.Machine.execHbmTempRead stack temp s
  | .hbmEcsLogRead stack corrected => Sys2Proof.Machine.execHbmEcsLogRead stack corrected s
  | .hbmOffline stack off => Sys2Proof.Machine.execHbmOffline stack off s
  | .hbmMarginRun stack v => Sys2Proof.Machine.execHbmMarginRun stack v s
  | .hbmMarginDone stack => Sys2Proof.Machine.execHbmMarginDone stack s
  | .blkOffline ctl off => Sys2Proof.Machine.execBlkOffline ctl off s
  | .blkMarginRun ctl v => Sys2Proof.Machine.execBlkMarginRun ctl v s
  | .blkMarginDone ctl => Sys2Proof.Machine.execBlkMarginDone ctl s
  | .blkScrub ctl sev writtenSince => Sys2Proof.Machine.execBlkScrub ctl sev writtenSince s
  | .partitionEnable part v => Sys2Proof.Machine.execPartitionEnable part v s
  | .ckpStart => Sys2Proof.Machine.execCkpStart s
  | .ckpAbort => Sys2Proof.Machine.execCkpAbort s
  | .directorySweepDone dirty => Sys2Proof.Machine.execDirectorySweepDone dirty s
  | .ckpRelease => Sys2Proof.Machine.execCkpRelease s
  | .chunkSaved => Sys2Proof.Machine.execChunkSaved s
  | .heldWriteProceed => Sys2Proof.Machine.execHeldWriteProceed s
  | .ckpDone => Sys2Proof.Machine.execCkpDone s
  | .stageMoverCopy units pcieError => Sys2Proof.Machine.execStageMoverCopy units pcieError s
  | .ckpStageIdxWrite v => Sys2Proof.Machine.execCkpStageIdxWrite v s
  | .portEnable port => Sys2Proof.Machine.execPortEnable port s
  | .portDisable port => Sys2Proof.Machine.execPortDisable port s
  | .portReconfig port => Sys2Proof.Machine.execPortReconfig port s
  | .portRetrain port => Sys2Proof.Machine.execPortRetrain port s
  | .initReceive port m => Sys2Proof.Machine.execInitReceive port m s
  | .pauseReceive port t => Sys2Proof.Machine.execPauseReceive port t s
  | .retrainDone port => Sys2Proof.Machine.execRetrainDone port s
  | .resumeReceive port lastSeq => Sys2Proof.Machine.execResumeReceive port lastSeq s
  | .laneLockLoss port lane => Sys2Proof.Machine.execLaneLockLoss port lane s
  | .lockReturn port lanes => Sys2Proof.Machine.execLockReturn port lanes s
  | .portDownTimeout port lockSame => Sys2Proof.Machine.execPortDownTimeout port lockSame s
  | .flitReceive port f fx => Sys2Proof.Machine.execFlitReceive port f fx s
  | .nakRepeatTimeout port => Sys2Proof.Machine.execNakRepeatTimeout port s
  | .replayTimeout port => Sys2Proof.Machine.execReplayTimeout port s
  | .ackHoldExpire port => Sys2Proof.Machine.execAckHoldExpire port s
  | .creditReport port vc => Sys2Proof.Machine.execCreditReport port vc s
  | .transitForward port chan idx h => Sys2Proof.Machine.execTransitForward port chan idx h s
  | .abortReceive srcNode ferry xferSeq => Sys2Proof.Machine.execAbortReceive srcNode ferry xferSeq s
  | .tideMarkerSend port => Sys2Proof.Machine.execTideMarkerSend port s
  | .tideMarkerReceive port m t4 crcOk => Sys2Proof.Machine.execTideMarkerReceive port m t4 crcOk s
  | .censusStart => Sys2Proof.Machine.execCensusStart s
  | .probe port epoch => Sys2Proof.Machine.execProbe port epoch s
  | .decline port epoch => Sys2Proof.Machine.execDecline port epoch s
  | .record port epoch bytes => Sys2Proof.Machine.execRecord port epoch bytes s
  | .done port epoch n direct changeSame => Sys2Proof.Machine.execDone port epoch n direct changeSame s
  | .change port epoch => Sys2Proof.Machine.execChange port epoch s
  | .censusTimeout resultSame => Sys2Proof.Machine.execCensusTimeout resultSame s
  | .ownershipRequest line requesters wb evict => Sys2Proof.Machine.execOwnershipRequest line requesters wb evict s
  | .writeback core line data ecc => Sys2Proof.Machine.execWriteback core line data s ecc
  | .forwardReceive core line => Sys2Proof.Machine.execForwardReceive core line s
  | .accelCoherentAccess addr write bytes snoop => Sys2Proof.Machine.execAccelCoherentAccess addr write bytes snoop s
  | .hostBar2Access port offset write bytes fx => Sys2Proof.Machine.execHostBar2Access port offset write bytes fx s
  | .cpxFlush die => Sys2Proof.Machine.execCpxFlush die s
  | .cpxFlushDone die dirty => Sys2Proof.Machine.execCpxFlushDone die dirty s
  | .cpxFreqChange die v => Sys2Proof.Machine.execCpxFreqChange die v s
  | .ctxArm ctx => Sys2Proof.Machine.execCtxArm ctx s
  | .ctxTeardown ctx => Sys2Proof.Machine.execCtxTeardown ctx s
  | .ctxKeyWrite ctx hi v => Sys2Proof.Machine.execCtxKeyWrite ctx hi v s
  | .faultReport reps => Sys2Proof.Machine.execFaultReport reps s
  | .teardownStop ctx readySame => Sys2Proof.Machine.execTeardownStop ctx s readySame
  | .teardownDrain ctx => Sys2Proof.Machine.execTeardownDrain ctx s
  | .teardownClear ctx => Sys2Proof.Machine.execTeardownClear ctx s
  | .teardownReport ctx => Sys2Proof.Machine.execTeardownReport ctx s
  | .computeReset code => Sys2Proof.Machine.execComputeReset code s
  | .dumpDone => Sys2Proof.Machine.execDumpDone s
  | .dumpTimeout => Sys2Proof.Machine.execDumpTimeout s
  | .computeResetDone => Sys2Proof.Machine.execComputeResetDone s
  | .moduleReset code same => Sys2Proof.Machine.execModuleReset code s same
  | .rstUnmap v => Sys2Proof.Machine.execRstUnmap v s
  | .rstOosAck v => Sys2Proof.Machine.execRstOosAck v s
  | .ageTick => Sys2Proof.Machine.execAgeTick s
  | .ageLogWrite => Sys2Proof.Machine.execAgeLogWrite s
  | .monitorSample m value => Sys2Proof.Machine.execMonitorSample m value s
  | .droopEvent site mv => Sys2Proof.Machine.execDroopEvent site mv s
  | .protectiveTrip code => Sys2Proof.Machine.execProtectiveTrip code s
  | .protectiveRelease => Sys2Proof.Machine.execProtectiveRelease s
  | .energyCharge => Sys2Proof.Machine.execEnergyCharge s
  | .controllerUpdate => Sys2Proof.Machine.execControllerUpdate s
  | .ballastUpdate => Sys2Proof.Machine.execBallastUpdate s
  | .quietEntry wakeSame => Sys2Proof.Machine.execQuietEntry wakeSame s
  | .powerEntryDone => Sys2Proof.Machine.execPowerEntryDone s
  | .wakeEvent w => Sys2Proof.Machine.execWakeEvent w s
  | .powerExitDone => Sys2Proof.Machine.execPowerExitDone s
  | .pwrWakeWrite v => Sys2Proof.Machine.execPwrWakeWrite v s
  | .registerWrite addr v src same => Sys2Proof.Machine.execRegisterWrite addr v src s same
  | .rcRead addr incSame src => Sys2Proof.Machine.execRcRead addr incSame src s
  | .pgEventClear block inst v setSame => Sys2Proof.Machine.execPgEventClear block inst v setSame s
  | .pgClampedClear block inst v clampSame => Sys2Proof.Machine.execPgClampedClear block inst v clampSame s
  | .pgQuiesce block inst v => Sys2Proof.Machine.execPgQuiesce block inst v s
  | .pgResume block inst => Sys2Proof.Machine.execPgResume block inst s
  | .pciRetrain port => Sys2Proof.Machine.execPciRetrain port s
  | .pciHotReset port => Sys2Proof.Machine.execPciHotReset port s
  | .pcieLinkChange port up speed width flit ce ue => Sys2Proof.Machine.execPcieLinkChange port up speed width flit s ce ue
  | .pcieFundamentalReset => Sys2Proof.Machine.execPcieFundamentalReset s
  | .powerOnSequence f => Sys2Proof.Machine.execPowerOnSequence f s
  | .fwupStart => Sys2Proof.Machine.execFwupStart s
  | .fwupDone verified => Sys2Proof.Machine.execFwupDone verified s
  | .lcsGo v => Sys2Proof.Machine.execLcsGo v s
  | .lcsBurnDone rows => Sys2Proof.Machine.execLcsBurnDone rows s
  | .tamperEvent sources => Sys2Proof.Machine.execTamperEvent sources s
  | .fusProgDebugLock => Sys2Proof.Machine.execFusProgDebugLock s
  | .fusProgRollbackSet => Sys2Proof.Machine.execFusProgRollbackSet s
  | .fusProgKeyHash keySel => Sys2Proof.Machine.execFusProgKeyHash keySel s
  | .fusProgDone verified => Sys2Proof.Machine.execFusProgDone verified s
  | .logRecordCommit type key body => Sys2Proof.Machine.execLogRecordCommit type key body s
  | .logGc => Sys2Proof.Machine.execLogGc s
  | .logExport => Sys2Proof.Machine.execLogExport s
  | .logExportDone => Sys2Proof.Machine.execLogExportDone s
  | .tapDieSelect test => Sys2Proof.Machine.execTapDieSelect s test
  | .tapBackdoor addr write => Sys2Proof.Machine.execTapBackdoor addr write s
  | .modResetNLow ns => Sys2Proof.Machine.execModResetNLow ns s
  | .modResetNRelease => Sys2Proof.Machine.execModResetNRelease s
  | .mctpMessage sensor inst addr => Sys2Proof.Machine.execMctpMessage sensor inst s addr
  | .linkTrainingDone port => Sys2Proof.Machine.execLinkTrainingDone port s
  | .flitTransmission port => Sys2Proof.Machine.execFlitTransmission port s
  | .powerLoss cut => Sys2Proof.Machine.execPowerLoss s cut
  | .lidClose => Sys2Proof.Machine.execLidClose s
  | .notBeforeExit stream => Sys2Proof.Machine.execNotBeforeExit stream s
  | .refreshManagementRequest stack => Sys2Proof.Machine.execRefreshManagementRequest stack s

end Sys2Proof.Machine
end

