-- ==== Sys2Proof/WellFormed.lean ====
section
/-! DEFINITION. Which commands name something that exists: unit numbers within the counts of the package (R13 to R15,
R113, R184, R236, R338, R450), codes and lengths within their fields (R23, R115, R190, R342, R353, R362), and a
manifest command with the operation code of its row (R118). -/

namespace Sys2Proof

/-! ### The checks -/

def wfSite (n : Nat) : Bool := decide (n < 64)
def wfDir (n : Nat) : Bool := decide (n < 4)
/-- Core global IDs (R14). -/
def wfCore (n : Nat) : Bool := decide (n < 1024)
/-- Stream IDs (R113). -/
def wfStream (n : Nat) : Bool := decide (n < 16384)
/-- Bollard IDs (R134). -/
def wfBollard (n : Nat) : Bool := decide (n < 16384)
def wfCtx (n : Nat) : Bool := decide (n < 64)
def wfFerry (n : Nat) : Bool := decide (n < 128)
def wfLanding (n : Nat) : Bool := decide (n < 64)
/-- Landing slots (R198). -/
def wfSlot (n : Nat) : Bool := decide (n < 64)
def wfMooring (n : Nat) : Bool := decide (n < 128)
def wfStage (n : Nat) : Bool := decide (n < 16)
def wfPontoon (n : Nat) : Bool := decide (n < 1024)
def wfVeto (n : Nat) : Bool := decide (n < 4)
def wfStack (n : Nat) : Bool := decide (n < 24)
def wfCtl (n : Nat) : Bool := decide (n < 4)
def wfPart (n : Nat) : Bool := decide (n < 16)
def wfPort (n : Nat) : Bool := decide (n < 48)
def wfPcie (n : Nat) : Bool := decide (n < 2)
def wfDie (n : Nat) : Bool := decide (n < 4)
/-- Directory requesters: 96 P-die cores and the accelerator side (R388, R389). -/
def wfReq (n : Nat) : Bool := decide (n < 97)
def wfAddr (a : Nat) : Bool := decide (a < 2 ^ 64)
/-- Error severities (R269, R284): none, corrected, uncorrectable. -/
def wfSev (n : Nat) : Bool := decide (n < 3)
def wfPage (block inst : Nat) : Bool := decide (block < 64) && decide (inst < 1024)

def wfMemFx (f : MemFx) : Bool := wfSev f.ecc && wfSev f.sev

/-- The virtual channel of a transaction code (R24): CTRL on control, RESP on response, the others on request. -/
def opChannel (op : Nat) : Nat := if op = 6 then 0 else if op = 5 then 2 else 1

/-- A packet (R23, R24): a defined code on its virtual channel, inline payload only where LEN is 0. -/
def wfPacket (p : Packet) (op : Nat) : Bool :=
  wfSite p.dest && wfSite p.src && p.vc == opChannel op && decide (p.len ≤ 8) && p.op == op && decide (1 ≤ op ∧ op ≤ 6) &&
    wfCtx p.ctx && decide (p.gen < 4096) && wfAddr p.addr && decide (p.inlineLen ≤ 448) && decide (p.status < 4) &&
    decide (p.inl.length ≤ 448) && p.data.length == 512 * p.len && (p.len == 0 || p.inlineLen == 0)

/-- An issued manifest. -/
def wfDelivered (d : Delivered) : Bool :=
  d.words.length == 16 && wfStream d.stream && wfCtx d.ctx && decide (d.gen < 4096) && wfAddr d.addr &&
    d.snap.length == 16

/-- An issued manifest with an operation code. -/
def wfOp (code : Nat) (d : Delivered) : Bool := wfDelivered d && ((d.words.headD 0).toNat % 256 == code)

/-- With an operation code and a SUBOP. -/
def wfSub (code sub : Nat) (d : Delivered) : Bool := wfOp code d && (d.words.headD 0).toNat / 256 % 256 == sub

/-- SUBOP[0] of an issued manifest: an FSEND forwards (R250). -/
def subBit (d : Delivered) : Bool := (d.words.headD 0).toNat / 256 % 2 == 1

/-- A ferry header (R190). -/
def wfHdr (h : FerryHdr) : Bool :=
  decide (h.destNode < 65536) && decide (h.srcNode < 65536) && decide (h.ferry < 128) && wfLanding h.landing && wfSlot h.slot &&
    decide (h.xferSeq < 65536) && decide (h.format < 5) && h.dims.length == 4

/-- A flit (R342): 240 payload bytes. -/
def wfFlit (f : Flit) : Bool :=
  decide (f.type < 16) && decide (f.vc < 3) && decide (f.chan < 256) && decide (f.seq < 65536) && decide (f.ack < 65536) &&
    decide (f.cvc < 4) && f.payload.length == 240

def wfInit (m : InitMsg) : Bool := m.bufs.length == 3 && decide (m.node < 65536)

/-- A target of a live change (R359). -/
def wfTarget (t : LinkTarget) : Bool :=
  (t.width == 2 || t.width == 4 || t.width == 8) && decide (t.lanes < 256)

def wfVetoMsg (m : VetoMsg) : Bool := decide (m.job < 65536) && decide (m.step < 2 ^ 32)

def wfEngine : Engine → Bool
  | .coreSeq n => wfSite n
  | .weights n => wfSite n
  | .copier n => wfSite n
  | .adder n => wfSite n
  | .ferry n => wfFerry n
  | .landing n => wfLanding n
  | .mooring n => wfStage n
  | .deferral n => decide (n ≤ 16)
  | .pontoon n => decide (n < 1088)
  | .opt n => decide (n < 32)
  | .ckpt => true

def wfSource : Source → Bool
  | .hart n => decide (n < 96)
  | .pcie p => wfPcie p
  | .mgmt => true
  | .stream n => wfStream n

def wfMonitor : Monitor → Bool
  | .tdie x _ => wfSite x
  | .sdie x _ => wfSite x
  | .process x _ => wfSite x
  | .bulk c => wfCtl c
  | .vin | .iin | .pin | .tin | .tout | .flow => true

def wfReports (rs : List FaultRep) : Bool := rs.all fun r => wfCtx r.ctx && decide (1 ≤ r.cls) && decide (r.cls ≤ 5)

/-! ### Well-formed commands -/

/-- A command names units, codes and lengths that exist. -/
def Instr.wf : Instr → Bool
  | .meshHop node p _ => wfSite node && wfPacket p p.op
  | .meshRead p fx => wfPacket p 1 && wfMemFx fx
  | .meshWrite p fx => wfPacket p 2 && wfMemFx fx
  | .meshAdd p fx same => wfPacket p 3 && wfMemFx fx && same.all fun q => wfPacket q q.op && (q.op == 3 || q.op == 1)
  | .meshSignal p => wfPacket p 4
  | .meshResp p => wfPacket p 5
  | .meshCtrl p => wfPacket p 6
  | .checkFlit node dir _ => wfSite node && wfDir dir
  | .steerDone node dir => wfSite node && wfDir dir
  | .manifestDecode id => wfStream id
  | .manifestIssue id => wfStream id
  | .manifestRetire id => wfStream id
  | .bollardPoll id slot => wfStream id && decide (slot < 12)
  | .groupDeliver x d _ => wfSite x && wfDelivered d
  | .engineTake e => wfEngine e
  | .nop d => wfOp 0x00 d
  | .matmul c d => wfCore c && wfOp 0x01 d
  | .wprefetch x d _ => wfSite x && wfOp 0x02 d
  | .requant c d => wfCore c && wfOp 0x03 d
  | .vec c d => wfCore c && wfOp 0x04 d
  | .vred c d => wfCore c && wfOp 0x05 d
  | .func c d => wfCore c && wfOp 0x06 d
  | .tload c d => wfCore c && wfOp 0x07 d
  | .copy c d => wfCore c && wfOp 0x08 d
  | .move d _ => wfOp 0x09 d
  | .madd d _ => wfOp 0x0A d
  | .fsend d => wfOp 0x10 d && !subBit d
  | .forwardFsend d => wfOp 0x10 d && subBit d
  | .ltake d => wfOp 0x11 d
  | .lfree d => wfOp 0x12 d
  | .mget d => wfOp 0x13 d
  | .mput d => wfOp 0x14 d
  | .dpush d => wfOp 0x15 d
  | .dpushDrain d => wfOp 0x15 d
  | .pput d _ _ => wfOp 0x18 d
  | .ptake d => wfOp 0x19 d
  | .ostepPrepare d _ => wfSub 0x1C 0 d
  | .ostepCommit d => wfSub 0x1C 1 d
  | .commitRelease u => decide (u < 24)
  | .ostepPublish d => wfSub 0x1C 2 d
  | .ckptSnapshot d => wfOp 0x1D d
  | .ckptExport d => wfOp 0x1D d
  | .ckptRestore d => wfOp 0x1D d
  | .pset d _ => wfOp 0x20 d
  | .subring d => wfOp 0x21 d
  | .subringRecompute d => wfOp 0x21 d
  | .sctrlStart d => wfSub 0x22 0 d
  | .sctrlStop d => wfSub 0x22 1 d
  | .sctrlCancel d _ => wfSub 0x22 2 d
  | .stamp d => wfOp 0x23 d
  | .phaseMark d => wfOp 0x23 d
  | .coreIssue c d _ => wfCore c && wfDelivered d
  | .coreRead c id _ _ word operand w _ fx => wfCore c && wfStream id && decide (word < 8) && decide (operand < 4) && decide (w < 8) && wfMemFx fx
  | .tileLoad c first n => wfCore c && decide (first < 512) && decide (n ≤ 64)
  | .stagingLineLands c line => wfCore c && decide (line < 1024)
  | .coreWriteRetire c id _ _ _ word w _ => wfCore c && wfStream id && decide (word < 8) && decide (w < 8)
  | .coreManifestRetire c _ _ => wfCore c
  | .winStep c m => wfCore c && decide (m < 256)
  | .winHeadWrite c w _ _ => wfCore c && decide (w < 8)
  | .strStart id => wfStream id
  | .strStop id => wfStream id
  | .strCancel id _ => wfStream id
  | .strResume id => wfStream id
  | .strRewind id => wfStream id
  | .strTailWrite id _ => wfStream id
  | .paramWrite id i _ _ => wfStream id && decide (i < 16)
  | .bollardWrite b _ _ => wfBollard b
  | .deadlineTimeout id _ _ => wfStream id
  | .notBeforeRelease id => wfStream id
  | .stagedXingApply => true
  | .crossingBoundary => true
  | .tideEpochFrame sync v crc => decide (sync < 65536) && wfAddr v && decide (crc < 65536)
  | .tideQualifyDone => true
  | .tideSourceLoss _ => true
  | .tidXingWrite _ _ => true
  | .tolWrite page off _ => decide (page ≤ 64) && decide (off < 4096)
  | .ferryTransferStart n _ => wfFerry n
  | .ferrySendComplete n => wfFerry n
  | .ferryEnable n => wfFerry n
  | .ferryDisable n => wfFerry n
  | .ferryFlush n => wfFerry n
  | .creditReturn n slot => wfFerry n && wfSlot slot
  | .landingHeader port h => decide (port ≤ 48) && wfHdr h
  | .landingPayload l slot port _ _ => wfLanding l && wfSlot slot && decide (port ≤ 48)
  | .landingEntryReady l slot => wfLanding l && wfSlot slot
  | .landingDrain l => wfLanding l
  | .mooringPublish m => wfMooring m
  | .mooringHostRelease m => wfMooring m
  | .bubbleFill g _ => wfStage g
  | .pontoonGrant p => wfPontoon p
  | .pontoonReset p => wfPontoon p
  | .vetoClose ch step => wfVeto ch && decide (step < 2 ^ 32)
  | .vetoUpSend ch => wfVeto ch
  | .vetoUpReceive port m => wfPort port && wfVetoMsg m
  | .vetoDownSend ch => wfVeto ch
  | .vetoDownReceive port m => wfPort port && wfVetoMsg m
  | .vetoDeadline ch => wfVeto ch
  | .vetoCmdCommit ch => wfVeto ch
  | .vetoCmdDiscard ch => wfVeto ch
  | .bankStateRequest x reg _ => wfSite x && decide (reg < 8)
  | .bankTransitionDone x bank => wfSite x && decide (bank < 256)
  | .patrolScrub x eccs _ => wfSite x && decide (eccs.length ≤ 8) && eccs.all wfSev
  | .secureWipeDone => true
  | .hbmRetireWrite k _ => wfStack k
  | .hbmRetireCommit k => wfStack k
  | .hbmTempRead k _ => wfStack k
  | .hbmEcsLogRead k _ => wfStack k
  | .hbmOffline k _ => wfStack k
  | .hbmMarginRun k _ => wfStack k
  | .hbmMarginDone k => wfStack k
  | .blkOffline c _ => wfCtl c
  | .blkMarginRun c _ => wfCtl c
  | .blkMarginDone c => wfCtl c
  | .blkScrub c sev _ => wfCtl c && wfSev sev
  | .partitionEnable p _ => wfPart p
  | .ckpStart => true
  | .ckpAbort => true
  | .directorySweepDone dirty => dirty.all fun d => d.2.length == 64
  | .ckpRelease => true
  | .chunkSaved => true
  | .heldWriteProceed => true
  | .ckpDone => true
  | .stageMoverCopy _ _ => true
  | .ckpStageIdxWrite _ => true
  | .portEnable p => wfPort p
  | .portDisable p => wfPort p
  | .portReconfig p => wfPort p
  | .portRetrain p => wfPort p
  | .initReceive p m => wfPort p && wfInit m
  | .pauseReceive p t => wfPort p && wfTarget t
  | .retrainDone p => wfPort p
  | .resumeReceive p seq => wfPort p && decide (seq < 65536)
  | .laneLockLoss p lane => wfPort p && decide (lane < 8)
  | .lockReturn p lanes => wfPort p && decide (lanes < 256)
  | .portDownTimeout p _ => wfPort p
  | .flitReceive p f _ => wfPort p && wfFlit f
  | .nakRepeatTimeout p => wfPort p
  | .replayTimeout p => wfPort p
  | .ackHoldExpire p => wfPort p
  | .creditReport p vc => wfPort p && decide (vc < 3)
  | .transitForward p chan _ h => wfPort p && decide (chan < 256) && wfHdr h
  | .abortReceive _ ferry seq => wfFerry ferry && decide (seq < 65536)
  | .tideMarkerSend p => wfPort p
  | .tideMarkerReceive p _ _ _ => wfPort p
  | .censusStart => true
  | .probe p _ => wfPort p
  | .decline p _ => wfPort p
  | .record p _ _ => wfPort p
  | .done p _ _ _ _ => wfPort p
  | .change p _ => wfPort p
  | .censusTimeout _ => true
  | .ownershipRequest _ rs _ _ => rs.all wfReq
  | .writeback c _ data ecc => wfReq c && data.length == 64 && decide (ecc ≤ 2)
  | .forwardReceive c _ => wfReq c
  | .accelCoherentAccess a _ _ _ => wfAddr a
  | .hostBar2Access p off _ _ fx => wfPcie p && wfAddr off && wfMemFx fx
  | .cpxFlush d => wfDie d
  | .cpxFlushDone d dirty => wfDie d && dirty.all fun x => x.2.length == 64
  | .cpxFreqChange d _ => wfDie d
  | .ctxArm c => wfCtx c
  | .ctxTeardown c => wfCtx c
  | .ctxKeyWrite c _ _ => wfCtx c
  | .faultReport reps => wfReports reps
  | .teardownStop c same => wfCtx c && same.all wfStream
  | .teardownDrain c => wfCtx c
  | .teardownClear c => wfCtx c
  | .teardownReport c => wfCtx c
  | .computeReset code => decide (code < 256)
  | .dumpDone => true
  | .dumpTimeout => true
  | .computeResetDone => true
  | .moduleReset code same => decide (code < 256) && same.all fun c => decide (c < 256)
  | .rstUnmap _ => true
  | .rstOosAck _ => true
  | .ageTick => true
  | .ageLogWrite => true
  | .monitorSample m _ => wfMonitor m
  | .droopEvent x _ => wfSite x
  | .protectiveTrip code => decide (code < 256)
  | .protectiveRelease => true
  | .energyCharge => true
  | .controllerUpdate => true
  | .ballastUpdate => true
  | .quietEntry _ => true
  | .powerEntryDone => true
  | .wakeEvent _ => true
  | .powerExitDone => true
  | .pwrWakeWrite _ => true
  | .registerWrite a _ src same => wfAddr a && wfSource src && same.all fun w => wfSource w.2
  | .rcRead a _ src => wfAddr a && wfSource src
  | .pgEventClear b i _ _ => wfPage b i
  | .pgClampedClear b i _ _ => wfPage b i
  | .pgQuiesce b i _ => wfPage b i
  | .pgResume b i => wfPage b i
  | .pciRetrain p => wfPcie p
  | .pciHotReset p => wfPcie p
  | .pcieLinkChange p _ speed width _ _ _ => wfPcie p && decide (speed < 16) && decide (width ≤ 16)
  | .pcieFundamentalReset => true
  | .powerOnSequence f => f.badLanes.all (fun b => wfStack b.1) && decide (f.smbAddr < 8)
  | .fwupStart => true
  | .fwupDone _ => true
  | .lcsGo _ => true
  | .lcsBurnDone rows => decide (rows ≤ 3)
  | .tamperEvent src => decide (src < 16)
  | .fusProgDebugLock => true
  | .fusProgRollbackSet => true
  | .fusProgKeyHash k => decide (k < 4)
  | .fusProgDone _ => true
  | .logRecordCommit type key body => decide (type < 256) && decide (key < 65536) && decide (body.length ≤ 4064)
  | .logGc => true
  | .logExport => true
  | .logExportDone => true
  | .tapDieSelect t => t.all fun x => x.fails.all fun f => decide (f.1 < 256) && decide (f.2 < 65)
  | .tapBackdoor a _ => wfAddr a
  | .modResetNLow _ => true
  | .modResetNRelease => true
  | .mctpMessage _ inst addr => decide (addr < 128) && decide (inst < 1024)
  | .linkTrainingDone p => wfPort p
  | .flitTransmission p => wfPort p
  | .powerLoss _ => true
  | .lidClose => true
  | .notBeforeExit id => wfStream id
  | .refreshManagementRequest k => wfStack k

end Sys2Proof
end

