-- ==== Sys2Proof/Safety.lean ====
section
/-! DEFINITION. What counts as a sound state and a safe step, and what a command completes with, in the terms the
statements use. -/

namespace Sys2Proof.Machine

/-- The memory keeps its canonical form: addresses strictly rising and no byte listed that an unlisted address reads. -/
def State.memWf (s : State) : Prop := Memory.wf s.mem = true

/-- Two states hold the same memory, byte for byte. -/
def State.sameMem (s t : State) : Prop := ∀ a : Nat, t.byte a = s.byte a

/-- Two states hold the same value in every register but those at the offsets `ks`. -/
def State.regsBut (s t : State) (ks : List Nat) : Prop := ∀ k : Nat, k ∉ ks → t.reg k = s.reg k

/-- Offset of PG_EVENT of a page (R452). -/
def evKey (block inst : Nat) : Nat := regKey block inst 0x20

/-- Beside the mesh, only what the charge of a hop may change (R169 to R171) differs: a counter, its energy, and the
marks of a class that the charge exhausts. -/
def State.onlyCharged (s t : State) (cls : Nat) : Prop :=
  t = { s with net := t.net, spent := t.spent, power := t.power, regs := t.regs, imsic := t.imsic, out := t.out } ∧
    s.regsBut t [F.TOL_HELD_RESOURCES.key cls 0, F.TOL_HELD_XINGS_COUNT.key cls 0, evKey 0x16 cls]

/-- Event bit `i` of a page is set. -/
def State.hasEvent (s : State) (block inst i : Nat) : Prop := bits (s.reg (evKey block inst)) i 1 = 1

/-- A command answers a next state of which `P` holds. -/
def State.runs (s : State) (c : Instr) (P : State → Prop) : Prop := ∃ t : State, exec c s = .next t ∧ P t

/-- A 48-bit counter after one more (R419): it saturates. -/
def counted (v : Nat) : Nat := min (v + 1) (2 ^ 48 - 1)

/-- The packet `p` is taken out of the mesh and answered from its target with a STATUS and data (R23, R24). -/
def State.responds (s t : State) (p : Packet) (status : Nat) (data : List Byte) : Prop :=
  ∃ q : Packet, t.net = (s.takePacket p).net ++ [(p.dest, q)] ∧ q.dest = p.src ∧ q.src = p.dest ∧ q.vc = 2 ∧ q.op = 5 ∧
    q.ctx = p.ctx ∧ q.gen = p.gen ∧ q.status = status ∧ q.inl ++ q.data = data

/-- Nothing but stream `id` changes, which becomes `v`. -/
def State.onlyStream (s t : State) (id : Nat) (v : Stream) : Prop :=
  t = { s with streams := t.streams } ∧ t.stream id = v ∧ ∀ j : Nat, j ≠ id → t.stream j = s.stream j

/-- No phase record is written of a stream's waits: it is no stage's main stream, or its stage writes none by itself (R226). -/
def State.noLwait (s : State) (id : Nat) : Prop := ∀ g : Nat, s.stageOf id = some g → s.rd F.PHT_CFG_AUTO g = 0

/-- The stream runs no deferral entry (R216). -/
def State.noRuns (s : State) (id : Nat) : Prop := ∀ g : Nat, g < 16 → s.rd F.DEF_CFG_MAIN g = id → (s.stage g).runs = []

/-- Nothing but core `c` changes, which becomes `v`. -/
def State.onlyCore (s t : State) (c : Nat) (v : Core) : Prop :=
  t = { s with cores := t.cores } ∧ t.core c = v ∧ ∀ j : Nat, j ≠ c → t.core j = s.core j

/-- A unit of a site that is neither in reset nor frozen runs. -/
def State.siteRuns (s : State) (site : Nat) : Prop := s.hold = none ∧ s.frozen site = false

/-- The manifest `d` has completed on its stream's list of issued manifests, with at least the STATUS bits `st`. -/
def State.completed (t : State) (d : Delivered) (st : Nat) : Prop :=
  ∃ i ∈ (t.stream d.stream).issued, i.d = d ∧ i.complete = true ∧ i.status &&& st = st

/-- ... and the engine that held it has nothing in hand. -/
def State.finished (s t : State) (d : Delivered) (st : Nat) : Prop :=
  t.completed d st ∧ ∀ e : Engine, s.engineOf d.stream d.words = some e → (t.engineQ (engineKey e)).cur = none

/-- No regulator holds an operation of the manifest `d` that reads and writes these sectors from a mesh node, and no snapshot has
still to save a chunk it writes: it runs at once (R171, R293, R324). -/
def State.passes (s : State) (d : Delivered) (node : Nat) (reads writes : List Nat) : Prop :=
  (s.saveAhead writes).1 = true ∧
    match s.owedOf d with
    | some secs => (s.admitSectors (s.classOf d.ctx) secs).1 = []
    | none =>
      let flits := s.meshFlits node false reads + s.meshFlits node true writes
      (flits = 0 ∨ s.tollHeld (s.classOf d.ctx) 3 node = false) ∧
        ((s.chargeMesh (s.classOf d.ctx) node flits).admitSectors (s.classOf d.ctx) (reads ++ writes)).1 = []

/-- No toll meters the class and no stack is CRITICAL: no regulator holds it (R171). -/
def State.unmeteredClass (s : State) (cls : Nat) : Prop :=
  (∀ res : Nat, s.baseToll cls res = unmetered) ∧ ∀ k : Nat, (s.stack k).critical = false

/-- No meter of class 63 holds a job of the firmware (R168, R171). -/
def State.jobPasses (s : State) (j : FwJob) : Prop :=
  s.heldMeter 63 27 (s.meshFlits 27 (s.jobMeter j).2.2 (sectors (s.jobMeter j).1 (s.jobMeter j).2.1))
    (sectors (s.jobMeter j).1 (s.jobMeter j).2.1) = none

/-- An access passes its meters at once, and none of its sender waits before it (R168, R171, R377, R383). -/
def State.busPasses (s : State) (x : BusAcc) : Prop :=
  let m := s.busMeter x
  s.busBehind x = false ∧
    s.heldMeter m.1 m.2.1 (s.meshFlits m.2.1 m.2.2.2.2 (sectors m.2.2.1 m.2.2.2.1)) (sectors m.2.2.1 m.2.2.2.1) = none

/-- A coherent line takes a write at once: in hub memory or an interface of bulk memory that is online, its cells clean, and no
checkpoint holds it. -/
def State.takesLine (s : State) (line : Nat) : Prop :=
  s.unsavedChunk (64 * line) 64 = none ∧ s.cells = [] ∧
    (s.region (64 * line) = .hubmem ∨ ∃ c : Nat, s.region (64 * line) = .bulk c ∧ s.rd F.BLK_CTRL_OFFLINE c = 0)

/-- The list a CKPT manifest names, as its windows show it. -/
def State.listBytes (s : State) (d : Delivered) (a n : Nat) : List Byte := (s.winBytes d.wins a n).getD (List.replicate n 0)

/-- The checkpoint engine can read the list a manifest names: its windows grant all of it, no meter of class 60 holds the read and
no part of it fails (R321). -/
def State.readsList (s : State) (d : Delivered) (mode : Nat) : Prop :=
  let a := opAddr (mOperand d.words 0)
  let size := listSize mode (leNat (s.listBytes d a 4))
  s.structFails d a size = [] ∧ ∃ f : Nat → Nat, s.segIn d.wins .r a size = some f ∧
    s.heldMeter 60 27 (s.meshFlits 27 false ((sectors a size).map fun x => f (max x a))) ((sectors a size).map fun x => f (max x a)) = none

/-- Some region of a list lies in the coherent window or in hub memory, so that a snapshot sweeps the directory first (R326). -/
def State.coherentList (s : State) (rs : List Region) : Bool :=
  rs.any fun r => s.isCoherent r.addr || s.isCoherent (r.addr + r.len - 1)

/-- From `s` to `t` a snapshot of the regions `rs` began with its head written at T0 (R322, R329). -/
def State.snapshotBegun (s t : State) (rs : List Region) : Prop :=
  t.ckpt.st = .quiesced ∧ t.ckpt.headDone = true ∧ t.ckpt.t0 = s.now ∧ t.ckpt.reason = 0 ∧ t.ckpt.regions = rs ∧
    t.ckpt.chunks = allChunks (s.rd F.CKP_CFG_CHUNK_LOG) rs ∧
    t.ckpt.written.take 8 = leBytes 4 0x504B_5A31 ++ leBytes 2 1 ++ leBytes 1 s.fuses.stepping ++
      leBytes 1 (s.rd F.CKP_CFG_CHUNK_LOG)

/-- From `s` to `t` a snapshot of regions `rs` waits for the sweep of the directory (R326). -/
def State.sweepBegun (s t : State) (rs : List Region) : Prop :=
  t.ckpt.st = .quiesced ∧ t.ckpt.sweeping = true ∧ t.ckpt.headDone = false ∧
    t.ckpt.chunks = allChunks (s.rd F.CKP_CFG_CHUNK_LOG) rs

/-- From `s` to `t` a core's operation wrote: memory changes at the ranges `rs` alone, and beside it only the status of its
manifest, the core's counts and flag and what its word reads note. -/
def State.coreWrote (s t : State) (rs : List (Nat × Nat)) : Prop :=
  t = { s with mem := t.mem, cells := t.cells, streams := t.streams, vetoes := t.vetoes, regs := t.regs, imsic := t.imsic, out := t.out,
               free := t.free } ∧
    ∀ a : Nat, (∀ r ∈ rs, s.phys r.1 ≠ a) → t.byte a = s.byte a

/-- A word of a core's object reads without a taint of its own: it is in no bank, or its bank is ON and its cells are clean. -/
def State.cleanWord (s : State) (o : Obj) (i : Nat) : Prop :=
  ∀ (a : Nat) (sp : Bool), o = .line a sp →
    s.bankAwake (lineWord a sp i / 0x1000_0000) (lineWord a sp i / 0x10_0000 % 256) = true ∧ s.flaws 8 (lineWord a sp i) 64 = []

/-- Bytes [a, a + n) are hub memory that no checkpoint holds. -/
def State.hubBytes (s : State) (a n : Nat) : Prop :=
  (∀ k : Nat, k < n → s.region (a + k) = .hubmem) ∧ ∀ b m : Nat, a ≤ b → b + m ≤ a + n → s.unsavedChunk b m = none

/-- The manifest `h` is all its stream's store holds, ready to issue as the PPUT `d` with no finding and no wait record, and the
pontoon `p` has it as its one request and nothing that a meter holds (R239). -/
def State.asksAlone (s : State) (p : Nat) (d : Delivered) (h : Decoded) : Prop :=
  s.ponOn p = true ∧ (∃ clk : Nat, (s.pontoon p).waiting = [(d, [], clk)]) ∧ (s.pontoon p).granted = [] ∧ s.stillHead d = some h ∧
    (s.stream d.stream).store = [h] ∧ s.findings d.stream h = [] ∧ s.issuesNop d.stream h d = false ∧ s.stageOf d.stream = none ∧
    h.place < 3 ∧ ∀ i ∈ (s.stream d.stream).issued, i.d.seq ≠ d.seq

/-- A dense plain i32 tensor of one row of one block. -/
def Handle.oneBlock (h : Handle) : Prop := h.fmt = 4 ∧ h.dims = [32, 1, 1, 1]

/-- From `s` to `t` the persistent log took one record, the next in SEQ order, with this type, key and body (R482). -/
def State.logged (s t : State) (type key : Nat) (body : List Byte) : Prop :=
  t.log.seq = s.log.seq + 1 ∧ ∃ (i : Nat) (r : LogRec), r ∈ (t.log.block i).recs ∧ r.type = type ∧ r.key = key % 65536 ∧
    r.seq = s.log.seq + 1 ∧ r.body = body.take 4064 ∧ r.crcOk = true

/-- What a boot from step 2 needs: a good image, a part that is not end-of-life, a closed lid, a log with room and no lane
repairs to load, and at most one FAILED edge (R469). -/
def State.bootable (s : State) : Prop :=
  s.bootImage ≠ none ∧ s.fuses.lifecycle ≠ 5 ∧ s.pins.lidOpen = false ∧ 16 ≤ s.log.freeBlocks ∧ s.failedEdges.length < 2 ∧
    ∀ b ∈ s.log.blocks, ∀ r ∈ b.2.recs, r.type ≠ 1

/-- The module has booted: it runs, at step 15, with MOD_READY high. -/
def State.booted (t : State) : Prop := t.hold = none ∧ t.boot.step = 15 ∧ t.pins.modReady = true

/-- One more module reset does not pass the escalation limit (R417). -/
def State.noEscalation (s : State) : Prop := s.modInWindow + 1 ≤ s.rd F.RST_ESC_MOD_LIMIT

/-- This module takes no part in a running census, so that a port's change of state stays with the port (R369). -/
def State.noCensus (s : State) : Prop := s.census.root = false ∧ s.census.st ≠ .running

/-- Nothing uses port `p`: no ferry's bond, no landing entry that fills, no forwarded transfer, not the tide. -/
def State.portUnused (s : State) (p : Nat) : Prop :=
  s.rd F.TID_CFG_UP_PORT ≠ p ∧ (∀ n : Nat, n < 128 → p ∉ s.bond n) ∧
    (∀ l ∈ s.landings, ∀ e ∈ l.2.entries, p ∉ e.2.feeds) ∧ ∀ e ∈ s.ports, ∀ x ∈ e.2.transit, e.1 ≠ p ∧ x.inPort ≠ p

/-- Nothing but port `p` changes. -/
def State.onlyPort (s t : State) (p : Nat) : Prop :=
  t = { s with ports := t.ports, out := t.out } ∧ ∀ q : Nat, q ≠ p → t.port q = s.port q

/-- Address of a register of a page (R449). -/
def regAddr (block inst off : Nat) : Nat := regBase + block * 0x40_0000 + inst * 0x1000 + off

/-- The ranges a COMMIT of a shard writes or reads (R319): destination weights and their scales, both slots, the commit
word and, under ZERO_GRAD, the gradient's data. -/
def Shard.commitRanges (h : Shard) : List (Nat × Nat) :=
  [(h.wd, h.n * fmtBits h.fmt / 8), (h.wds, h.n / 32), (h.slot, 2 * h.slotBytes), (h.commit, 8)] ++
    (if h.zero then [(h.g, 4 * h.n)] else [])

/-- The value a lane of a block keeps without saturating (R70). -/
def fitsLane (v : Int) : Prop := v.natAbs ≤ 2 ^ 31 - 1

/-- A step is safe where it answers a next state whose memory is in canonical form. -/
def State.safe (s : State) : Prop := ∃ t : State, step s = .next t ∧ t.memWf

end Sys2Proof.Machine
end

