-- ==== Sys2Proof/Certificates/Slice0/Obligations.lean ====
section
/-! DEFINITION. The statements for the provers: what each command leaves, by the numbered rules. -/

open Sys2Proof Sys2Proof.Machine

/-! ### The machine -/

/-- The block runs its commands first in, first out: a step with a command in front is `exec` of it on the state with
the queue's rest; with no command waiting the tide counts (the model's choice, log entry 1). -/
def Obligations.StepRunsTheFrontCommand : Prop :=
  (∀ (c : Instr) (rest : List Instr) (s : State), step { s with pending := c :: rest } = exec c { s with pending := rest }) ∧
    ∀ s : State, s.pending = [] → step s = .next s.tick

/-- The memory after reset is in canonical form, lists nothing and no command waits.
That an unlisted byte reads as zero is the model's choice, log entry 2. -/
def Obligations.ResetMemoryIsCanonical : Prop :=
  State.reset.memWf ∧ State.reset.pending = [] ∧ ∀ a : Nat, State.reset.byte a = 0

/-- No command ends a run: each answers a next state, whatever the state.
That no fault or refusal is left is the model's form, log entry 41. -/
def Obligations.EveryCommandAnswersANextState : Prop :=
  ∀ (c : Instr) (s : State), ∃ t : State, exec c s = .next t

/-- Every step keeps the memory in canonical form. -/
def Obligations.StepKeepsMemoryCanonical : Prop :=
  ∀ s t : State, s.memWf → step s = .next t → t.memWf

/-! ### The mesh (chapter 01) -/

/-- R25, R26: a packet on its ordinary lane moves one node along X until it is in its destination's column, then along Y,
whatever else the state holds; at its destination it stays.  A request to the hub has as its destination the hub node
nearest its sender in x and in y.  Only the mesh, and the charge of the hop, change.
Where the charge of the hop is made is the model's reading, log entry 47. -/
def Obligations.MeshHopMovesXThenY : Prop :=
  ∀ (s : State) (node n d m : Nat) (p : Packet), s.hold = none → node < 64 → m < 64 → p.escape = false →
    m = (if isHub p.dest = true ∧ p.vc = 1 then
        8 * (if p.src / 8 ≤ 3 then 3 else 4) + (if p.src % 8 ≤ 3 then 3 else 4) else p.dest) →
    (node ≠ m →
      (d, n) = (if node % 8 < m % 8 then (1, node + 1) else if m % 8 < node % 8 then (3, node - 1)
        else if node / 8 < m / 8 then (2, node + 8) else (0, node - 8)) →
      s.edgeState node d ≠ 2 → (s.edge (n * 4 + (d + 2) % 4)).steering = false → s.tollHeld (s.classOf p.ctx) 3 node = false →
      s.runs (.meshHop node p true) fun t =>
        t.net = (s.takePacket p).net ++ [(n, p)] ∧ s.onlyCharged t (s.classOf p.ctx)) ∧
    (node = m → s.runs (.meshHop node p true) fun t => t = { s with net := (s.takePacket p).net ++ [(node, p)] })

/-- R36: a packet whose next hop is a FAILED edge takes one detour step onto its escape lane: +Y, or -Y at y = 7, at an X
edge; +X, or -X at x = 7, at a Y edge.  On the escape lane a packet is routed X then Y where the failed edge is an X edge,
Y then X where it is a Y edge, and stays on that lane. The model's reading of the escape lanes' order: log entry 52. -/
def Obligations.MeshHopDetoursAtFailedEdge : Prop :=
  ∀ (s : State) (node n d e m : Nat) (p : Packet), s.hold = none → node < 64 → m < 64 → node ≠ m →
    m = (if isHub p.dest = true ∧ p.vc = 1 then
        8 * (if p.src / 8 ≤ 3 then 3 else 4) + (if p.src % 8 ≤ 3 then 3 else 4) else p.dest) →
    s.tollHeld (s.classOf p.ctx) 3 node = false →
    (p.escape = false → d = (if node % 8 < m % 8 then 1 else if m % 8 < node % 8 then 3
        else if node / 8 < m / 8 then 2 else 0) → s.edgeState node d = 2 →
      (e, n) = (if d % 2 = 1 then (if node / 8 = 7 then (0, node - 8) else (2, node + 8))
        else (if node % 8 = 7 then (3, node - 1) else (1, node + 1))) →
      s.edgeState node e ≠ 2 → (s.edge (n * 4 + (e + 2) % 4)).steering = false →
      s.runs (.meshHop node p true) fun t =>
        t.net = (s.takePacket p).net ++ [(n, { p with escape := true })] ∧ s.onlyCharged t (s.classOf p.ctx)) ∧
    ∀ k : Nat, p.escape = true → (∃ a : Nat, a < 64 ∧ s.edgeState a k = 2) → (k = 1 ∨ k = 2) →
      (∀ a j : Nat, a < 64 → (j = 1 ∨ j = 2) → s.edgeState a j = 2 → j = k) →
      (d, n) = (if (k = 1 ∨ node / 8 = m / 8) ∧ node % 8 < m % 8 then (1, node + 1)
        else if (k = 1 ∨ node / 8 = m / 8) ∧ m % 8 < node % 8 then (3, node - 1)
        else if node / 8 < m / 8 then (2, node + 8) else (0, node - 8)) →
      s.edgeState node d ≠ 2 → (s.edge (n * 4 + (d + 2) % 4)).steering = false →
      s.runs (.meshHop node p true) fun t =>
        t.net = (s.takePacket p).net ++ [(n, p)] ∧ s.onlyCharged t (s.classOf p.ctx)

/-- R30: a flit whose CRC does not match is replayed by the router it leaves: the packet stays there and MSH_CRC_ERR of
that router counts. That the sender's page counts is the model's reading, log entry 46. -/
def Obligations.MeshHopCountsBadCrc : Prop :=
  ∀ (s : State) (node n d : Nat) (p : Packet), s.hold = none → node < 64 → s.routeDir node p = some (d, p.escape) →
    neighbour node d = some n → s.edgeState node d ≠ 2 → (s.edge (n * 4 + (d + 2) % 4)).steering = false →
    s.tollHeld (s.classOf p.ctx) 3 node = false →
    s.runs (.meshHop node p false) fun t =>
      t.rd F.MSH_CRC_ERR_COUNT node = counted (s.rd F.MSH_CRC_ERR_COUNT node) ∧
        t.net = (s.takePacket p).net ++ [(node, p)] ∧ t = { s with net := t.net, regs := t.regs, imsic := t.imsic, out := t.out } ∧
        s.regsBut t [F.MSH_CRC_ERR_COUNT.key node 0, evKey 0x05 node]

/-- R24, R40: a READ of bytes that no error touches is answered with the bytes that stand at its address, from hub memory
and from an ON bank of near SRAM; from a hole with zeros and STATUS 2, recorded at the source node's MSH page.
The length read is the model's reading, log entry 48. -/
def Obligations.MeshReadAnswersData : Prop :=
  ∀ (s : State) (p : Packet) (fx : MemFx) (n : Nat), s.hold = none → p.gen = s.gen p.ctx → p.addr < 2 ^ 64 → pageOf p.addr = none →
    n = packetReadLen p → fxClean fx = true → s.cells = [] → (∀ a ∈ sectors p.addr n, s.meterOf a = none) →
    (s.region p.addr = .hubmem → (∀ i : Nat, i < n → s.region (p.addr + i) = .hubmem) → s.runs (.meshRead p fx) fun t =>
      s.responds t p 0 (s.peek p.addr n) ∧ t = { s with net := t.net }) ∧
    (∀ x b : Nat, s.region p.addr = .sram x b → (∀ i : Nat, i < n → s.region (p.addr + i) = .sram x b) →
      s.bankAwake x b = true → s.runs (.meshRead p fx) fun t =>
      s.responds t p 0 (s.peek p.addr n) ∧ t = { s with net := t.net }) ∧
    (s.region p.addr = .hole → (∀ i : Nat, i < n → s.region (p.addr + i) = .hole) → s.runs (.meshRead p fx) fun t =>
      s.responds t p 2 (List.replicate n 0) ∧ t.rd F.MSH_HOLE_ADDR_ADDR p.src = p.addr ∧
        t.hasEvent 0x05 p.src 3 ∧ t = { s with net := t.net, regs := t.regs, imsic := t.imsic, out := t.out } ∧
        s.regsBut t [F.MSH_HOLE_ADDR_ADDR.key p.src 0, evKey 0x05 p.src])

/-- R24, R40, R138: a WRITE to hub memory stores its payload at its address and nothing else, and is answered; a valid
ticket it carries then adds its increment to its bollard; a WRITE to a hole is discarded with STATUS 2, its ticket with
it (the model's reading, log entry 130). -/
def Sys2Proof.Claims.MeshWriteStoresPayload : Prop :=
  ∀ (s : State) (p : Packet) (fx : MemFx), s.hold = none → p.gen = s.gen p.ctx → p.addr < 2 ^ 64 → pageOf p.addr = none →
    (∀ a ∈ sectors p.addr (packetPayload p).length, s.meterOf a = none) →
    s.unsavedChunk p.addr (packetPayload p).length = none → fxClean fx = true →
    (s.region p.addr = .hubmem → (∀ i : Nat, i < (packetPayload p).length → s.region (p.addr + i) = .hubmem) →
      s.runs (.meshWrite p fx) fun t =>
        s.responds t p 0 [] ∧ (∀ (i : Nat) (h : i < (packetPayload p).length), t.byte (p.addr + i) = (packetPayload p)[i]) ∧
        (∀ a : Nat, (a < p.addr ∨ p.addr + (packetPayload p).length ≤ a) → t.byte a = s.byte a) ∧
        (tktValid p.ticket = false → t = { s with net := t.net, mem := t.mem }) ∧
        (tktValid p.ticket = true → tktError p.ticket = false → tktGen p.ticket = s.gen (tktCtx p.ticket) →
          s.idHole (tktBollard p.ticket) = false → (s.bollard (tktBollard p.ticket)).owner = tktCtx p.ticket →
          (t.bollard (tktBollard p.ticket)).count =
              (s.bollard (tktBollard p.ticket)).count + BitVec.ofNat 32 (tktInc p.ticket) ∧
            (∀ b : Nat, b ≠ tktBollard p.ticket → t.bollard b = s.bollard b) ∧
            t = { s with net := t.net, mem := t.mem, bollards := t.bollards, waiters := t.waiters, streams := t.streams,
                         regs := t.regs, imsic := t.imsic, out := t.out })) ∧
    (s.region p.addr = .hole → (∀ i : Nat, i < (packetPayload p).length → s.region (p.addr + i) = .hole) →
      s.runs (.meshWrite p fx) fun t =>
      s.responds t p 2 [] ∧ t.rd F.MSH_HOLE_ADDR_ADDR p.src = p.addr ∧ t.hasEvent 0x05 p.src 3 ∧
        t = { s with net := t.net, regs := t.regs, imsic := t.imsic, out := t.out } ∧
        s.regsBut t [F.MSH_HOLE_ADDR_ADDR.key p.src 0, evKey 0x05 p.src])

/-- R237, R245: an ADD packet with IADD of plain i32 stores, in each of the 32 lanes at its address, the sum modulo 2^32
of the lane in memory and the packet's lane, and is answered.
Where the packet holds the block is the model's choice, log entry 38. -/
def Obligations.MeshAddCombinesBlock : Prop :=
  ∀ (s : State) (p : Packet) (fx : MemFx) (k off : Nat), s.hold = none → p.gen = s.gen p.ctx → packetFmt p = 4 → packetOp p = 1 →
    p.addr % 128 = 0 → s.region p.addr = .hbm k off → (∀ a ∈ sectors p.addr 128, s.meterOf a = none ∨
      s.baseToll (s.classOf p.ctx) 1 = unmetered ∧ ∀ j : Nat, (s.stack j).critical = false) →
    s.unsavedChunk p.addr 128 = none → s.rd F.HBM_CTRL_OFFLINE k = 0 → fxClean fx = true → s.cells = [] →
    s.runs (.meshAdd p fx []) fun t =>
      s.responds t p 0 [] ∧
        t.mem = (s.poke p.addr (((s.blockAt 4 32 p.addr (packetScale p) true).m.zip (packetBlock p).m).flatMap fun xy =>
          leBytes 4 (code 32 (xy.1 + xy.2)))).mem ∧
        t = { s with net := t.net, mem := t.mem, spent := t.spent, power := t.power }

/-- R24, R138, R139: a SIGNAL packet's valid ticket adds its increment to its bollard and is answered. -/
def Sys2Proof.Claims.MeshSignalCounts : Prop :=
  ∀ (s : State) (p : Packet), s.hold = none → p.gen = s.gen p.ctx → tktValid p.ticket = true → tktError p.ticket = false →
    tktGen p.ticket = s.gen (tktCtx p.ticket) → s.idHole (tktBollard p.ticket) = false →
    (s.bollard (tktBollard p.ticket)).owner = tktCtx p.ticket →
    s.runs (.meshSignal p) fun t =>
      s.responds t p 0 [] ∧
        t.bollard (tktBollard p.ticket) = { s.bollard (tktBollard p.ticket) with
          count := (s.bollard (tktBollard p.ticket)).count + BitVec.ofNat 32 (tktInc p.ticket) } ∧
        (∀ b : Nat, b ≠ tktBollard p.ticket → t.bollard b = s.bollard b) ∧
        t = { s with net := t.net, bollards := t.bollards, waiters := t.waiters, streams := t.streams, regs := t.regs, imsic := t.imsic, out := t.out }

/-- R24, R40, R138, R139: the requests that leave something at their target. -/
def Obligations.MeshWritesAndSignals : Prop :=
  Claims.MeshWriteStoresPayload ∧ Claims.MeshSignalCounts

/-- R400: a mesh request whose tag is not its context's current one is dropped at its target: CTX_STALE of the context
counts, a RESP with STATUS 3 goes back, and memory and every bollard stay. -/
def Sys2Proof.Claims.StaleRequestsAreDropped : Prop :=
  ∀ (s : State) (p : Packet) (fx : MemFx), s.hold = none → p.gen ≠ s.gen p.ctx →
    ∀ c ∈ [Instr.meshRead p fx, .meshWrite p fx, .meshAdd p fx []],
      s.runs c fun t => s.responds t p 3 [] ∧ t.rd F.CTX_STALE_COUNT p.ctx = counted (s.rd F.CTX_STALE_COUNT p.ctx) ∧
        t = { s with net := t.net, regs := t.regs, imsic := t.imsic, out := t.out } ∧
        s.regsBut t [F.CTX_STALE_COUNT.key p.ctx 0, evKey 0x17 p.ctx]

/-- R24, R28, R400: a response reaches its requester; a stale one is dropped and counted, one with STATUS 3 discarded.
A CTRL packet leaves the mesh for its unit. -/
def Sys2Proof.Claims.MeshRespAndCtrlAreDelivered : Prop :=
  ∀ (s : State) (p : Packet), s.hold = none →
    (p.status = 3 → s.runs (.meshResp p) fun t => t = s.takePacket p) ∧
    (p.status ≠ 3 → p.gen ≠ s.gen p.ctx → s.runs (.meshResp p) fun t =>
      t.rd F.CTX_STALE_COUNT p.ctx = counted (s.rd F.CTX_STALE_COUNT p.ctx) ∧ t.resps = s.resps ∧
        t = { s.takePacket p with regs := t.regs, imsic := t.imsic, out := t.out } ∧ s.regsBut t [F.CTX_STALE_COUNT.key p.ctx 0, evKey 0x17 p.ctx]) ∧
    (p.status = 0 → p.gen = s.gen p.ctx → s.runs (.meshResp p) fun t =>
      t = { s.takePacket p with resps := s.resps ++ [p] }) ∧
    s.runs (.meshCtrl p) fun t => t = { s.takePacket p with out := t.out } ∧ ∃ b : List Nat, t.out = s.out ++ [.ctrl p.dest "CTRL" b]

/-- R24, R28, R400: what becomes of stale requests, of responses and of control packets. -/
def Obligations.StaleAndFinishedPacketsLeave : Prop :=
  Claims.StaleRequestsAreDropped ∧ Claims.MeshRespAndCtrlAreDelivered

/-- R30, R31: a wire that fails one check flit is remembered; one that fails two in a row is marked failed, its group is
steered onto its unused spare, SPARES_USED counts, SPARE_USED is raised at both ends (R42), and the direction sends
nothing until it has steered. The model's reading of repeated failures: log entry 49. -/
def Sys2Proof.Claims.CheckFlitSteersFailedWire : Prop :=
  ∀ (s : State) (node dir n w : Nat), s.hold = none → node < 64 → dir < 4 → neighbour node dir = some n → w < 2048 →
    s.edgeState node dir = 0 → (isHub node = false ∨ isHub n = false) → s.rd (edgeFld F.MSH_EDGE_SPARES_USED dir) node < 64 →
    w ∉ (s.edge (node * 4 + dir)).failed →
    (w ∉ (s.edge (node * 4 + dir)).lastBad → s.runs (.checkFlit node dir [w]) fun t =>
      t = s.setEdge (node * 4 + dir) { s.edge (node * 4 + dir) with lastBad := [w] }) ∧
    (w ∈ (s.edge (node * 4 + dir)).lastBad → w / 32 ∉ (s.edge (node * 4 + dir)).steered →
      2048 + w / 32 ∉ (s.edge (node * 4 + dir)).failed → s.runs (.checkFlit node dir [w]) fun t =>
        t.edge (node * 4 + dir) = { lastBad := [w], failed := (s.edge (node * 4 + dir)).failed ++ [w],
                                    steered := (s.edge (node * 4 + dir)).steered ++ [w / 32], steering := true } ∧
        t.rd (edgeFld F.MSH_EDGE_SPARES_USED dir) node = s.rd (edgeFld F.MSH_EDGE_SPARES_USED dir) node + 1 ∧
        t.hasEvent 0x05 node 0 ∧ t.hasEvent 0x05 n 0 ∧ t.edgeState node dir = 0 ∧
        t = { s with edges := t.edges, regs := t.regs, imsic := t.imsic, out := t.out, log := t.log, traces := t.traces })

/-- R32, R42: when a group fails whose spare is in use, the edge's STATE becomes HALF at both ends, on the half that does
not hold the group, with a head latency of 13 site clocks; and a steered direction sends again. -/
def Sys2Proof.Claims.SecondFailureHalvesEdge : Prop :=
  ∀ (s : State) (node dir n w : Nat), s.hold = none → node < 64 → dir < 4 → neighbour node dir = some n →
    (w < 2048 → s.edgeState node dir = 0 → isHub node = false → isHub n = false →
      s.rd F.MSH_FLOOR_FLOOR node = 0 → s.rd F.MSH_FLOOR_FLOOR n = 0 →
      w ∈ (s.edge (node * 4 + dir)).lastBad → w ∉ (s.edge (node * 4 + dir)).failed →
      w / 32 ∈ (s.edge (node * 4 + dir)).steered → s.runs (.checkFlit node dir [w]) fun t =>
        (∀ e ∈ [(node, dir), (n, opposite dir)],
          t.rd (edgeFld F.MSH_EDGE_STATE e.2) e.1 = 1 ∧ t.rd (edgeFld F.MSH_EDGE_LIVE_HALF e.2) e.1 = 1 - w / 1024 ∧
            t.rd (edgeFld F.MSH_EDGE_LAT_CLK e.2) e.1 = 13 ∧ t.hasEvent 0x05 e.1 1) ∧
        t = { s with edges := t.edges, regs := t.regs, imsic := t.imsic, out := t.out, log := t.log, traces := t.traces }) ∧
    s.runs (.steerDone node dir) fun t =>
      t = s.setEdge (node * 4 + dir) { s.edge (node * 4 + dir) with steering := false }

/-- R30 to R32, R42: check flits take failed wires out of use, and an edge whose spares are used runs at half width. -/
def Obligations.EdgesRepairThemselves : Prop :=
  Claims.CheckFlitSteersFailedWire ∧ Claims.SecondFailureHalvesEdge

/-! ### Streams, bollards and engine queues (chapters 04 and 05) -/

/-- R131, R132: START takes a replaying stream from IDLE to RUNNING; STOP with nothing issued takes it to STOPPED; RESUME
leaves TIMEOUT with the deadline ignored; a command in a state that does not list it changes nothing. -/
def Sys2Proof.Claims.StreamCommandsActInTheirStates : Prop :=
  ∀ (s : State) (id : Nat), s.hold = none → (s.stream id).stopping = false → (s.stream id).cancelling = false → s.noLwait id →
    ((s.stream id).st = .idle → s.idHole id = false → s.queueMode id = false → (s.stream id).store = [] →
      (s.stream id).gateReg = false → s.runs (.strStart id) fun t => s.onlyStream t id { s.stream id with st := .running }) ∧
    ((s.stream id).st = .running ∨ (s.stream id).st = .waiting ∨ (s.stream id).st = .held → (s.stream id).issued = [] →
      s.runs (.strStop id) fun t => s.onlyStream t id { s.stream id with st := .stopped }) ∧
    ((s.stream id).st = .timeout → s.runs (.strResume id) fun t =>
      t = { s with streams := t.streams } ∧ (t.stream id).dlIgnored = true ∧
        (t.stream id).st = (if t.blocked id then .waiting else .running) ∧ (t.stream id).store = (s.stream id).store ∧
        ∀ j : Nat, j ≠ id → t.stream j = s.stream j) ∧
    ((s.stream id).st ≠ .idle → (s.stream id).st ≠ .stopped → s.runs (.strStart id) fun t => t = s) ∧
    ((s.stream id).st ≠ .running → (s.stream id).st ≠ .waiting → (s.stream id).st ≠ .held → s.runs (.strStop id) fun t => t = s) ∧
    ((s.stream id).st ≠ .timeout → s.runs (.strResume id) fun t => t = s) ∧
    ((s.stream id).st ≠ .stopped → (s.stream id).st ≠ .done → s.runs (.strRewind id) fun t => t = s)

/-- R146 to R148: CANCEL discards what the stream has decoded and its waits, counts it as prefetched and, with nothing
issued, stops the stream with CANCELLED; readiness of the same clock is counted as a race.  REWIND returns a stopped
stream to index 0 and replay 0 with its parameters and counts kept.
The model's reading of discarded lists: log entry 69. -/
def Sys2Proof.Claims.CancelDiscardsAndRewindReturnsToStart : Prop :=
  ∀ (s : State) (id : Nat), s.hold = none → s.noLwait id → s.noRuns id →
    (∀ same : Bool, (s.stream id).st.active = true ∨ (s.stream id).st = .timeout → (s.stream id).issued = [] →
      s.runs (.strCancel id same) fun t =>
        (t.stream id).st = .stopped ∧ (t.stream id).store = [] ∧ (t.stream id).params = (s.stream id).params ∧
          (t.stream id).issueIdx = (s.stream id).issueIdx ∧
          t.waiters = s.waiters.filter (fun w => w.stream != id) ∧
          t.rd F.PIL_PREFETCH_COUNT (pilotOf (id / 256)) =
            min (s.rd F.PIL_PREFETCH_COUNT (pilotOf (id / 256)) + (s.stream id).store.length) (2 ^ 48 - 1) ∧
          t.rd F.STR_RACE_COUNT (id / 16) (id % 16) =
            (if same then counted (s.rd F.STR_RACE_COUNT (id / 16) (id % 16)) else s.rd F.STR_RACE_COUNT (id / 16) (id % 16)) ∧
          t.hasEvent 0x03 (id / 16) 2 ∧
          t = { s with streams := t.streams, waiters := t.waiters, regs := t.regs, imsic := t.imsic, out := t.out }) ∧
    ((s.stream id).st = .stopped ∨ (s.stream id).st = .done → (s.stream id).stopping = false → (s.stream id).cancelling = false →
      (s.stream id).store = [] → s.runs (.strRewind id) fun t =>
        (t.stream id).st = .idle ∧ (t.stream id).issueIdx = 0 ∧ (t.stream id).replay = 0 ∧ (t.stream id).store = [] ∧
          (t.stream id).issued = [] ∧ (t.stream id).params = (s.stream id).params ∧
          (t.stream id).strides = (s.stream id).strides ∧ (t.stream id).retired = (s.stream id).retired ∧
          t = { s with streams := t.streams, waiters := t.waiters })

/-- R128: the next manifest of the ring is fetched from STR_RING_BASE, patched from its replay's snapshot and stored, and
the decode position advances, back to 0 of the next replay at the ring's end; the fetch is charged to the stream's class
(R169).  A gated replay first registers its gate's wait and decodes nothing until it is met (R127). -/
def Obligations.DecodeStoresPatchedManifest : Prop :=
  ∀ (s c : State) (id a p : Nat) (bs : List Byte) (snap : List Word), s.siteRuns (id / 256) → s.nextFetch id = some a →
    p = pilotOf (id / 256) →
    (s.gated id = false → s.listDue id = none → s.fetchHeld id a = none → s.decodeTurn id = true → (s.stream id).decIdx ≠ 0 →
      (s.stream id).snapOf (s.stream id).decReplay = some snap →
      c = (s.chargeMesh (s.strClass id) p (s.meshFlits p false (sectors a 128))).chargeSectors (s.strClass id) (sectors a 128) →
      c.memRead p false a 128 MemFx.clean = (bs, 0, c) →
      s.runs (.manifestDecode id) fun t => ∃ d : Decoded,
        (t.stream id).store = (s.stream id).store ++ [d] ∧ d.words = patch (wordsOf bs) snap ∧ d.snap = snap ∧
          a = s.str F.STR_RING_BASE_BASE id * 128 + 128 * (s.stream id).decIdx ∧ d.addr = a ∧ d.idx = (s.stream id).decIdx ∧
          d.replay = (s.stream id).decReplay ∧ d.lost = false ∧
          (t.stream id).decIdx = (if s.ringLen id ≤ (s.stream id).decIdx + 1 then 0 else (s.stream id).decIdx + 1) ∧
          (t.stream id).decReplay = (s.stream id).decReplay + (if s.ringLen id ≤ (s.stream id).decIdx + 1 then 1 else 0) ∧
          t.rd F.PIL_DECODED_COUNT p = counted (s.rd F.PIL_DECODED_COUNT p) ∧
          t = { s with streams := t.streams, waiters := t.waiters, reports := t.reports, pilots := t.pilots, spent := t.spent,
                       power := t.power, regs := t.regs, imsic := t.imsic, out := t.out }) ∧
    (s.gated id = true → (s.stream id).gateReg = false →
      (s.bollard (s.str F.STR_GATE_BOLLARD id)).owner = s.strCtx id →
      atOrAfter 32 (s.bollard (s.str F.STR_GATE_BOLLARD id)).count.toNat (s.gateTarget id (s.stream id).decReplay) = false →
      s.poolUsed (pilotOf (s.str F.STR_GATE_BOLLARD id / 256)) < 2048 → s.runs (.manifestDecode id) fun t =>
        (t.stream id).gateReg = true ∧ (t.stream id).store = (s.stream id).store ∧
          t.waiters = s.waiters ++
            [⟨s.str F.STR_GATE_BOLLARD id, s.gateTarget id (s.stream id).decReplay, id, 4, false, false, false, false⟩] ∧
          t = { s with streams := t.streams, waiters := t.waiters })

/-- R129, R130: a head whose waits are met, whose NOT_BEFORE has passed, whose class has toll left and which its engine
accepts leaves the store for the issued list, as a NOP where a finding, a refused range or a failed read makes it one; a
PPUT waits for its grant (R239), a head that a toll holds shows HELD (R171), and one that waits stays. -/
def Obligations.IssueTakesReadyHead : Prop :=
  ∀ (s : State) (id : Nat) (d : Decoded) (rest : List Decoded), s.siteRuns (id / 256) → (s.stream id).st = .running →
    (s.stream id).store = d :: rest → s.blocked id = false →
    (s.headReady id = true → s.powerActive = true → s.issueHeld id (resolveWords d) = none →
      (s.issuesNop id d (s.deliver id d) = false → mOpcode d.words ≠ 0x18 ∧ s.accepts (resolveWords d) = true) →
      (∀ j ∈ (s.stream id).issued, j.d.seq ≠ (s.stream id).nextSeq) →
      s.runs (.manifestIssue id) fun t => ∃ i : Issued,
        (t.stream id).issued = (s.stream id).issued ++ [i] ∧ i.d.words = resolveWords d ∧ i.d.addr = d.addr ∧
          i.d.stream = id ∧ i.d.ctx = s.strCtx id ∧ i.d.gen = s.gen (s.strCtx id) ∧ i.d.seq = (s.stream id).nextSeq ∧
          i.asNop = s.issuesNop id d (s.deliver id d) ∧ i.idx = d.idx ∧ i.replay = d.replay ∧ i.place = d.place ∧
          i.tide = s.siteNow (id / 256) ∧ (t.stream id).store = rest ∧
          (t.stream id).issueIdx = (if d.place ≠ 0 then (s.stream id).issueIdx
            else if s.ringLen id ≤ d.idx + 1 then 0 else d.idx + 1) ∧
          (t.stream id).nextSeq = (s.stream id).nextSeq + 1 ∧
          (s.findings id d = [] → i.asNop = false → coreOpcode (mOpcode d.words) = false → s.stageOf id = none → d.place < 3 →
            i.complete = false ∧
            t = { s with streams := t.streams, engines := t.engines, waiters := t.waiters, reports := t.reports, cells := t.cells,
                         hbms := t.hbms, spent := t.spent, power := t.power, regs := t.regs, imsic := t.imsic, out := t.out })) ∧
    (s.headReady id = true → s.powerActive = true → s.issueHeld id (resolveWords d) = none → mOpcode d.words = 0x18 →
      s.issuesNop id d (s.deliver id d) = false → s.runs (.manifestIssue id) fun t =>
        (t.stream id).issued = (s.stream id).issued ∧ (t.stream id).store = d :: rest ∧ t = { s with streams := t.streams }) ∧
    (∀ res : Nat, s.headReady id = true → s.powerActive = true → s.issueHeld id (resolveWords d) = some res →
      s.runs (.manifestIssue id) fun t => (t.stream id).st = .held ∧ (t.stream id).store = d :: rest ∧
        (t.stream id).issued = (s.stream id).issued ∧
        t = { s with streams := t.streams, power := t.power, regs := t.regs, imsic := t.imsic, out := t.out }) ∧
    ((s.stream id).registered = false → s.runs (.manifestIssue id) fun t =>
      (t.stream id).issued = (s.stream id).issued ∧ (t.stream id).store = d :: rest ∧ t = { s with streams := t.streams })

/-- R129, R133: the oldest issued manifest, complete, leaves the issued list, STR_RETIRED counts and STR_LAST_RETIRE takes
the tide time, and so do its context's; with RECORD set its 16-byte completion record is written into the completion
ring, whose index advances. -/
def Obligations.RetireCountsAndRecords : Prop :=
  ∀ (s : State) (id : Nat) (i : Issued) (rest : List Issued), s.siteRuns (id / 256) → (s.stream id).issued = i :: rest →
    i.complete = true → i.place = 0 → (∀ j ∈ rest, j.d.seq ≠ i.d.seq) → s.tearing i.d.ctx = false →
    wordEnable (mSignal i.d.words 0) = false → wordEnable (mSignal i.d.words 1) = false → s.noLwait id →
    (i.status / 8 % 2 = 1 → s.stageOf id = none) →
    (mFlag i.d.words 4 = false → s.runs (.manifestRetire id) fun t =>
      (t.stream id).issued = rest ∧ (t.stream id).retired = ((s.stream id).retired + 1) % 2 ^ 48 ∧
        (t.stream id).lastRetire = s.siteNow (id / 256) ∧ (t.ctx i.d.ctx).retired = ((s.ctx i.d.ctx).retired + 1) % 2 ^ 48 ∧
        (t.ctx i.d.ctx).lastRetire = s.siteNow (id / 256) ∧ t = { s with streams := t.streams, ctxs := t.ctxs, regs := t.regs, imsic := t.imsic, out := t.out }) ∧
    (mFlag i.d.words 4 = true → 0 < s.str F.STR_CREC_LEN_LEN id →
      (∀ k : Nat, k < 16 → s.region (s.str F.STR_CREC_BASE_BASE id * 16 +
        16 * ((s.stream id).crecIdx % s.str F.STR_CREC_LEN_LEN id) + k) = .hubmem) →
      s.unsavedChunk (s.str F.STR_CREC_BASE_BASE id * 16 + 16 * ((s.stream id).crecIdx % s.str F.STR_CREC_LEN_LEN id)) 16 = none →
      s.runs (.manifestRetire id) fun t =>
        t.peek (s.str F.STR_CREC_BASE_BASE id * 16 + 16 * ((s.stream id).crecIdx % s.str F.STR_CREC_LEN_LEN id)) 16 =
          leBytes 2 i.idx ++ leBytes 2 i.status ++ leBytes 4 i.replay ++ leBytes 8 (s.siteNow (id / 256)) ∧
        (t.stream id).crecIdx = ((s.stream id).crecIdx % s.str F.STR_CREC_LEN_LEN id + 1) % s.str F.STR_CREC_LEN_LEN id ∧
        (t.stream id).issued = rest ∧
        t = { s with streams := t.streams, ctxs := t.ctxs, mem := t.mem, regs := t.regs, imsic := t.imsic, out := t.out })

/-- R124, R126: a write of a parameter changes that parameter alone; a write of STR_TAIL stores the new tail. -/
def Sys2Proof.Claims.ParameterAndTailWrites : Prop :=
  ∀ (s : State) (id : Nat) (v : Word), s.hold = none →
    (∀ i : Nat, i < 16 → s.runs (.paramWrite id i v false) fun t =>
      s.onlyStream t id { s.stream id with params := setNth (s.stream id).params i v }) ∧
    (id < 16384 → v.toNat < s.ringLen id → v.toNat < 2 ^ 16 → s.runs (.strTailWrite id v) fun t =>
      t.str F.STR_TAIL_TAIL id = v.toNat ∧ (t.stream id).store = (s.stream id).store ∧
        t = { s with streams := t.streams, regs := t.regs })

/-- R124, R126, R131, R132: what software commands and writes of a stream. -/
def Obligations.StreamsTakeCommandsAndParameters : Prop :=
  Claims.StreamCommandsActInTheirStates ∧ Claims.ParameterAndTailWrites

/-- R149: a bounded wait of the head that is unmet past DEADLINE takes the stream to TIMEOUT, counted, with the manifest
unissued; one that an arrival of the same tick meets only makes the record LATE (R177).  NOT_BEFORE releases the head. -/
def Sys2Proof.Claims.DeadlineTimesOutBoundedWait : Prop :=
  ∀ (s : State) (id : Nat) (d : Decoded) (rest : List Decoded), s.hold = none → (s.stream id).store = d :: rest → s.noLwait id →
    ((s.stream id).issued = [] → (s.stream id).st.active = true → (s.stream id).stopping = false → (s.stream id).cancelling = false →
      (s.stream id).registered = true → (s.stream id).dlIgnored = false → mFlag d.words 5 = false → s.past id d.words = true →
      s.boundedUnmet id d = true →
      (s.runs (.deadlineTimeout id false []) fun t =>
        (t.stream id).st = .timeout ∧ (t.stream id).store = d :: rest ∧
          t.rd F.STR_TIMEOUT_COUNT (id / 16) (id % 16) = counted (s.rd F.STR_TIMEOUT_COUNT (id / 16) (id % 16)) ∧
          t.hasEvent 0x03 (id / 16) 0 ∧ t = { s with streams := t.streams, regs := t.regs, imsic := t.imsic, out := t.out }) ∧
      (s.runs (.deadlineTimeout id true []) fun t =>
        (t.stream id).st = (s.stream id).st ∧ (t.stream id).headLate = true ∧ t = { s with streams := t.streams })) ∧
    (mNotBefore d.words ≤ s.siteNow (id / 256) → s.runs (.notBeforeRelease id) fun t =>
      (t.stream id).nbReleased = true ∧ (t.stream id).store = d :: rest ∧ t = { s with streams := t.streams }) ∧
    (s.siteNow (id / 256) < mNotBefore d.words → s.runs (.notBeforeRelease id) fun t => t = s)

/-- R140, R146 to R148, R177: how a stream ends or leaves a wait. -/
def Obligations.StreamsCancelAndTimeOut : Prop :=
  Claims.CancelDiscardsAndRewindReturnsToStart ∧ Claims.DeadlineTimesOutBoundedWait

/-- R136, R154: a write of BOL_COUNT sets count and owner, clears ERR by a 1, and releases the registered waits whose
target the count has reached; a wait registered as a poll keeps that it has been met, and its pilot sees it when it reads the
bollard, not before (R137). -/
def Obligations.BollardWritesReleaseWaiters : Prop :=
  ∀ (s : State), s.hold = none →
    (∀ (b : Nat) (v : Word), b < 16384 → s.idHole b = false → s.runs (.bollardWrite b v none) fun t =>
      (t.bollard b).count.toNat = v.toNat % 2 ^ 32 ∧ (t.bollard b).owner = v.toNat / 2 ^ 32 % 64 ∧
        (t.bollard b).err = ((s.bollard b).err && !bit v 38) ∧ (∀ c : Nat, c ≠ b → t.bollard c = s.bollard c) ∧
        (∀ w ∈ t.waiters, ¬ (w.bollard = b ∧ w.poll = false ∧ w.hit = false ∧ atOrAfter 32 (v.toNat % 2 ^ 32) w.target = true)) ∧
        (∀ w ∈ s.waiters, w.bollard ≠ b ∨ atOrAfter 32 (v.toNat % 2 ^ 32) w.target = false → w ∈ t.waiters) ∧
        (∀ w ∈ s.waiters, w.bollard = b → w.poll = true → atOrAfter 32 (v.toNat % 2 ^ 32) w.target = true →
          ∃ x ∈ t.waiters, x.stream = w.stream ∧ x.slot = w.slot ∧ x.poll = true ∧ x.hit = true) ∧
        t = { s with bollards := t.bollards, waiters := t.waiters, streams := t.streams }) ∧
    ∀ (id slot : Nat) (w : Waiter), (s.waiters.find? fun x => x.poll && x.stream == id && x.slot == slot) = some w →
      (w.hit = true ∨ atOrAfter 32 (s.bollard w.bollard).count.toNat w.target = true → s.runs (.bollardPoll id slot) fun t =>
        t.waiters = s.waiters.filter (fun x => !(x.poll && x.stream == id && x.slot == slot)) ∧
          (slot < 4 → (t.stream id).met / 2 ^ slot % 2 = 1) ∧ (slot = 4 → (t.stream id).gateMet = true) ∧
          t = { s with waiters := t.waiters, streams := t.streams }) ∧
      (w.hit = false → atOrAfter 32 (s.bollard w.bollard).count.toNat w.target = false →
        s.runs (.bollardPoll id slot) fun t => t = s)

/-- R142, R400: an engine with nothing in hand takes the entry of its queue that its rule picks, which leaves the queue; the
core issue sequence appends it, any other engine holds it; an entry with a stale tag is dropped and counted.  A group manifest
joins a member's sequence queue (R141). That an engine holds one entry in hand is the model's form, log entry 56. -/
def Obligations.EngineTakesQueueEntry : Prop :=
  ∀ (s : State) (e : Engine) (d : Delivered) (q : EngineQ), s.hold = none → s.engineQ (engineKey e) = q → q.cur = none →
    (s.pick q.served (q.entries.filter fun x => s.eligible e x) = some d →
      (d.gen = s.gen d.ctx → (∀ x : Nat, e ≠ .coreSeq x) → s.runs (.engineTake e) fun t =>
        (t.engineQ (engineKey e)).cur = some d ∧ (t.engineQ (engineKey e)).entries = q.entries.erase d ∧
          d.ctx ∈ (t.engineQ (engineKey e)).served ∧ t = { s with engines := t.engines }) ∧
      (∀ x : Nat, d.gen = s.gen d.ctx → e = .coreSeq x → s.runs (.engineTake e) fun t =>
        (t.engineQ (engineKey e)).entries = q.entries.erase d ∧ (t.pilot x).seq = (s.pilot x).seq ++ [d] ∧
          t = { s with engines := t.engines, pilots := t.pilots }) ∧
      (d.gen ≠ s.gen d.ctx → s.runs (.engineTake e) fun t =>
        (t.engineQ (engineKey e)).entries = q.entries.erase d ∧ (t.engineQ (engineKey e)).cur = none ∧
          t.rd F.CTX_STALE_COUNT d.ctx = counted (s.rd F.CTX_STALE_COUNT d.ctx) ∧
          t = { s with engines := t.engines, regs := t.regs, imsic := t.imsic, out := t.out })) ∧
    (q.entries = [d] → s.eligible e d = true → s.pick q.served (q.entries.filter fun x => s.eligible e x) = some d) ∧
    ∀ (x : Nat) (late : Bool), d ∈ (s.pilot x).group → s.runs (.groupDeliver x d late) fun t =>
      (t.pilot x).group = (s.pilot x).group.erase d ∧
        (t.engineQ (engineKey (.coreSeq x))).entries = (s.engineQ (engineKey (.coreSeq x))).entries ++ [d] ∧
        t.rd F.PIL_GROUP_LATE_COUNT x =
          (if late then counted (s.rd F.PIL_GROUP_LATE_COUNT x) else s.rd F.PIL_GROUP_LATE_COUNT x) ∧
        t = { s with engines := t.engines, pilots := t.pilots, regs := t.regs, imsic := t.imsic, out := t.out }

/-! ### The tensor cores (chapters 02 and 03) -/

/-- R52: a right shift rounds to nearest, ties to even; a shift by a negative amount is an exact left shift; a shift of 49
or more of a value below 2^47 in magnitude gives 0. -/
def Sys2Proof.Claims.RoundingIsToNearestEven : Prop :=
  ∀ v : Int,
    (∀ s : Nat, 0 < s →
      2 * (rneShift v s * 2 ^ s - v) ≤ 2 ^ s ∧ -(2 ^ s : Int) ≤ 2 * (rneShift v s * 2 ^ s - v) ∧
        ((2 * (rneShift v s * 2 ^ s - v)).natAbs = 2 ^ s → rneShift v s % 2 = 0)) ∧
    (∀ n : Nat, rneShift v (-(n : Int)) = v * 2 ^ n) ∧
    ∀ s : Nat, 49 ≤ s → v.natAbs < 2 ^ 47 → rneShift v s = 0

/-- R65: neither rounding mode gives a requantised block a mantissa beyond Mmax of its format, whatever the 64 hash bits
of each element; the exponent is the same in both modes. -/
def Sys2Proof.Claims.RequantisedMantissasFit : Prop :=
  ∀ (vs : List Int) (t : Int) (fmt : Nat) (h : Nat → Nat), fmt < 4 → (∀ i : Nat, h i < 2 ^ 64) →
    (∀ m ∈ (requantBlock vs t fmt none).1.m, m.natAbs ≤ mmax fmt) ∧
    (∀ m ∈ (requantBlock vs t fmt (some h)).1.m, m.natAbs ≤ mmax fmt) ∧
    (requantBlock vs t fmt (some h)).1.e = (requantBlock vs t fmt none).1.e

/-- R52, R65: rounding to nearest even, and requantised mantissas that fit their format in both rounding modes. -/
def Obligations.RequantisationRounds : Prop :=
  Claims.RoundingIsToNearestEven ∧ Claims.RequantisedMantissasFit

/-- R70, R118: VEC on a core writes, lane by lane, a + b, a - b, a × b with the fraction rounded away, max, min, the
shift of a by b, the selection of a or b by c, or a; here for plain i32 operands of one block, without saturation.
The rounding of a product is the model's reading, log entry 15. -/
def Obligations.VecComputesLanes : Prop :=
  ∀ (s : State) (c n : Nat) (d : Delivered) (f : Inflight) (row : List Nat) (xs ys zs : List Int),
    s.siteRuns (c / 16) → s.onCore c d = some f → (s.coreHandle d 0).fmt = 4 → (s.coreHandle d 0).dim 0 = n → 0 < n → n ≤ 32 →
    (s.outBox c d).rows = [row] → (s.outBox c d).dim 0 = (0, n) →
    s.vecLanes f c 1 row 0 (0, n) = some (xs.map fun x => (x, 0)) → s.vecLanes f c 2 row 0 (0, n) = some (ys.map fun x => (x, 0)) →
    s.vecLanes f c 3 row 0 (0, n) = some (zs.map fun x => (x, 0)) →
    ∀ r : Nat → Int, (∀ j : Nat, fitsLane (r j)) →
      (∀ j : Nat, r j = (match mSubop d.words with
        | 0 => xs.getD j 0 + ys.getD j 0
        | 1 => xs.getD j 0 - ys.getD j 0
        | 2 => rneShift (xs.getD j 0 * ys.getD j 0) (mFrac d.words)
        | 3 => max (xs.getD j 0) (ys.getD j 0)
        | 4 => min (xs.getD j 0) (ys.getD j 0)
        | 5 => rneShift (xs.getD j 0) (-(clampInt (-63) 63 (ys.getD j 0)))
        | 6 => if zs.getD j 0 ≠ 0 then xs.getD j 0 else ys.getD j 0
        | _ => xs.getD j 0)) →
      s.runs (.vec c d) fun t => t = s.coreStore (Win.ofInflight f (s.coreHandle d 0).dwin) c ((s.coreHandle d 0).dOff row 0)
        (blockBytes 4 ((List.range n).map r))

/-- R118: VRED writes the sum, the maximum or the minimum of a row of its input to element 0 of the output's row; FUNC
writes its table's value of each lane, code 0x00's where its table was not resident at its issue (R89); here for plain i32
operands of one block, without saturation. -/
def Obligations.VredAndFuncComputeLanes : Prop :=
  ∀ (s : State) (c : Nat) (d : Delivered) (f : Inflight) (row : List Nat) (x : Int) (xs : List Int),
    s.siteRuns (c / 16) → s.onCore c d = some f → (s.coreHandle d 0).fmt = 4 →
    (s.vredRows c d = [row] → s.rowLanes f c (s.coreHandle d 1) (s.slicePos c d) row = some ((x :: xs).map fun x => (x, 0)) →
      (s.coreHandle d 0).dim 0 = 1 → fitsLane (x :: xs).sum → s.runs (.vred c d) fun t =>
        t = s.coreStore (Win.ofInflight f (s.coreHandle d 0).dwin) c ((s.coreHandle d 0).dOff row 0)
          (blockBytes 4 [match mSubop d.words with
            | 1 => xs.foldl max x
            | 2 => xs.foldl min x
            | _ => (x :: xs).sum])) ∧
    (∀ (n : Nat) (b : Block), (s.coreHandle d 0).dim 0 = n → 0 < n → n ≤ 32 → (s.outBox c d).rows = [row] →
      (s.outBox c d).dim 0 = (0, n) → s.coreBlock f c (s.coreHandle d 1) row 0 (0, n) = some b → (s.coreHandle d 1).fmt = 4 →
      f.tainted.contains (.table (funcTable f)) = false →
      (∀ j : Nat, j < n → ((s.core c).funcLane (funcTable f) (mFrac d.words) (b.m.getD j 0)).2 = 0) →
      s.runs (.func c d) fun t => t = s.coreStore (Win.ofInflight f (s.coreHandle d 0).dwin) c ((s.coreHandle d 0).dOff row 0)
        (blockBytes 4 ((List.range n).map fun j => ((s.core c).funcLane (funcTable f) (mFrac d.words) (b.m.getD j 0)).1)))

/-- R72, R118: COPY of a block between near banks stores the same block, its scale with it; TLOAD makes its 544-byte image
the resident table of its code; a poisoned input of COPY gives a poisoned output, counted (R49, R51).
Where the image stands is the model's reading, log entry 15. -/
def Sys2Proof.Claims.CopyAndTloadMoveBlocks : Prop :=
  ∀ (s : State) (c : Nat) (d : Delivered) (f : Inflight), s.siteRuns (c / 16) → s.onCore c d = some f → c < 1024 →
    (∀ (row : List Nat) (n fm : Nat), (s.coreHandle d 0).fmt = fm → (s.coreHandle d 1).fmt = fm → fm ≤ 4 →
      (s.coreHandle d 0).dim 0 = n → 0 < n → n ≤ 32 → (s.outBox c d).rows = [row] → (s.outBox c d).dim 0 = (0, n) →
      (∀ b : Block, s.coreBlock f c (s.coreHandle d 1) row 0 (0, n) = some b → s.runs (.copy c d) fun t =>
        t = (if fm = 4 then id else fun u : State => u.coreStore (Win.ofInflight f (s.coreHandle d 0).swin) c
            ((s.coreHandle d 0).sOff row 0) [BitVec.ofNat 8 (code 8 b.e)])
          (s.coreStore (Win.ofInflight f (s.coreHandle d 0).dwin) c ((s.coreHandle d 0).dOff row 0) (blockBytes fm b.m))) ∧
      (s.coreBlock f c (s.coreHandle d 1) row 0 (0, n) = none → s.runs (.copy c d) fun t =>
        t.rd F.TC_POISON_CNT_COUNT c = min (s.rd F.TC_POISON_CNT_COUNT c + 1) (2 ^ F.TC_POISON_CNT_COUNT.width - 1) ∧
          (∀ i ∈ (t.stream d.stream).issued, i.d.seq = d.seq → i.status &&& 16 = 16) ∧
          t = { s with mem := t.mem, cells := t.cells, streams := t.streams, regs := t.regs, imsic := t.imsic, out := t.out })) ∧
    s.runs (.tload c d) fun t => t = { s with cores := t.cores } ∧
      (t.core c).tables = Sparse.insert (s.core c).tables (mTable d.words)
        (tableOf ((List.range 544).map fun i => s.coreByte (winByte (Win.ofInflight f (s.coreHandle d 1).dwin) c ((s.coreHandle d 1).woff + i)))) ∧
      ∀ j : Nat, j ≠ c → t.core j = s.core j

/-- R104, R118, R123: each of VEC, VRED, FUNC, COPY and REQUANT in flight on a core that runs does its work there, whatever its
operands hold: memory changes at the bytes of its own part of the output and nowhere else.  MATMUL changes no memory and, of the
cores, only its own. -/
def Sys2Proof.Claims.CoreUnitsWriteTheirPart : Prop :=
  ∀ (s : State) (c : Nat) (d : Delivered) (f : Inflight), s.siteRuns (c / 16) → s.onCore c d = some f →
    (∀ i ∈ [Instr.vec c d, .func c d, .copy c d], s.runs i fun t => s.coreWrote t ((s.outBox c d).cells.flatMap fun e =>
      (s.coreHandle d 0).outRanges f c e.1 e.2 (blockSpan ((s.outBox c d).dim 0) e.2))) ∧
    (s.runs (.vred c d) fun t => s.coreWrote t ((s.vredRows c d).flatMap fun row => (s.coreHandle d 0).outRanges f c row 0 (0, 1))) ∧
    (s.runs (.requant c d) fun t => s.coreWrote t ((s.requantBox c d).cells.flatMap fun e =>
      (s.coreHandle d 0).outRanges f c e.1 e.2 (blockSpan ((s.requantBox c d).dim 0) e.2))) ∧
    s.runs (.matmul c d) fun t => (∀ j : Nat, j ≠ c → t.core j = s.core j) ∧ (t.core c).tables = (s.core c).tables ∧
      (t.core c).objs = (s.core c).objs ∧ (t.core c).staging = (s.core c).staging ∧
      (∀ ti : Nat, ti ∉ tilesUsed d.words (s.macPart c d).rows.length → (t.core c).tile ti = (s.core c).tile ti) ∧
      t = { s with cores := t.cores, vetoes := t.vetoes, regs := t.regs, imsic := t.imsic, out := t.out }

/-- R59, R60: MATMUL of one row and one column over one block sets the tile exponent T = e - H + L - t with L = 0, and
the accumulator to the rounded, aligned sum of products; REQUANT writes the tile's row as a block (R64).
The prescan is taken with the operation, log entry 58. -/
def Obligations.MatmulAccumulatesAndRequantWrites : Prop :=
  ∀ (s : State) (c : Nat) (d : Delivered) (f : Inflight) (row : List Nat), s.siteRuns (c / 16) → s.onCore c d = some f →
    (∀ (wrow : List Nat) (k sp : Nat × Nat) (ea ew T : Int) (xs : List Int) (fa fw : Nat), s.macPart c d = ⟨[row], [wrow], k⟩ →
      blocksOf k = [0] → (s.coreHandle d 0).fmt = fa → (s.coreHandle d 1).fmt = fw → arrayTiles fa fw 1 = 1 → f.done = 0 →
      (s.core c).active.length = arrayLines fa fw → (∀ l ∈ (s.core c).active, l.poison = false) → mFlag d.words 1 = false →
      sp = blockSpan (max ((s.coreHandle d 0).part (s.slicePos c d) 0).1 k.1, min ((s.coreHandle d 0).part (s.slicePos c d) 0).2 k.2) 0 →
      sp.1 < sp.2 → s.scaleCodes f c (s.coreHandle d 0) row [0] = [(ea, false)] →
      s.coreBlock f c (s.coreHandle d 0) row 0 sp = some ⟨ea, xs⟩ → s.scaleCodes f c (s.coreHandle d 1) wrow [0] = [(ew, false)] →
      T = ea + ew - headroom (max fa fw) - mTrim d.words →
      (rneShift (dot xs ((List.range 32).map fun i => stagedElem fw ((s.core c).active.flatMap (·.bytes)) 0 i))
        (T - (ea + ew))).natAbs ≤ 2 ^ 47 - 1 →
      s.runs (.matmul c d) fun t => ((t.core c).tile (tileOf d.words 0)).texp = T ∧
        ((t.core c).tile (tileOf d.words 0)).cell 0 0 =
          rneShift (dot xs ((List.range 32).map fun i => stagedElem fw ((s.core c).active.flatMap (·.bytes)) 0 i)) (T - (ea + ew)) ∧
        ((t.core c).tile (tileOf d.words 0)).poison = false ∧ (t.core c).active = [] ∧ (t.core c).shadow = (s.core c).shadow ∧
        (∃ g ∈ (t.core c).inflight, g.d = d ∧ g.done = 1) ∧
        t = { s with cores := t.cores } ∧ ∀ j : Nat, j ≠ c → t.core j = s.core j) ∧
    (∀ n : Nat, (s.requantBox c d).rows = [row] → (s.requantBox c d).dim 0 = (0, n) → (s.coreHandle d 0).dim 0 = n → 0 < n → n ≤ 32 →
      (s.coreHandle d 0).fmt < 4 → mFlag d.words 0 = false → f.tainted.contains (.tile (tileOf d.words 0)) = false →
      ((s.core c).tile (tileOf d.words 0)).poison = false →
      ∀ q : Block, requantBlock ((List.range n).map fun j => ((s.core c).tile (tileOf d.words 0)).cell 0 j)
          ((s.core c).tile (tileOf d.words 0)).texp (s.coreHandle d 0).fmt none = (q, 0) →
        signed 8 (s.rd F.TC_ABSURD_EXP_LO c) ≤ q.e → q.e ≤ signed 8 (s.rd F.TC_ABSURD_EXP_HI c) → q.poisoned = false →
        s.runs (.requant c d) fun t => t =
          (s.coreStore (Win.ofInflight f (s.coreHandle d 0).dwin) c ((s.coreHandle d 0).dOff row 0)
            (blockBytes (s.coreHandle d 0).fmt q.m)).coreStore (Win.ofInflight f (s.coreHandle d 0).swin) c
            ((s.coreHandle d 0).sOff row 0) [BitVec.ofNat 8 (code 8 q.e)])

/-- R86, R87: the next line of the weight stream lands on a clear fill bit and sets it, and ends the hold of a tile load that
waits for it; a tile load takes filled lines in order into the shadow tile and clears their fill bits, and the tile that stood
there goes to an array that has run its own; a line that is not filled holds the timeline (R99).
The layout of a staged line is the model's choice, log entry 17. -/
def Sys2Proof.Claims.StagingLinesFillAndDrain : Prop :=
  ∀ (s : State) (c : Nat),
    (∀ (line : Nat) (x : SLine) (rest : List SLine), s.hold = none → (s.core c).toStage = x :: rest → line < 512 →
      (s.core c).staging.any (fun e => e.1 == line) = false →
      ((s.core c).awaiting = none → s.runs (.stagingLineLands c line) fun t =>
        (t.core c).toStage = rest ∧ (t.core c).staging = Sparse.insert (s.core c).staging line x ∧
          (t.core c).shadow = (s.core c).shadow ∧ (t.core c).hold = (s.core c).hold ∧
          ((t.cores.any fun e => e.2.toStage.any fun l => l.stream == x.stream && l.seq == x.seq) = false →
            ∀ i ∈ (t.stream x.stream).issued, i.d.seq = x.seq → i.complete = true) ∧
          t = { s with cores := t.cores, streams := t.streams }) ∧
      ((s.core c).awaiting = some (line, 1) → s.runs (.stagingLineLands c line) fun t =>
        (t.core c).toStage = rest ∧ (t.core c).shadow = (s.core c).shadow ++ [x] ∧ (t.core c).awaiting = none ∧
          (t.core c).hold = 0 ∧ (t.core c).staging.any (fun e => e.1 == line) = false ∧
          t = { s with cores := t.cores, streams := t.streams })) ∧
    (∀ (first n : Nat) (xs : List SLine), s.siteRuns (c / 16) → (s.core c).frozen = false → xs.length = n → n ≤ 512 →
      (∀ i : Nat, i < n → (s.core c).staging.find? (fun e => e.1 == (first + i) % 512) =
        (xs[i]?).map fun x => ((first + i) % 512, x)) →
      s.runs (.tileLoad c first n) fun t => (t.core c).shadow = xs ∧ (t.core c).awaiting = none ∧ (t.core c).hold = 0 ∧
        (t.core c).active = (if (s.core c).active = [] then (s.core c).shadow else (s.core c).active) ∧
        (t.core c).staging = (s.core c).staging.filter (fun e => (List.range n).all fun i => e.1 != (first + i) % 512) ∧
        t = { s with cores := t.cores }) ∧
    ∀ first n : Nat, s.siteRuns (c / 16) → (s.core c).frozen = false →
      (s.core c).staging.any (fun e => e.1 == first % 512) = false → s.runs (.tileLoad c first (n + 1)) fun t =>
        (t.core c).shadow = [] ∧ (t.core c).hold = 1 ∧ (t.core c).awaiting = some (first % 512, n + 1) ∧
          (t.core c).staging = (s.core c).staging ∧
          t.rd F.TC_HOLD_WEIGHT_COUNT c = counted (s.rd F.TC_HOLD_WEIGHT_COUNT c) ∧
          t = { s with cores := t.cores, regs := t.regs, imsic := t.imsic, out := t.out }

/-- R86, R123, R213: WPREFETCH names the lines of its weight tiles for each core of its site, behind what it named before, once
its sectors have passed their meters: for a core with a column to stage, the lines of every tile of its part, 512 bytes each;
a site with none completes the manifest at once. -/
def Sys2Proof.Claims.WprefetchNamesItsLines : Prop :=
  ∀ (s : State) (site : Nat) (d : Delivered) (ue : List Nat) (h : Handle) (secs : List Nat), s.hold = none → s.live d = true →
    s.handleOf d (opAddr (mOperand d.words 1)) = some h → secs = s.weightSectors d h → s.passes d site secs [] →
    (s.runs (.wprefetch site d ue) fun t =>
      (∀ i : Nat, i < 16 → (t.core (16 * site + i)).toStage =
        (s.core (16 * site + i)).toStage ++ s.stageTiles (16 * site + i) d ue h) ∧
      (∀ j : Nat, j / 16 ≠ site → t.core j = s.core j) ∧
      ((∀ a ∈ secs, s.readCause ue a = none) →
        ((∀ i : Nat, i < 16 → s.stageTiles (16 * site + i) d ue h = []) →
          (s.cores.any fun e => e.2.toStage.any fun l => l.stream == d.stream && l.seq == d.seq) = false → t.completed d 0) ∧
        t = { s with cores := t.cores, streams := t.streams, owed := t.owed, spent := t.spent, power := t.power, cells := t.cells,
                     hbms := t.hbms, regs := t.regs, imsic := t.imsic, out := t.out })) ∧
    ∀ c : Nat, h.fmt < 3 → h.coreRows (s.slicePos c d) ≠ [] →
      (s.stageTiles c d ue h).length =
        ceilDiv (h.coreBlocks (s.slicePos c d)).length (stageBlocks h.fmt) * stageLines h.fmt ∧
      ∀ l ∈ s.stageTiles c d ue h, l.stream = d.stream ∧ l.seq = d.seq ∧ l.bytes.length = 512

/-- Chapter 03: what the cores copy, write and have staged for them. -/
def Obligations.CoresCopyAndStage : Prop :=
  Claims.CopyAndTloadMoveBlocks ∧ Claims.CoreUnitsWriteTheirPart ∧ Claims.StagingLinesFillAndDrain ∧ Claims.WprefetchNamesItsLines

/-- R98, R100, R102: an entry that is next on its core issues there while fewer than eight are in flight, at the clock its
predecessor's gap and its lateness give, taking the window registers as they stand; with eight in flight the clock counts as an
issue delay. -/
def Sys2Proof.Claims.CoreIssueEntersFlight : Prop :=
  ∀ (s : State) (c late : Nat) (d : Delivered) (i : Issued), s.siteRuns (c / 16) → s.issuedOf d = some i → c ∈ i.cores →
    s.inTurn c d = true → (s.core c).inflight.any (fun f => f.d == d) = false → (s.core c).frozen = false →
    ((s.core c).inflight.length < 8 → s.runs (.coreIssue c d late) fun t => ∃ f : Inflight,
      (t.core c).inflight = (s.core c).inflight ++ [f] ∧ f.d = d ∧ f.tainted = [] ∧
        f.windows = (List.range 8).map (fun w => s.winWordsOf c w) ∧
        f.issueClk = max (s.core c).timeline (((s.core c).lastIssue.map fun k => k + mGap d.words).getD 0) + late + (s.core c).delay ∧
        (t.core c).lastIssue = some f.issueClk ∧ (t.core c).timeline = f.issueClk ∧ (t.core c).delay = 0 ∧
        t = { s with cores := t.cores, streams := t.streams, reports := t.reports, traces := t.traces, regs := t.regs, imsic := t.imsic, out := t.out }) ∧
    (8 ≤ (s.core c).inflight.length → s.runs (.coreIssue c d late) fun t =>
      (t.core c).inflight = (s.core c).inflight ∧ (t.core c).delay = (s.core c).delay + 1 ∧
        t.rd F.TC_HOLD_ISSUE_COUNT c = counted (s.rd F.TC_HOLD_ISSUE_COUNT c) ∧
        t = { s with cores := t.cores, regs := t.regs, imsic := t.imsic, out := t.out })

/-- R92, R95, R102, R105, R106: a read of an object with VALID = 0 counts a timetable fault, latches it where none is latched,
and poisons the consumer; a read of a valid one changes nothing but the core's clocks; a word that waits for its bank's port, or
for its window's change of direction, holds the timeline and counts. -/
def Sys2Proof.Claims.EarlyReadIsATimetableFault : Prop :=
  ∀ (s : State) (c stream seq word operand window offset : Nat) (f : Inflight) (o : Obj), s.siteRuns (c / 16) → c < 1024 →
    (s.core c).inflight.find? (fun f => f.d.stream == stream && f.d.seq == seq) = some f → (s.core c).frozen = false →
    (s.core c).waiting = none → offset < 2 ^ 24 → operand < 4 → window < 8 →
    ((s.core c).holdOf ⟨stream, seq, o, word, window, false, f.issueClk + offset⟩ = none → s.cleanWord o word →
      (((s.core c).readState f o).valid = false → s.rd F.TC_TT_INFO_VALID c = 0 → s.rd F.TC_CTRL_TT_POLICY c = 0 →
        s.runs (.coreRead c stream seq o word operand window offset MemFx.clean) fun t =>
          t.rd F.TC_TT_COUNT_COUNT c = counted (s.rd F.TC_TT_COUNT_COUNT c) ∧ t.rd F.TC_TT_INFO_VALID c = 1 ∧
            t.rd F.TC_TT_INFO_KIND c = 1 ∧ t.rd F.TC_TT_INFO_OPERAND c = operand ∧ t.rd F.TC_TT_INFO_WINDOW c = window ∧
            t.rd F.TC_TT_INFO_OFFSET c = offset ∧ t.rd F.TC_TT_MANIFEST_ADDR c = f.d.addr % 2 ^ 64 ∧ t.hasEvent 0x00 c 0 ∧
            (∃ g ∈ (t.core c).inflight, g.d = f.d ∧ o ∈ g.tainted) ∧ (t.core c).objs = (s.core c).objs ∧
            t = { s with cores := t.cores, traces := t.traces, regs := t.regs, imsic := t.imsic, out := t.out }) ∧
      (((s.core c).readState f o).valid = true → ((s.core c).readState f o).clobbered = false →
        ((s.core c).readState f o).poisoned = false →
        s.runs (.coreRead c stream seq o word operand window offset MemFx.clean) fun t =>
          (t.core c).inflight = (s.core c).inflight ∧ (t.core c).objs = (s.core c).objs ∧ (t.core c).hold = 0 ∧
            t = { s with cores := t.cores })) ∧
    (∀ (fx : MemFx) (cause n : Nat), cause = 2 ∨ cause = 3 →
      (s.core c).holdOf ⟨stream, seq, o, word, window, false, f.issueClk + offset⟩ = some (cause, n) →
      s.runs (.coreRead c stream seq o word operand window offset fx) fun t =>
        (cause = 2 → t.rd F.TC_HOLD_BANK_COUNT c = counted (s.rd F.TC_HOLD_BANK_COUNT c)) ∧
          (cause = 3 → t.rd F.TC_HOLD_PORT_COUNT c = counted (s.rd F.TC_HOLD_PORT_COUNT c)) ∧
          (t.core c).hold = cause ∧ (t.core c).waiting = some ⟨stream, seq, o, word, false, cause, n - 1⟩ ∧
          (t.core c).inflight = (s.core c).inflight ∧
          t = { s with cores := t.cores, regs := t.regs, imsic := t.imsic, out := t.out })

/-- R92, R95, R102, R108: the last write of an object's last-issued writer makes it VALID once the write has passed its port;
the oldest manifest in flight retires, and one that took longer than declared counts a slip. -/
def Sys2Proof.Claims.RetirementMakesObjectsValid : Prop :=
  ∀ (s : State) (c : Nat), s.siteRuns (c / 16) → c < 1024 → (s.core c).frozen = false →
    (∀ (o : Obj) (stream seq word window offset : Nat) (f : Inflight), (s.core c).waiting = none →
      (s.core c).inflight.find? (fun f => f.d.stream == stream && f.d.seq == seq) = some f →
      ((s.core c).holdOf ⟨stream, seq, o, word, window, true, f.issueClk + offset⟩ = none →
        ((s.core c).obj o).writer = some (stream, seq) →
        s.runs (.coreWriteRetire c stream seq o true word window offset) fun t =>
          ((t.core c).obj o).valid = true ∧ ((t.core c).obj o).writer = none ∧
            (((s.core c).obj o).wasValid = true → ((t.core c).obj o).poisoned = false) ∧
            ((t.core c).obj o).readers = ((s.core c).obj o).readers ∧ (t.core c).inflight = (s.core c).inflight ∧
            t = { s with cores := t.cores }) ∧
      ∀ n : Nat, (s.core c).holdOf ⟨stream, seq, o, word, window, true, f.issueClk + offset⟩ = some (2, n) →
        s.runs (.coreWriteRetire c stream seq o true word window offset) fun t =>
          t.rd F.TC_HOLD_BANK_COUNT c = counted (s.rd F.TC_HOLD_BANK_COUNT c) ∧ (t.core c).hold = 2 ∧
            (t.core c).objs = (s.core c).objs ∧ t = { s with cores := t.cores, regs := t.regs, imsic := t.imsic, out := t.out }) ∧
    ∀ (f : Inflight) (rest : List Inflight) (actual held : Nat), (s.core c).inflight = f :: rest →
      (actual ≤ mDeclared f.d.words + s.rd F.TC_CTRL_SLIP_THRESH c → s.runs (.coreManifestRetire c actual held) fun t =>
        (t.core c).inflight = rest ∧ t = { s with cores := t.cores, streams := t.streams, pilots := t.pilots }) ∧
      (mDeclared f.d.words + s.rd F.TC_CTRL_SLIP_THRESH c < actual → s.rd F.TC_SLIP_INFO_VALID c = 0 →
        s.runs (.coreManifestRetire c actual held) fun t =>
          (t.core c).inflight = rest ∧ t.rd F.TC_SLIP_COUNT_COUNT c = counted (s.rd F.TC_SLIP_COUNT_COUNT c) ∧
            t.rd F.TC_SLIP_INFO_VALID c = 1 ∧ t.rd F.TC_SLIP_INFO_ACTUAL c = min actual (2 ^ 24 - 1) ∧ t.hasEvent 0x00 c 1 ∧
            t = { s with cores := t.cores, streams := t.streams, pilots := t.pilots, traces := t.traces, regs := t.regs, imsic := t.imsic, out := t.out })

/-- R94 to R104: manifests in flight, the objects they make valid, and a read that comes too early. -/
def Obligations.TimetableHoldsOrFaults : Prop :=
  Claims.CoreIssueEntersFlight ∧ Claims.EarlyReadIsATimetableFault ∧ Claims.RetirementMakesObjectsValid

/-- R93, R94: a step of a window adds its signed STRIDE64 to HEAD64 modulo LEN64 and changes no other window; a write of
HEAD64 in the clock of a step wins, and STEP_LOST is set. -/
def Obligations.WindowStepsAndHeadWrites : Prop :=
  ∀ (s : State) (c w : Nat), s.hold = none → w < 8 → 0 < s.rd F.WIN_LEN_LEN64 c w →
    (s.runs (.winStep c (2 ^ w)) fun t =>
      (t.rd F.WIN_HEAD_HEAD64 c w : Int) =
        ((s.rd F.WIN_HEAD_HEAD64 c w : Int) + signed 19 (s.rd F.WIN_STRIDE_STRIDE64 c w)) % (s.rd F.WIN_LEN_LEN64 c w : Int) ∧
      t = { s with regs := t.regs } ∧ s.regsBut t [F.WIN_HEAD_HEAD64.key c w]) ∧
    ∀ v : Word, c < 1024 → v.toNat < s.rd F.WIN_LEN_LEN64 c w → s.runs (.winHeadWrite c w v true) fun t =>
      t.rd F.WIN_HEAD_HEAD64 c w = v.toNat ∧ t.hasEvent 0x01 c 0 ∧ t = { s with regs := t.regs, imsic := t.imsic, out := t.out }

/-! ### The pilots' own codes and the copy engines (chapter 04) -/

/-- R118, R120, R405: NOP completes and changes nothing else; PSET writes its parameter register, unless the host writes it
in the same clock; STAMP writes the tide time of its issue at its address, once its write has passed its meters. -/
def Sys2Proof.Claims.NopPsetAndStampComplete : Prop :=
  ∀ (s : State) (d : Delivered), s.hold = none →
    (s.liveOp d 0 = true → s.runs (.nop d) fun t => t.completed d 0 ∧
      (t.stream d.stream).params = (s.stream d.stream).params ∧ t = { s with streams := t.streams }) ∧
    (s.liveOp d 0x20 = true → s.runs (.pset d false) fun t => t.completed d 0 ∧
      (t.stream d.stream).params = setNth (s.stream d.stream).params (mSubop d.words % 16) (mImm d.words) ∧
      t = { s with streams := t.streams }) ∧
    (s.liveOp d 0x20 = true → s.runs (.pset d true) fun t => t.completed d 0 ∧
      (t.stream d.stream).params = (s.stream d.stream).params ∧ t = { s with streams := t.streams }) ∧
    ∀ (i : Issued) (a : Nat), s.liveOp d 0x23 = true → mSubop d.words < 128 → s.issuedOf d = some i → a = (mImm d.words).toNat →
      a % 8 = 0 → s.hubBytes a 8 → (∀ x : Nat, s.xlate d .w a 8 x = x) →
      s.passes d (pilotOf (d.stream / 256)) [] (s.writeSectors d a 8) → s.runs (.stamp d) fun t => t.completed d 0 ∧
        t.peek a 8 = leBytes 8 i.tide ∧ (∀ x : Nat, (x < a ∨ a + 8 ≤ x) → t.byte x = s.byte x) ∧
        t = { s with streams := t.streams, mem := t.mem, owed := t.owed, spent := t.spent, power := t.power, regs := t.regs,
                     imsic := t.imsic, out := t.out }

/-- R118, R139: SCTRL gives its command to a stream of its own context; a stream of another context is a segment
violation of the issuing context, and the command is not applied.
The completion with ERR is the model's reading, log entry 19. -/
def Sys2Proof.Claims.SctrlCommandsOwnStreams : Prop :=
  ∀ (s : State) (d : Delivered) (id : Nat), s.hold = none → s.liveOp d 0x22 = true → id = mArg d.words % 2 ^ 14 → id ≠ d.stream →
    (s.stream id).stopping = false → (s.stream id).cancelling = false → (s.stream id).issued = [] → (s.stream id).store = [] →
    (s.stream id).gateReg = false → (s.stream id).walking = false → s.noRuns id →
    (s.strCtx id = d.ctx →
      (mSubop d.words = 0 → (s.stream id).st = .idle → s.idHole id = false → s.queueMode id = false →
        s.runs (.sctrlStart d) fun t => t.completed d 0 ∧ (t.stream id).st = .running ∧ t = { s with streams := t.streams }) ∧
      (mSubop d.words = 1 → (s.stream id).st = .running → s.runs (.sctrlStop d) fun t =>
        t.completed d 0 ∧ (t.stream id).st = .stopped ∧ t = { s with streams := t.streams }) ∧
      (mSubop d.words = 2 → (s.stream id).st = .timeout → s.runs (.sctrlCancel d false) fun t =>
        t.completed d 0 ∧ (t.stream id).st = .stopped ∧ t.hasEvent 0x03 (id / 16) 2 ∧
          t = { s with streams := t.streams, waiters := t.waiters, regs := t.regs, imsic := t.imsic, out := t.out })) ∧
    (s.strCtx id ≠ d.ctx → ∀ c ∈ [Instr.sctrlStart d, .sctrlStop d, .sctrlCancel d false],
      (c = .sctrlStart d ↔ mSubop d.words = 0) → (c = .sctrlStop d ↔ mSubop d.words = 1) →
      (c = .sctrlCancel d false ↔ mSubop d.words = 2) → s.runs c fun t =>
        t.completed d stErr ∧ t.stream id = s.stream id ∧
          t.reports = s.reports ++ [⟨d.ctx, 1, 0x03, id / 16, id, d.addr, s.siteNow (pageSite 0x03 (id / 16))⟩] ∧
          t = { s with streams := t.streams, reports := t.reports })

/-- R118: the opcodes that the pilot and the hub complete themselves. -/
def Obligations.HubOpcodesComplete : Prop :=
  Claims.NopPsetAndStampComplete ∧ Claims.SctrlCommandsOwnStreams

/-- R119, R223: a SUBRING's list is what its stream walks next, ahead of what it has decoded, and the stream goes on; with
RECOMPUTE it walks only the list's manifests that carry the RECOMPUTE flag.  The manifest itself waits for its list. -/
def Sys2Proof.Claims.SubringWalksItsList : Prop :=
  ∀ (s : State) (d : Delivered) (i : Issued) (n : Nat), s.hold = none → s.liveOp d 0x21 = true → s.issuedOf d = some i →
    (s.stream d.stream).walking = true → n = (mImm d.words).toNat → 0 < n →
    (∀ (c : Instr) (only : Bool), (mSubop d.words % 2 = 0 ∧ c = .subring d ∧ only = false) ∨
        (mSubop d.words % 2 = 1 ∧ c = .subringRecompute d ∧ only = true) →
      s.runs c fun t =>
        (t.stream d.stream).lists =
          ⟨listAddrs (opAddr (mOperand d.words 0)) n, d.wins, d.snap, i.idx, i.replay, 1, only, 0⟩ :: (s.stream d.stream).lists ∧
        (t.stream d.stream).walking = false ∧ (t.stream d.stream).store = (s.stream d.stream).store ∧
        (t.stream d.stream).issued = (s.stream d.stream).issued ∧ t = { s with streams := t.streams })

/-- R225: a start mark opens the phase with its micro-batch and the tide time of its issue; an end mark, once every earlier
manifest has retired, writes the open record into the stage's ring and closes the phase, and waits until then; without an open
phase it writes none, and a mark of a stream that is no stage's main stream does nothing. -/
def Sys2Proof.Claims.PhaseMarksOpenAndClose : Prop :=
  ∀ (s : State) (d : Delivered) (i : Issued), s.hold = none → s.liveOp d 0x23 = true → 128 ≤ mSubop d.words → s.issuedOf d = some i →
    (s.stageOf d.stream = none → s.runs (.phaseMark d) fun t => t.completed d 0 ∧ t = { s with streams := t.streams }) ∧
    ∀ g : Nat, s.stageOf d.stream = some g →
      ((∀ o ∈ (s.stage g).openPh, o.phase ≠ mSubop d.words % 8) →
        (mSubop d.words / 64 % 2 = 0 → s.runs (.phaseMark d) fun t => t.completed d 0 ∧
          (t.stage g).openPh = (s.stage g).openPh ++
            [⟨mSubop d.words % 8, bits (mImm d.words) 0 24, i.tide, markInfo d.words (mSubop d.words % 8), false⟩] ∧
          t = { s with streams := t.streams, stages := t.stages }) ∧
        (mSubop d.words / 64 % 2 = 1 → s.oldest d = true → s.runs (.phaseMark d) fun t => t.completed d 0 ∧
          t = { s with streams := t.streams })) ∧
      (mSubop d.words / 64 % 2 = 1 → s.oldest d = false → s.runs (.phaseMark d) fun t => t = s) ∧
      ∀ (o : OpenPhase) (a : Nat), (s.stage g).openPh.find? (fun o => o.phase == mSubop d.words % 8) = some o →
        mSubop d.words / 64 % 2 = 1 → s.oldest d = true → 0 < s.rd F.PHT_LEN_LEN g →
        a = s.rd F.PHT_RING_BASE g * 32 + 32 * ((s.stage g).phtIdx % s.rd F.PHT_LEN_LEN g) → s.hubBytes a 32 →
        s.runs (.phaseMark d) fun t => t.completed d 0 ∧
          (t.stage g).openPh = (s.stage g).openPh.filter (fun o => o.phase != mSubop d.words % 8) ∧
          (t.stage g).phtIdx = ((s.stage g).phtIdx % s.rd F.PHT_LEN_LEN g + 1) % s.rd F.PHT_LEN_LEN g ∧
          t.peek a 32 = leBytes 8 o.start ++ leBytes 8 (max i.tide (s.stream d.stream).lastRetire) ++
            leBytes 3 (bits (mImm d.words) 0 24) ++ leBytes 1 (mSubop d.words % 8) ++ leBytes 2 (s.rd F.DEF_CFG_GSTAGE g) ++
            leBytes 2 (phaseErr o.err) ++ leBytes 8 (markInfo d.words (mSubop d.words % 8)) ∧
          (∀ x : Nat, (x < a ∨ a + 32 ≤ x) → t.byte x = s.byte x) ∧
          t = { s with streams := t.streams, stages := t.stages, mem := t.mem, regs := t.regs, imsic := t.imsic, out := t.out }

/-- R119, R223, R225: lists that a stream calls, and the phase marks of its stage. -/
def Obligations.ListsAndPhases : Prop :=
  Claims.SubringWalksItsList ∧ Claims.PhaseMarksOpenAndClose

/-- R118, R237: MOVE copies the source tensor's elements to the destination; MADD adds them, IADD modulo 2^32; here a plain i32
tensor of one row of one block in hub memory, addressed physically, whose sectors no regulator holds.
That the whole copy is one command is the model's form, log entry 56. -/
def Obligations.MoveAndMaddCompute : Prop :=
  ∀ (s : State) (d : Delivered) (dst src : Handle), s.hold = none → s.ready d = true → s.pairOf d = some (dst, src) →
    dst.fmt = 4 → src.fmt = 4 → dst.dims = [32, 1, 1, 1] → src.dims = [32, 1, 1, 1] → dst.addr % 128 = 0 →
    s.hubBytes dst.addr 128 → s.hubBytes src.addr 128 → (∀ (p : Perm) (a n x : Nat), s.xlate d p a n x = x) →
    (s.passes d (pilotOf (d.stream / 256)) (s.pairSectors d .w dst src).1 (s.pairSectors d .w dst src).2 →
      s.runs (.move d []) fun t => s.finished t d 0 ∧ t.peek dst.addr 128 = s.peek src.addr 128 ∧
        (∀ a : Nat, (a < dst.addr ∨ dst.addr + 128 ≤ a) → t.byte a = s.byte a) ∧
        t = { s with streams := t.streams, engines := t.engines, mem := t.mem, owed := t.owed, spent := t.spent, power := t.power,
                     regs := t.regs, imsic := t.imsic, out := t.out }) ∧
    (mSubop d.words = 1 → s.passes d (pilotOf (d.stream / 256)) (s.pairSectors d .a dst src).1 (s.pairSectors d .a dst src).2 →
      s.runs (.madd d []) fun t => s.finished t d 0 ∧
        t.peek dst.addr 128 =
          (((s.blockAt 4 32 dst.addr dst.saddr true).m.zip (s.blockAt 4 32 src.addr src.saddr true).m).flatMap fun xy =>
            leBytes 4 (code 32 (xy.1 + xy.2))) ∧
        (∀ a : Nat, (a < dst.addr ∨ dst.addr + 128 ≤ a) → t.byte a = s.byte a) ∧
        t = { s with streams := t.streams, engines := t.engines, mem := t.mem, owed := t.owed, spent := t.spent, power := t.power,
                     regs := t.regs, imsic := t.imsic, out := t.out })

/-! ### Ferries, landings, moorings and the deferral queue (chapter 06) -/

/-- R189, R250: an FSEND joins its ferry's queue with the micro-batch and version of its IMM, and waits in hand while eight are
queued; a FORWARD FSEND takes them from the descriptor, sends nothing at the ring's last hop, and completes with ERR on a
disabled channel; a ferry of another context is a segment violation, and one that is disabled or down fails it.
What a foreign ferry's FSEND leaves is the model's reading, log entries 19 and 76. -/
def Obligations.FsendQueuesATransfer : Prop :=
  ∀ (s : State) (d : Delivered) (n : Nat), s.hold = none → s.ready d = true → mOpcode d.words = 0x10 → n = bits (mImm d.words) 0 7 →
    (mSubop d.words % 2 = 0 →
      (s.rd F.FRY_CFG_CTX n = d.ctx →
        ((s.ferry n).st ≠ .disabled → (s.ferry n).st ≠ .routeDown → (s.ferry n).queue.length < 8 →
          s.runs (.fsend d) fun t => ∃ x : Xfer,
            (t.ferry n).queue = (s.ferry n).queue ++ [x] ∧ x.d = d ∧ x.started = false ∧ x.errTick = false ∧
              x.hdr.microBatch = bits (mImm d.words) 16 24 ∧ x.hdr.version = bits (mImm d.words) 40 16 ∧
              (t.ferry n).st = (if (s.ferry n).st = .idle then .sending else (s.ferry n).st) ∧
              (t.engineQ (engineKey (.ferry n))).cur = none ∧ t = { s with ferries := t.ferries, engines := t.engines }) ∧
        ((s.ferry n).st = .disabled ∨ (s.ferry n).st = .routeDown → s.runs (.fsend d) fun t => s.finished t d stErr ∧
          t.rd F.FRY_ERR_COUNT n = counted (s.rd F.FRY_ERR_COUNT n) ∧
          t = { s with streams := t.streams, engines := t.engines, regs := t.regs, imsic := t.imsic, out := t.out }) ∧
        ((s.ferry n).st ≠ .disabled → (s.ferry n).st ≠ .routeDown → 8 ≤ (s.ferry n).queue.length →
          s.runs (.fsend d) fun t => t = s)) ∧
      (s.rd F.FRY_CFG_CTX n ≠ d.ctx → s.runs (.fsend d) fun t => s.finished t d stErr ∧
        t.rd F.FRY_ERR_COUNT n = counted (s.rd F.FRY_ERR_COUNT n) ∧
        t.reports = s.reports ++ [⟨d.ctx, 1, 0x09, n, 0, d.addr, s.siteNow (pageSite 0x09 n)⟩] ∧
        t = { s with streams := t.streams, engines := t.engines, reports := t.reports, regs := t.regs, imsic := t.imsic, out := t.out })) ∧
    (mSubop d.words % 2 = 1 →
      (s.rd F.PON_JOB_ENABLE 432 (mArg d.words % 4) = 0 → s.runs (.forwardFsend d) fun t => s.finished t d stErr ∧
        t.rd F.FRY_ERR_COUNT n = counted (s.rd F.FRY_ERR_COUNT n) ∧
        t = { s with streams := t.streams, engines := t.engines, regs := t.regs, imsic := t.imsic, out := t.out }) ∧
      (s.rd F.PON_JOB_ENABLE 432 (mArg d.words % 4) ≠ 0 →
        s.rd F.PON_JOB_SEQ_SIZE 432 (mArg d.words % 4) - 1 ≤ mArg d.words / 256 % 256 → s.runs (.forwardFsend d) fun t =>
          s.finished t d 0 ∧ t = { s with streams := t.streams, engines := t.engines }) ∧
      ∀ desc : List Byte, s.rd F.PON_JOB_ENABLE 432 (mArg d.words % 4) ≠ 0 →
        mArg d.words / 256 % 256 < s.rd F.PON_JOB_SEQ_SIZE 432 (mArg d.words % 4) - 1 → s.rd F.FRY_CFG_CTX n = d.ctx →
        (s.ferry n).st ≠ .disabled → (s.ferry n).st ≠ .routeDown → (s.ferry n).queue.length < 8 →
        s.winBytes d.wins (opAddr (mOperand d.words 1)) 16 = some desc →
        s.structFails d (opAddr (mOperand d.words 1)) 16 = [] → s.runs (.forwardFsend d) fun t => ∃ x : Xfer,
          (t.ferry n).queue = (s.ferry n).queue ++ [x] ∧ x.d = d ∧ x.hdr.microBatch = leNat desc % 2 ^ 24 ∧
            x.hdr.version = leNat desc / 2 ^ 24 % 2 ^ 16 ∧ x.errTick = (leNat desc / 2 ^ 42 % 2 == 1) ∧
            (t.engineQ (engineKey (.ferry n))).cur = none ∧
            t = { s with ferries := t.ferries, engines := t.engines, spent := t.spent, power := t.power, cells := t.cells, hbms := t.hbms,
                         regs := t.regs, imsic := t.imsic, out := t.out })

/-- R190, R192 to R195: a transfer starts with the credit at the head of the FIFO, which names its slot, and XFER_SEQ
advances; with no credit the ferry waits for one, and in TOLL_WAIT while its class is held.  A returned credit joins the tail.
The transfer's end, once its last flit or packet has gone, completes its manifest. -/
def Sys2Proof.Claims.FerryTransfersTakeCredits : Prop :=
  ∀ (s : State) (n : Nat), s.hold = none → n < 128 →
    (∀ (x : Xfer) (rest : List Xfer), (s.ferry n).queue = x :: rest →
      (x.started = false → (s.ferry n).st ≠ .disabled → (s.ferry n).st ≠ .routeDown →
        s.rd F.FRY_CFG_MESH n = 1 ∨ (s.bond n ≠ [] ∧ ∀ p ∈ s.bond n, (s.port p).st = .up) →
        ((s.ferry n).credits = [] → s.runs (.ferryTransferStart n []) fun t =>
          (t.ferry n).st = .creditWait ∧ (t.ferry n).queue = (s.ferry n).queue ∧ t = { s with ferries := t.ferries }) ∧
        ∀ (slot : Nat) (cs : List Nat) (h : Handle), (s.ferry n).credits = slot :: cs →
          s.handleOf x.d (opAddr (mOperand x.d.words 0)) = some h →
          (∀ res : Nat, s.ferryHeld n h = some res → s.runs (.ferryTransferStart n []) fun t =>
            (t.ferry n).st = .tollWait ∧ (t.ferry n).queue = (s.ferry n).queue ∧ (t.ferry n).credits = (s.ferry n).credits ∧
              t = { s with ferries := t.ferries, power := t.power, regs := t.regs, imsic := t.imsic, out := t.out }) ∧
          (s.ferryHeld n h = none →
            (s.admitSectors (s.classOf (s.rd F.FRY_CFG_CTX n)) ((s.owedOf x.d).getD (s.payloadSectors n x.d h))).1 = [] →
            (s.payload n x.d [] h).2 = [] →
            s.runs (.ferryTransferStart n []) fun t => ∃ y : Xfer, (t.ferry n).queue = y :: rest ∧ y.d = x.d ∧ y.started = true ∧
              y.hdr.slot = slot ∧ y.hdr.ferry = n ∧ y.hdr.xferSeq = (s.ferry n).xferSeq ∧ y.hdr.srcNode = s.ownNode ∧
              y.hdr.microBatch = x.hdr.microBatch ∧ y.hdr.dims = h.dims ∧ (t.ferry n).credits = cs ∧ (t.ferry n).st = .sending ∧
              (t.ferry n).xferSeq = ((s.ferry n).xferSeq + 1) % 2 ^ 16 ∧ (∀ m : Nat, m ≠ n → t.ferry m = s.ferry m) ∧
              t = { s with ferries := t.ferries, ports := t.ports, net := t.net, owed := t.owed, spent := t.spent, power := t.power,
                           cells := t.cells, hbms := t.hbms, regs := t.regs, imsic := t.imsic, out := t.out })) ∧
      (x.started = true → (s.rd F.FRY_CFG_MESH n = 1 ∧ ∀ e ∈ s.net, e.2 ∈ x.packets → e.1 = e.2.src → e.1 = e.2.dest) ∨
          (s.rd F.FRY_CFG_MESH n ≠ 1 ∧ s.unsent n = false) → s.payloadFailed x.d = false → s.runs (.ferrySendComplete n) fun t =>
        (t.ferry n).queue = rest ∧ (t.ferry n).st = (if rest = [] then .idle else .sending) ∧
          (∀ i ∈ (t.stream x.d.stream).issued, i.d.seq = x.d.seq → i.complete = true) ∧
          t = { s with ferries := t.ferries, streams := t.streams })) ∧
    ∀ slot : Nat, s.runs (.creditReturn n slot) fun t =>
      (t.ferry n).credits = (s.ferry n).credits ++ [slot] ∧ (t.ferry n).queue = (s.ferry n).queue ∧
        (t.ferry n).st = (if (s.ferry n).st = .creditWait then .sending else (s.ferry n).st) ∧ t = { s with ferries := t.ferries }

/-- R193, R197, R227: enabling a disabled ferry makes it IDLE with the credits of its FRY_CREDIT; disabling it empties its
queue, and its manifests complete with ERR; a flush takes the transfers that have not started, counted as errors, and leaves the
one in progress.  That disabling completes the transfers with ERR is the model's reading, log entry 20. -/
def Sys2Proof.Claims.FerryEnableDisableFlush : Prop :=
  ∀ (s : State) (n : Nat), s.hold = none → n < 128 →
    ((s.ferry n).st = .disabled → s.runs (.ferryEnable n) fun t =>
      (t.ferry n).st = (if (s.ferry n).queue = [] then .idle else .sending) ∧ t.rd F.FRY_CTRL_ENABLE n = 1 ∧
        (t.ferry n).credits = (List.range (s.rd F.FRY_CREDIT_COUNT n)).map (fun i => s.rd F.FRY_CREDIT_FIRST n + i) ∧
        t = { s with ferries := t.ferries, regs := t.regs } ∧ s.regsBut t [F.FRY_CTRL_ENABLE.key n 0]) ∧
    (s.runs (.ferryDisable n) fun t => (t.ferry n).st = .disabled ∧ (t.ferry n).queue = [] ∧ t.rd F.FRY_CTRL_ENABLE n = 0 ∧
      (t.engineQ (engineKey (.ferry n))).entries = [] ∧ (t.engineQ (engineKey (.ferry n))).cur = none ∧
      (∀ x ∈ (s.ferry n).queue, ∀ i ∈ (t.stream x.d.stream).issued, i.d.seq = x.d.seq → i.complete = true ∧ i.status &&& 8 = 8) ∧
      t = { s with ferries := t.ferries, engines := t.engines, streams := t.streams, ports := t.ports, net := t.net, owed := t.owed,
                   regs := t.regs, imsic := t.imsic, out := t.out }) ∧
    ∀ (x : Xfer) (ys : List Xfer), (s.ferry n).queue = x :: ys → x.started = true → (∀ y ∈ ys, y.started = false) →
      s.runs (.ferryFlush n) fun t => (t.ferry n).queue = [x] ∧ (t.ferry n).st = (s.ferry n).st ∧
        t.rd F.FRY_ERR_COUNT n = min (s.rd F.FRY_ERR_COUNT n + ys.length) (2 ^ 48 - 1) ∧
        (∀ y ∈ ys, ∀ i ∈ (t.stream y.d.stream).issued, i.d.seq = y.d.seq → i.complete = true ∧ i.status &&& 8 = 8) ∧
        t = { s with ferries := t.ferries, streams := t.streams, owed := t.owed, regs := t.regs, imsic := t.imsic, out := t.out }

/-- R190 to R197, R227: a ferry from its enabling to the end of its transfers. -/
def Obligations.FerriesSend : Prop :=
  Claims.FerryTransfersTakeCredits ∧ Claims.FerryEnableDisableFlush

/-- R191, R198, R199: the first copy of a header with the landing's generation and stage fills its FREE slot; one for a slot that
is not FREE is an overrun, and one with a stale generation is dropped and counted, its credit returned, both leaving the entries
as they were.  A further copy of a transfer that fills adds its port to those that feed the entry. -/
def Sys2Proof.Claims.LandingAcceptsHeaders : Prop :=
  ∀ (s : State) (port : Nat) (h : FerryHdr), s.hold = none → h.landing < 64 →
    ((s.landing h.landing).copyOf port h = false → s.rd F.LND_CTRL_ENABLE h.landing ≠ 0 →
      (h.rgen = s.gen (s.rd F.LND_CFG_CTX h.landing) → h.destStage = s.rd F.DEF_CFG_GSTAGE (h.landing / 4) →
        (((s.landing h.landing).entry h.slot).st = .free → h.slot < s.rd F.LND_CFG_ENTRIES h.landing →
          h.dataBytes + h.scaleBytes ≤ s.rd F.LND_SLOT_BYTES h.landing * 64 → s.runs (.landingHeader port h) fun t =>
            ((t.landing h.landing).entry h.slot).st = .filling ∧ ((t.landing h.landing).entry h.slot).hdr = h ∧
              ((t.landing h.landing).entry h.slot).placed = [] ∧ ((t.landing h.landing).entry h.slot).feeds = [port] ∧
              (∀ k : Nat, k ≠ h.slot → (t.landing h.landing).entry k = (s.landing h.landing).entry k) ∧
              t = { s with landings := t.landings }) ∧
        (((s.landing h.landing).entry h.slot).st ≠ .free ∨ s.rd F.LND_CFG_ENTRIES h.landing ≤ h.slot →
          s.runs (.landingHeader port h) fun t => t.hasEvent 0x0A h.landing 4 ∧
            (t.landing h.landing).entries = (s.landing h.landing).entries ∧
            t = { s with landings := t.landings, regs := t.regs, imsic := t.imsic, out := t.out } ∧ s.regsBut t [evKey 0x0A h.landing])) ∧
      (h.rgen ≠ s.gen (s.rd F.LND_CFG_CTX h.landing) → s.runs (.landingHeader port h) fun t =>
        t.rd F.LND_DROP_COUNT h.landing = counted (s.rd F.LND_DROP_COUNT h.landing) ∧
          t.rd F.CTX_STALE_COUNT (s.rd F.LND_CFG_CTX h.landing) = counted (s.rd F.CTX_STALE_COUNT (s.rd F.LND_CFG_CTX h.landing)) ∧
          (h.ports = 0 → .ctrl 27 "CREDIT_RETURN" [h.ferry, h.slot] ∈ t.out) ∧
          (t.landing h.landing).entries = (s.landing h.landing).entries ∧
          t = { s with landings := t.landings, ports := t.ports, regs := t.regs, imsic := t.imsic, out := t.out })) ∧
    ∀ e : LEntry, (s.landing h.landing).copyOf port h = true → (s.landing h.landing).entry h.slot = e → e.st = .filling →
      (e.hdr.srcNode, e.hdr.ferry, e.hdr.xferSeq) = (h.srcNode, h.ferry, h.xferSeq) → s.runs (.landingHeader port h) fun t =>
        port ∈ ((t.landing h.landing).entry h.slot).feeds ∧ ((t.landing h.landing).entry h.slot).placed = e.placed ∧
          (∀ k : Nat, k ≠ h.slot → (t.landing h.landing).entry k = (s.landing h.landing).entry k) ∧ t = { s with landings := t.landings }

/-- R198 to R202, R206: a payload flit of a mesh route lands at its place in the slot; an entry whose payload is complete becomes
READY, next in the order, with its handle, and its ticket signals; LANDING_DRAIN frees what is READY or TAKEN and returns its
credit.  Here with the ADDR layout in hub memory. -/
def Sys2Proof.Claims.LandingEntriesFillAndDrain : Prop :=
  ∀ (s : State) (l : Nat), s.hold = none → l < 64 →
    (∀ (slot pos : Nat) (e : LEntry) (bytes : List Byte), (s.landing l).entry slot = e → e.st = .filling → e.fail = 0 →
      e.hdr.ports = 0 → pos ∉ e.placed → bytes.length = 512 → 512 * pos + 512 ≤ e.hdr.dataBytes → s.rd F.LND_CFG_LAYOUT l = 0 →
      s.hubBytes (s.slotBase l slot + 512 * pos) 512 → s.runs (.landingPayload l slot 48 pos bytes) fun t =>
        t.peek (s.slotBase l slot + 512 * pos) 512 = bytes ∧ ((t.landing l).entry slot).placed = e.placed ++ [pos] ∧
          (∀ a : Nat, (a < s.slotBase l slot + 512 * pos ∨ s.slotBase l slot + 512 * pos + 512 ≤ a) → t.byte a = s.byte a) ∧
          t = { s with landings := t.landings, mem := t.mem, net := t.net }) ∧
    (∀ (slot : Nat) (e : LEntry), (s.landing l).entry slot = e → e.st = .filling → (∀ x ∈ (s.landing l).entries, x.2.fail = 0) →
      e.fail = 0 → e.complete = true → (s.landing l).waits e = false → tktValid e.hdr.ticket = false → tktError e.hdr.ticket = false →
      s.runs (.landingEntryReady l slot) fun t =>
        ((t.landing l).entry slot).st = .ready ∧ ((t.landing l).entry slot).order = (s.landing l).clock + 1 ∧
          ((t.landing l).entry slot).err = false ∧ ((t.landing l).entry slot).handle = (s.entryHandle l slot e.hdr).bytes ∧
          (∀ k : Nat, k ≠ slot → (t.landing l).entry k = (s.landing l).entry k) ∧ t = { s with landings := t.landings }) ∧
    (s.runs (.landingDrain l) fun t =>
      (∀ k : Nat, ((t.landing l).entry k).st ≠ .ready ∧ ((t.landing l).entry k).st ≠ .taken) ∧ (∀ j : Nat, j ≠ l → t.landing j = s.landing j) ∧
        t = { s with landings := t.landings, ports := t.ports, regs := t.regs, imsic := t.imsic, out := t.out }) ∧
    ∀ (slot : Nat) (e : LEntry), (s.landing l).entries = [(slot, e)] → e.st = .ready ∨ e.st = .taken → e.hdr.ports = 0 →
      s.runs (.landingDrain l) fun t => (t.landing l).entries = [] ∧
        t.out = s.out ++ [.ctrl 27 "CREDIT_RETURN" [e.hdr.ferry, e.hdr.slot]] ∧ t = { s with landings := t.landings, out := t.out }

/-- R203 to R206: LTAKE writes the handle of the entry its view takes, and its descriptor where one is asked for, and the entry is
TAKEN; an empty view is an underrun and writes a handle of RANK 0.  LFREE frees the oldest entry taken through its view and
returns its credit, and ends with ERR where there is none.  Here with the operands in hub memory, addressed physically.
What a landing of another context leaves is the model's reading, log entry 19; the underrun's completion, log entry 77. -/
def Sys2Proof.Claims.LtakeAndLfree : Prop :=
  ∀ (s : State) (d : Delivered) (l a b : Nat), s.hold = none → s.ready d = true → l = mArg d.words % 64 →
    a = opAddr (mOperand d.words 0) → b = opAddr (mOperand d.words 1) →
    (s.rd F.DEF_CFG_CTX (l / 4) ≠ d.ctx → ∀ c ∈ [Instr.ltake d, .lfree d], s.runs c fun t => s.finished t d stErr ∧
      t.reports = s.reports ++ [⟨d.ctx, 1, 0x0A, l, 0, d.addr, s.siteNow (pageSite 0x0A l)⟩] ∧
      t = { s with streams := t.streams, engines := t.engines, reports := t.reports }) ∧
    (s.rd F.DEF_CFG_CTX (l / 4) = d.ctx → s.hubBytes a 64 → (∀ x n y : Nat, s.xlate d .w x n y = y) →
      s.passes d 27 [] (s.writeSectors d a 64 ++ (if opPresent (mOperand d.words 1) then s.writeSectors d b 16 else [])) →
      (opPresent (mOperand d.words 1) = true → s.hubBytes b 16 ∧ (a + 64 ≤ b ∨ b + 16 ≤ a)) →
      (∀ (slot : Nat) (e : LEntry), (s.landing l).choose (viewOf d.words) = some (slot, e) → e.handle.length = 64 →
        s.runs (.ltake d) fun t =>
          s.finished t d (if mArg d.words / 1024 % 2 = 1 ∧ bits (mImm d.words) 0 24 ≠ e.hdr.microBatch then stErr else 0) ∧
          ((t.landing l).entry slot).st = .taken ∧ ((t.landing l).entry slot).view = viewOf d.words ∧
          (∀ k : Nat, k ≠ slot → (t.landing l).entry k = (s.landing l).entry k) ∧ t.peek a 64 = e.handle ∧
          (opPresent (mOperand d.words 1) = true → t.peek b 16 = entryDesc slot e) ∧
          (mArg d.words / 1024 % 2 = 1 → bits (mImm d.words) 0 24 ≠ e.hdr.microBatch → t.hasEvent 0x0A l 2) ∧
          (e.hdr.kind = 0 → (t.landing l).lastFwd = e.hdr.microBatch) ∧ (e.hdr.kind = 1 → (t.landing l).lastBwd = e.hdr.microBatch) ∧
          (∀ x : Nat, (x < a ∨ a + 64 ≤ x) → (opPresent (mOperand d.words 1) = true → x < b ∨ b + 16 ≤ x) → t.byte x = s.byte x) ∧
          t = { s with landings := t.landings, streams := t.streams, engines := t.engines, mem := t.mem, owed := t.owed,
                       spent := t.spent, power := t.power, regs := t.regs, imsic := t.imsic, out := t.out }) ∧
      ((s.landing l).choose (viewOf d.words) = none → s.runs (.ltake d) fun t => s.finished t d 0 ∧ t.hasEvent 0x0A l 0 ∧
        t.peek a 64 = List.replicate 64 0 ∧ t.landings = s.landings ∧
        (∀ x : Nat, (x < a ∨ a + 64 ≤ x) → t.byte x = s.byte x) ∧
        t = { s with streams := t.streams, engines := t.engines, mem := t.mem, owed := t.owed, spent := t.spent, power := t.power,
                     regs := t.regs, imsic := t.imsic, out := t.out })) ∧
    (s.rd F.DEF_CFG_CTX (l / 4) = d.ctx →
      (∀ (slot : Nat) (e : LEntry), (slot, e) ∈ (s.landing l).entries → e.st = .taken → e.view = viewOf d.words →
        (∀ x ∈ (s.landing l).entries, x.2.st = .taken → x.2.view = viewOf d.words → x = (slot, e) ∨ e.order < x.2.order) →
        s.runs (.lfree d) fun t => s.finished t d 0 ∧ (t.landing l).entry slot = LEntry.reset ∧
          (∀ k : Nat, k ≠ slot → (t.landing l).entry k = (s.landing l).entry k) ∧
          (e.hdr.ports = 0 → t.out = s.out ++ [.ctrl 27 "CREDIT_RETURN" [e.hdr.ferry, e.hdr.slot]]) ∧
          t = { s with landings := t.landings, streams := t.streams, engines := t.engines, ports := t.ports, regs := t.regs,
                       imsic := t.imsic, out := t.out }) ∧
      ((∀ x ∈ (s.landing l).entries, x.2.st = .taken → x.2.view ≠ viewOf d.words) → s.runs (.lfree d) fun t =>
        s.finished t d stErr ∧ t = { s with streams := t.streams, engines := t.engines }))

/-- R198 to R206: a landing slot from its header to its release. -/
def Obligations.LandingsReceive : Prop :=
  Claims.LandingAcceptsHeaders ∧ Claims.LandingEntriesFillAndDrain ∧ Claims.LtakeAndLfree

/-- R208 to R211: publishing makes a free FULL mooring live with a count of 1, and a DELTA one whose base is live and FULL adds a
reference to that; MGET adds a reference and MPUT, or a host release, drops one; the last reference frees the mooring and raises
RELEASED; a live mooring is not published again, and an operation that is not applied ends with ERR and counts. -/
def Obligations.MooringReferencesCount : Prop :=
  ∀ (s : State) (m : Nat), s.hold = none → m < 128 →
    ((s.mooring m).live = false → s.mor F.MOR_CFG_FORM m = 0 → s.runs (.mooringPublish m) fun t =>
      t.mooring m = { count := 1, live := true } ∧ t = { s with moorings := t.moorings } ∧ ∀ k : Nat, k ≠ m → t.mooring k = s.mooring k) ∧
    ((s.mooring m).live = false → s.mor F.MOR_CFG_FORM m = 1 → (s.mooring (s.morBase m)).live = true →
      s.mor F.MOR_CFG_FORM (s.morBase m) ≠ 1 → (s.mooring (s.morBase m)).count ≠ 65535 → s.runs (.mooringPublish m) fun t =>
      t.mooring m = { count := 1, live := true } ∧
        t.mooring (s.morBase m) = { s.mooring (s.morBase m) with count := (s.mooring (s.morBase m)).count + 1 } ∧
        t = { s with moorings := t.moorings } ∧ ∀ k : Nat, k ≠ m → k ≠ s.morBase m → t.mooring k = s.mooring k) ∧
    ((s.mooring m).live = true → s.runs (.mooringPublish m) fun t =>
      t.hasEvent 0x0B (m / 8) 4 ∧ t = { s with regs := t.regs, imsic := t.imsic, out := t.out } ∧ s.regsBut t [evKey 0x0B (m / 8)]) ∧
    (1 < (s.mooring m).count → s.runs (.mooringHostRelease m) fun t =>
      t.mooring m = { s.mooring m with count := (s.mooring m).count - 1 } ∧ t = { s with moorings := t.moorings }) ∧
    ((s.mooring m).count = 0 → s.runs (.mooringHostRelease m) fun t => t.hasEvent 0x0B (m / 8) 1 ∧
      t.rd F.MOR_ERR_COUNT (m / 8) = counted (s.rd F.MOR_ERR_COUNT (m / 8)) ∧
      t = { s with regs := t.regs, imsic := t.imsic, out := t.out }) ∧
    ((s.mooring m).count = 1 → s.mor F.MOR_CFG_FORM m = 0 → s.runs (.mooringHostRelease m) fun t =>
      t.mooring m = { count := 0, live := false } ∧ t.hasEvent 0x0B (m / 8) 5 ∧ (∀ k : Nat, k ≠ m → t.mooring k = s.mooring k) ∧
        t = { s with moorings := t.moorings, bollards := t.bollards, waiters := t.waiters, streams := t.streams, reports := t.reports,
                     regs := t.regs, imsic := t.imsic, out := t.out }) ∧
    ∀ d : Delivered, s.ready d = true → m = mArg d.words % 128 →
      (s.rd F.DEF_CFG_CTX (m / 8) = d.ctx →
        ((s.mooring m).live = true → (s.mooring m).count ≠ 65535 →
          (bit (mImm d.words) 16 = true → bits (mImm d.words) 0 16 = s.mor F.MOR_CFG_VERSION m) →
          s.runs (.mget d) fun t => s.finished t d 0 ∧ t.mooring m = { s.mooring m with count := (s.mooring m).count + 1 } ∧
            t = { s with moorings := t.moorings, streams := t.streams, engines := t.engines }) ∧
        ((s.mooring m).live = false ∨ (s.mooring m).count = 65535 ∨
            (bit (mImm d.words) 16 = true ∧ bits (mImm d.words) 0 16 ≠ s.mor F.MOR_CFG_VERSION m) → s.runs (.mget d) fun t =>
          s.finished t d stErr ∧ t.rd F.MOR_ERR_COUNT (m / 8) = counted (s.rd F.MOR_ERR_COUNT (m / 8)) ∧
            ((s.mooring m).live = false → t.hasEvent 0x0B (m / 8) 3) ∧
            t = { s with streams := t.streams, engines := t.engines, regs := t.regs, imsic := t.imsic, out := t.out }) ∧
        (1 < (s.mooring m).count → s.runs (.mput d) fun t =>
          s.finished t d 0 ∧ t.mooring m = { s.mooring m with count := (s.mooring m).count - 1 } ∧
            t = { s with moorings := t.moorings, streams := t.streams, engines := t.engines }) ∧
        ((s.mooring m).count = 1 → s.mor F.MOR_CFG_FORM m = 0 → s.runs (.mput d) fun t => s.finished t d 0 ∧
          t.mooring m = { count := 0, live := false } ∧ t.hasEvent 0x0B (m / 8) 5) ∧
        ((s.mooring m).count = 0 → s.runs (.mput d) fun t => s.finished t d stErr ∧ t.hasEvent 0x0B (m / 8) 1 ∧
          t.moorings = s.moorings)) ∧
      (s.rd F.DEF_CFG_CTX (m / 8) ≠ d.ctx → ∀ c ∈ [Instr.mget d, .mput d], s.runs c fun t => s.finished t d stErr ∧
        t.moorings = s.moorings ∧ t.reports = s.reports ++ [⟨d.ctx, 1, 0x0B, m / 8, 0, d.addr, s.siteNow (pageSite 0x0B (m / 8))⟩])

/-- R215, R219: a DPUSH with a count appends its list to the stage's deferral queue, and on a full queue first has the oldest list
walked in the main stream; with a count of 0 the queued lists are walked there, and it completes at once with none queued. -/
def Sys2Proof.Claims.DpushQueuesOrDrains : Prop :=
  ∀ (s : State) (g : Nat) (d : Delivered) (e : DefEntry), s.hold = none → s.ready d = true → s.stageOf d.stream = some g →
    s.rd F.DEF_CFG_CTX g = d.ctx →
    e = ⟨opAddr (mOperand d.words 0), bits (mImm d.words) 0 13, bits (mImm d.words) 16 24, d.snap, d.wins⟩ →
    (bits (mImm d.words) 0 13 ≠ 0 →
      ((s.stage g).queue.length < 32 → s.runs (.dpush d) fun t => s.finished t d 0 ∧
        (t.stage g).queue = (s.stage g).queue ++ [e] ∧ (t.stream d.stream).walking = false ∧
        (t.stream d.stream).store = (s.stream d.stream).store ∧
        t = { s with streams := t.streams, engines := t.engines, stages := t.stages, waiters := t.waiters, reports := t.reports,
                     regs := t.regs, imsic := t.imsic, out := t.out }) ∧
      (∀ (o : DefEntry) (rest : List DefEntry), (s.stage g).queue = o :: rest → 31 ≤ rest.length →
        (s.stream d.stream).cancelling = false → s.runs (.dpush d) fun t =>
          (t.stage g).queue = rest ∧ (t.stage g).runs = ⟨o, 2, none, some e⟩ :: (s.stage g).runs ∧
          (0 < o.count → ∃ l : ListWalk, (t.stream d.stream).lists = l :: (s.stream d.stream).lists ∧
            l.addrs = listAddrs o.list o.count ∧ l.wins = o.wins ∧ l.snap = o.snap ∧ l.place = 3) ∧
          t.rd F.DEF_FORCED_COUNT g = counted (s.rd F.DEF_FORCED_COUNT g) ∧ t.hasEvent 0x0C g 0 ∧
          t = { s with streams := t.streams, engines := t.engines, stages := t.stages, regs := t.regs, imsic := t.imsic, out := t.out })) ∧
    (bits (mImm d.words) 0 13 = 0 →
      ((s.stage g).queue = [] → s.runs (.dpushDrain d) fun t => s.finished t d 0 ∧ (t.stream d.stream).walking = false ∧
        t.stages = s.stages ∧
        t = { s with streams := t.streams, engines := t.engines, waiters := t.waiters, reports := t.reports, regs := t.regs,
                     imsic := t.imsic, out := t.out }) ∧
      ∀ (o : DefEntry) (rest : List DefEntry), (s.stage g).queue = o :: rest → (s.stream d.stream).cancelling = false →
        s.runs (.dpushDrain d) fun t => (t.stage g).queue = rest ∧ (t.stage g).draining = true ∧
          (t.stage g).runs = ⟨o, 4, none, none⟩ :: (s.stage g).runs ∧
          (0 < o.count → ∃ l : ListWalk, (t.stream d.stream).lists = l :: (s.stream d.stream).lists ∧
            l.addrs = listAddrs o.list o.count ∧ l.place = 3) ∧
          t = { s with streams := t.streams, engines := t.engines, stages := t.stages })

/-- R217, R218: a bubble fill has the oldest list walked ahead of the waiting head, which it keeps, unless an arrival falls in the
same clock. -/
def Sys2Proof.Claims.BubbleFillRunsOldest : Prop :=
  ∀ (s : State) (g : Nat), s.hold = none → g < 16 →
    (s.runs (.bubbleFill g true) fun t => t = s) ∧
    (s.fillDue g = false → s.runs (.bubbleFill g false) fun t => t = s) ∧
    ∀ (e : DefEntry) (rest : List DefEntry), (s.stage g).queue = e :: rest → s.fillDue g = true → 0 < e.count →
      s.noLwait (s.rd F.DEF_CFG_MAIN g) → s.runs (.bubbleFill g false) fun t =>
        (t.stage g).queue = rest ∧ (t.stage g).runs = [⟨e, 1, none, none⟩] ∧
        (∃ l : ListWalk, (t.stream (s.rd F.DEF_CFG_MAIN g)).lists = l :: (s.stream (s.rd F.DEF_CFG_MAIN g)).lists ∧
          l.addrs = listAddrs e.list e.count ∧ l.wins = e.wins ∧ l.snap = e.snap ∧ l.place = 3) ∧
        (t.stream (s.rd F.DEF_CFG_MAIN g)).store = (s.stream (s.rd F.DEF_CFG_MAIN g)).store ∧
        (t.stream (s.rd F.DEF_CFG_MAIN g)).parked.isSome = true ∧
        t.rd F.DEF_FILLS_COUNT g = counted (s.rd F.DEF_FILLS_COUNT g) ∧
        t = { s with streams := t.streams, stages := t.stages, waiters := t.waiters, regs := t.regs, imsic := t.imsic, out := t.out }

/-- R215 to R219: the deferral queue. -/
def Obligations.DeferralQueueRunsLists : Prop :=
  Claims.DpushQueuesOrDrains ∧ Claims.BubbleFillRunsOldest

/-! ### Pontoons, the step veto and the optimiser (chapters 07 and 09) -/

/-- R68, R69, R237, R238: scale-aligned addition is commutative; IADD of blocks of one exponent gives the same block in
every order, and so does MAX as long as no intermediate block is all zero.  R238 claims the last for every block, but
R47 makes a unit write E = −127 for an all-zero MAX, which loses the exponent that aligned it (NOTES.md). -/
def Obligations.CombiningOrder : Prop :=
  ∀ (fmt : Nat) (a b c : Block), fmt < 5 → a.m.length = b.m.length → b.m.length = c.m.length →
    blockAdd fmt a b = blockAdd fmt b a ∧
    (a.e = b.e → b.e = c.e →
      blockIAdd fmt a b = blockIAdd fmt b a ∧
      (blockIAdd fmt (blockIAdd fmt a b).1 c).1 = (blockIAdd fmt a (blockIAdd fmt b c).1).1) ∧
    ((∀ x ∈ [a, b, c], (-127 : Int) ≤ x.e) → (fmt ≠ 4 → blockMax fmt a b = blockMax fmt b a) ∧
      ((blockMax fmt a b).allZero = false → (blockMax fmt b c).allZero = false →
        blockMax fmt (blockMax fmt a b) c = blockMax fmt a (blockMax fmt b c)))

/-- R239, R240, R242, R262: a PPUT at its stream's head asks the pontoon once, behind those that asked in an earlier clock, and stays
there; the grant issues it.  A message is kept in arrival order; a rejected contribution changes no entry, counts and completes
with ERR; a first contribution of a round that has more to come is copied into the round's entry, here a plain i32 tensor of one
block in hub memory.  A reset frees every entry.  The model's readings: log entries 80 and 81. -/
def Sys2Proof.Claims.PontoonGrantsPputs : Prop :=
  ∀ (s : State) (p : Nat), s.hold = none → p < 1024 → s.isPontoon p = true →
    (s.runs (.pontoonReset p) fun t =>
      (t.pontoon p).entries = [] ∧ (t.pontoon p).msgs = [] ∧ (t.pontoon p).granted = [] ∧
        (t.pontoon p).next = s.rd F.PON_BOL_ROUND_BASE p ∧ (t.pontoon p).waiting = (s.pontoon p).waiting ∧
        (∀ q : Nat, q ≠ p → t.pontoon q = s.pontoon q) ∧ t = { s with pontoons := t.pontoons }) ∧
    ∀ (d : Delivered) (h : Decoded), p = mArg d.words % 1024 →
      (∀ ue : List Nat, s.stillHead d = some h → s.issuesNop d.stream h d = false → s.issueHeld d.stream d.words = none →
        s.accepts d.words = true → (∀ w ∈ (s.pontoon p).waiting, w.1 ≠ d) →
        (s.runs (.pput d ue false) fun t => (∃ clk : Nat, (t.pontoon p).waiting = (s.pontoon p).waiting ++ [(d, ue, clk)] ∧
          ∀ w ∈ (s.pontoon p).waiting, w.2.2 < clk) ∧ (t.pontoon p).entries = (s.pontoon p).entries ∧ t = { s with pontoons := t.pontoons }) ∧
        s.runs (.pput d ue true) fun t => (∃ (clk : Nat) (l r : List (Delivered × List Nat × Nat)), (s.pontoon p).waiting = l ++ r ∧
          (t.pontoon p).waiting = l ++ (d, ue, clk) :: r ∧ (∀ w ∈ (s.pontoon p).waiting, w.2.2 ≤ clk) ∧
          (∀ w ∈ l, w.2.2 = clk → w.1.stream / 256 ≤ d.stream / 256) ∧
          ∀ w ∈ r.head?, w.2.2 = clk ∧ d.stream / 256 < w.1.stream / 256) ∧ t = { s with pontoons := t.pontoons }) ∧
      (s.asksAlone p d h → s.rd F.PON_CFG_CTX p = d.ctx →
        (s.rd F.PON_CFG_OP p = 3 → (s.pontoon p).msgs.length < s.ponDepth p * s.rd F.PON_ENTRY_BYTES64 p →
          s.runs (.pontoonGrant p) fun t => t.completed d 0 ∧
            (t.pontoon p).msgs = (s.pontoon p).msgs ++ [(s.winBytes d.wins (opAddr (mOperand d.words 1)) 64).getD []] ∧
            (t.pontoon p).waiting = [] ∧ t.rd F.PON_APPLIED_COUNT p = counted (s.rd F.PON_APPLIED_COUNT p) ∧ s.sameMem t) ∧
        (s.pputRejected p d = true → s.runs (.pontoonGrant p) fun t => t.completed d stErr ∧
          (t.pontoon p).entries = (s.pontoon p).entries ∧ (t.pontoon p).waiting = [] ∧ t.hasEvent 0x0E p 0 ∧
            t.rd F.PON_ERR_COUNT p = counted (s.rd F.PON_ERR_COUNT p) ∧
            t = { s with pontoons := t.pontoons, streams := t.streams, engines := t.engines, cells := t.cells, hbms := t.hbms,
                         spent := t.spent, power := t.power, regs := t.regs, imsic := t.imsic, out := t.out }) ∧
        (∀ (x : Handle) (r i a : Nat), r = pputRound d.words → i = r % s.ponDepth p → x = s.contribution d → x.oneBlock →
          a = s.rd F.PON_BUF_ADDR p * 64 + i * s.ponBytes p → s.hubBytes x.addr 128 → s.hubBytes a 128 →
          (∀ (q : Perm) (b n y : Nat), s.xlate d q b n y = y) → s.baseToll (s.classOf d.ctx) 3 = unmetered → s.owedOf d = none →
          s.pputRejected p d = false → s.pputGranted p d = true → s.rd F.PON_CFG_OP p ≠ 3 → ((s.pontoon p).entry i).applied = [] →
          1 < s.rd F.PON_CFG_EXPECT p → s.runs (.pontoonGrant p) fun t => t.completed d 0 ∧
            (t.pontoon p).next = (s.pontoon p).next ∧ ((t.pontoon p).entry i).applied = [pputIndex d.words] ∧
            ((t.pontoon p).entry i).round = r ∧ ((t.pontoon p).entry i).dims = x.dims ∧ (t.pontoon p).waiting = [] ∧
            (t.pontoon p).granted = [] ∧ t.peek a 128 = s.peek x.addr 128 ∧
            (∀ y : Nat, (y < a ∨ a + 128 ≤ y) → t.byte y = s.byte y) ∧
            t.rd F.PON_APPLIED_COUNT p = counted (s.rd F.PON_APPLIED_COUNT p)))

/-- R241 to R243: a PTAKE of a message pontoon writes the oldest message to its operand's address, and of a tensor pontoon the
oldest round's entry to its handle, here a plain i32 tensor of one block in hub memory, and frees the entry; PON_LAST_TAKE is
stamped.  One that finds nothing to take writes nothing, counts an underrun and completes with ERR. -/
def Sys2Proof.Claims.PtakeDeliversOrUnderruns : Prop :=
  ∀ (s : State) (p a : Nat) (d : Delivered), s.hold = none → s.ready d = true → receiverSet d.words = [p] → s.isPontoon p = true →
    s.rd F.PON_CFG_CTX p = d.ctx → a = opAddr (mOperand d.words 0) →
    (∀ (m : List Byte) (rest : List (List Byte)), s.ponOn p = true → s.rd F.PON_CFG_OP p = 3 →
      (s.pontoon p).msgs = m :: rest → m.length = 64 → opPresent (mOperand d.words 1) = false → s.hubBytes a 64 →
      s.segsOf d .w [(a, 64)] = true → (∀ x : Nat, s.xlate d .w a 64 x = x) →
      s.passes d (p / 16) [] (s.writeSectors d a 64 ++ s.descSectors d) →
      s.runs (.ptake d) fun t => s.finished t d 0 ∧ t.peek a 64 = m ∧ (∀ x : Nat, (x < a ∨ a + 64 ≤ x) → t.byte x = s.byte x) ∧
        t.pontoon p = { s.pontoon p with msgs := rest, lastTake := s.siteNow (p / 16) } ∧
        t = { s with pontoons := t.pontoons, streams := t.streams, engines := t.engines, mem := t.mem, owed := t.owed, spent := t.spent,
                     power := t.power, regs := t.regs, imsic := t.imsic, out := t.out }) ∧
    (∀ (e : PEntry) (h dst : Handle) (b : Nat), s.ponOn p = true → s.rd F.PON_CFG_OP p ≠ 3 → s.deliverable p = some e →
      s.rd F.PON_CFG_FORMAT p = 4 → e.dims = [32, 1, 1, 1] → s.handleOf d a = some h → dst = denseHandle 4 e.dims h.addr h.saddr →
      b = s.rd F.PON_BUF_ADDR p * 64 + (s.pontoon p).next % s.ponDepth p * s.ponBytes p → opPresent (mOperand d.words 1) = false →
      s.segsOf d .w (dst.ranges true) = true → s.hubBytes h.addr 128 → s.hubBytes b 128 →
      (∀ (q : Perm) (y n x : Nat), s.xlate d q y n x = x) →
      s.passes d (p / 16) ((s.entryTensor p ((s.pontoon p).next % s.ponDepth p) e.dims).sectorList physXl false).dedup
        ((dst.sectorList (s.xlate d .w) true).dedup ++ s.descSectors d) →
      s.runs (.ptake d) fun t => s.finished t d 0 ∧ t.peek h.addr 128 = s.peek b 128 ∧
        (∀ x : Nat, (x < h.addr ∨ h.addr + 128 ≤ x) → t.byte x = s.byte x) ∧
        (t.pontoon p).entry ((s.pontoon p).next % s.ponDepth p) = PEntry.reset ∧
        (t.pontoon p).next = ((s.pontoon p).next + 1) % 2 ^ 24 ∧ (t.pontoon p).lastTake = s.siteNow (p / 16)) ∧
    (s.hasDelivery p = false → s.runs (.ptake d) fun t => s.finished t d stErr ∧ t.hasEvent 0x0E p 1 ∧
      t.rd F.PON_ERR_COUNT p = counted (s.rd F.PON_ERR_COUNT p) ∧
      t = { s with streams := t.streams, engines := t.engines, regs := t.regs, imsic := t.imsic, out := t.out })

/-- Chapter 07: a pontoon grants what is put and delivers what is taken. -/
def Obligations.PontoonsCarryGradients : Prop :=
  Claims.PontoonGrantsPputs ∧ Claims.PtakeDeliversOrUnderruns

/-- R255, R256, R257: an accepted close enters CLOSED with the sampled contribution and its deadline; a close that comes
too early is refused; an UP of a child for the closed step is gathered; a module that is not the root sends one UP to
its parent once it holds its close and every child's UP. The model's reading of early UPs: log entry 25. -/
def Obligations.VetoGathersContributions : Prop :=
  ∀ (s : State) (ch : Nat), s.hold = none → s.vetoOn ch = true →
    (∀ step : Nat, (s.veto ch).everClosed = false ∨
        (((s.veto ch).st = .clear ∨ (s.veto ch).st = .veto) ∧ step = ((s.veto ch).step + 1) % 2 ^ 32) →
      (s.veto ch).kept = [] → s.vetoChildren ch ≠ [] → s.runs (.vetoClose ch step) fun t =>
        (t.veto ch).st = .closed ∧ (t.veto ch).step = step ∧ (t.veto ch).ups = [] ∧ (t.veto ch).upSent = false ∧
          (t.veto ch).contrib =
            (((s.ctxCores (s.vetoCtx ch)).any fun c => s.rd F.TC_ABSURD_FLAG c == 1) || s.normHigh (s.vetoCtx ch)) ∧
          (t.veto ch).deadline = s.now + s.rd F.PON_VETO_CFG_WINDOW_US 432 ch * 1000 ∧ (t.veto ch).down = (s.veto ch).down ∧
          (s.normHigh (s.vetoCtx ch) = true → t.rd F.OPT_GNORM_FLAG 24 (s.vetoCtx ch) = 1) ∧
          (∀ k : Nat, k ≠ ch → t.veto k = s.veto k) ∧
          t = { s with vetoes := t.vetoes, regs := t.regs, imsic := t.imsic, out := t.out }) ∧
    (∀ step : Nat, (s.veto ch).everClosed = true → (s.veto ch).st = .closed ∨ (s.veto ch).st = .held →
      s.runs (.vetoClose ch step) fun t => t.hasEvent 0x0E 432 4 ∧ t = { s with regs := t.regs, imsic := t.imsic, out := t.out } ∧
        s.regsBut t [evKey 0x0E 432]) ∧
    (∀ (port : Nat) (m : VetoMsg), s.vetoChannel m.job = some ch → (s.veto ch).everClosed = true →
      (s.veto ch).st = .closed ∨ (s.veto ch).st = .held → m.step = (s.veto ch).step → s.vetoRoot ch = false →
      (port ∈ s.vetoChildren ch → (∀ u ∈ (s.veto ch).ups, u.1 ≠ port) → s.runs (.vetoUpReceive port m) fun t =>
        t.veto ch = { s.veto ch with ups := (s.veto ch).ups ++ [(port, m.veto, m.count)] } ∧
          (∀ k : Nat, k ≠ ch → t.veto k = s.veto k) ∧ t = { s with vetoes := t.vetoes }) ∧
      (port ∉ s.vetoChildren ch → s.runs (.vetoUpReceive port m) fun t => t.hasEvent 0x0E 432 3 ∧
        t = { s with regs := t.regs, imsic := t.imsic, out := t.out } ∧ s.regsBut t [evKey 0x0E 432])) ∧
    (s.vetoRoot ch = false → (s.veto ch).st = .closed ∨ (s.veto ch).st = .held → (s.veto ch).upSent = false → s.childrenIn ch = true →
      s.portOpen (s.rd F.PON_VETO_TREE_PARENT 432 ch) = true → s.runs (.vetoUpSend ch) fun t =>
        t.veto ch = { s.veto ch with upSent := true } ∧ t = { s with vetoes := t.vetoes, ports := t.ports } ∧
          (∀ q : Nat, q ≠ s.rd F.PON_VETO_TREE_PARENT 432 ch → t.port q = s.port q) ∧
          ∃ f : Flit, (t.port (s.rd F.PON_VETO_TREE_PARENT 432 ch)).txQueue =
              (s.port (s.rd F.PON_VETO_TREE_PARENT 432 ch)).txQueue ++ [f] ∧
            vetoOfBytes (f.payload.drop 8) = ⟨s.rd F.PON_JOB_JOB 432 ch, false, (s.veto ch).total.2, false,
              (s.veto ch).step % 2 ^ 32, (s.veto ch).total.1⟩)

/-- R257 to R260, R265: a DOWN is applied in CLOSED until its deadline's tick is over (record, CLEAR or VETO, LATE in that tick, the
norm sum reset) and only recorded in HELD; it goes on to the children; a channel with no result by the end of that tick enters
HELD; the driver's COMMIT or DISCARD resolves HELD and is ignored outside it. The model's reading of a DOWN in HELD: log entry 25. -/
def Obligations.VetoAppliesOneResult : Prop :=
  ∀ (s : State) (ch a : Nat), s.hold = none → s.vetoOn ch = true → a = s.rd F.PON_VETO_REC_ADDR 432 ch * 16 → s.hubBytes a 16 →
    (∀ (port : Nat) (m : VetoMsg), s.vetoChannel m.job = some ch → (s.veto ch).everClosed = true →
      m.step = (s.veto ch).step →
      ((s.veto ch).st = .closed → s.vetoPast ch = false → s.runs (.vetoDownReceive port m) fun t =>
        (t.veto ch).st = (if m.veto then .veto else .clear) ∧ (t.veto ch).late = s.tide.reached 27 (s.veto ch).deadline ∧
          (t.veto ch).down = (s.veto ch).down ++ [((s.veto ch).step, m.veto, m.mismatch, m.count)] ∧
          Sparse.get (fun _ => 0) t.gnorm (s.vetoCtx ch) = 0 ∧ t.rd F.OPT_GNORM_FLAG 24 (s.vetoCtx ch) = 0 ∧
          t.peek a 16 = leBytes 4 (s.veto ch).step ++ leBytes 1 (if m.veto then 2 else 1) ++
            leBytes 1 ((s.tide.reached 27 (s.veto ch).deadline).toNat + 4 * m.mismatch.toNat) ++ leBytes 2 m.count ++ leBytes 8 s.now ∧
          (∀ x : Nat, (x < a ∨ a + 16 ≤ x) → t.byte x = s.byte x) ∧
          (∀ c ∈ s.ctxCores (s.vetoCtx ch), t.rd F.TC_ABSURD_FLAG c = 0 ∧ t.rd F.TC_SAT_CNT_COUNT c = 0) ∧
          t = { s with vetoes := t.vetoes, mem := t.mem, gnorm := t.gnorm, bollards := t.bollards, waiters := t.waiters,
                       streams := t.streams, reports := t.reports, regs := t.regs, imsic := t.imsic, out := t.out }) ∧
      ((s.veto ch).st = .held → s.runs (.vetoDownReceive port m) fun t =>
        t.veto ch = { s.veto ch with
          lateResult := true, lateVeto := m.veto, down := (s.veto ch).down ++ [((s.veto ch).step, m.veto, m.mismatch, m.count)] } ∧
          t = { s with vetoes := t.vetoes })) ∧
    (∀ (step : Nat) (veto mism : Bool) (count : Nat) (rest : List (Nat × Bool × Bool × Nat)),
      (s.veto ch).down = (step, veto, mism, count) :: rest →
      s.runs (.vetoDownSend ch) fun t => t.veto ch = { s.veto ch with down := rest } ∧
        t = { s with vetoes := t.vetoes, ports := t.ports } ∧
        ∀ p ∈ s.vetoChildren ch, s.portOpen p = true → (t.port p).txQueue = (s.port p).txQueue ++
          [newFlit 4 (msgVc msgVeto) 0 false (msgPayload 0xFFFF s.ownNode msgVeto (s.rd F.VPT_TRANSIT_TTL 48)
            (vetoBytes ⟨s.rd F.PON_JOB_JOB 432 ch, true, veto, mism, step, count⟩))]) ∧
    (s.vetoPast ch = false → s.runs (.vetoDeadline ch) fun t => t = s) ∧
    (s.vetoPast ch = true → s.runs (.vetoDeadline ch) fun t =>
      t.veto ch = { s.veto ch with st := .held } ∧ t.hasEvent 0x0E 432 0 ∧
        t.rd F.PON_VETO_HOLDS_COUNT 432 ch = counted (s.rd F.PON_VETO_HOLDS_COUNT 432 ch) ∧
        t.peek a 16 = leBytes 4 (s.veto ch).step ++ leBytes 1 3 ++ leBytes 1 0 ++ leBytes 2 0 ++ leBytes 8 s.now ∧
        (∀ x : Nat, (x < a ∨ a + 16 ≤ x) → t.byte x = s.byte x) ∧
        t = { s with vetoes := t.vetoes, mem := t.mem, regs := t.regs, imsic := t.imsic, out := t.out }) ∧
    ((s.veto ch).st = .held → ∀ (c : Instr) (veto : Bool), (c = .vetoCmdCommit ch ∧ veto = false) ∨ (c = .vetoCmdDiscard ch ∧ veto = true) →
      s.runs c fun t => (t.veto ch).st = (if veto then .veto else .clear) ∧ (t.veto ch).late = false ∧
        t.peek a 16 = leBytes 4 (s.veto ch).step ++ leBytes 1 (if veto then 2 else 1) ++ leBytes 1 2 ++ leBytes 2 0 ++ leBytes 8 s.now ∧
        t = { s with vetoes := t.vetoes, mem := t.mem, gnorm := t.gnorm, bollards := t.bollards, waiters := t.waiters,
                     streams := t.streams, reports := t.reports, regs := t.regs, imsic := t.imsic, out := t.out }) ∧
    ((s.veto ch).st ≠ .held → exec (.vetoCmdCommit ch) s = .next s ∧ exec (.vetoCmdDiscard ch) s = .next s)

/-- R317, R320: a PREPARE of a shard already prepared or already committed for its step completes normally, and one
that finds another step prepared completes with ERR; none of them writes memory.  A PREPARE that updates writes only the
inactive slot and the commit word: PSTEP, and PREP once the slot is written; and it adds the shard's norm (R315). -/
def Obligations.PrepareWritesInactiveSlot : Prop :=
  ∀ (s u : State) (d : Delivered) (h : Shard) (k : Factors) (cw : Word), s.hold = none → s.ready d = true →
    ostepSub d 0 = true → s.ostepArgs d = (h, k) → s.commitWord d h = cw → s.readArgs d = ([], u) → u.ostepRefused d = none →
    u.prepareSegs d h (cwActive cw) = true → u.commitFails d h = [] →
    (cwPrep cw = true → u.pstep d h (1 - cwActive cw) = mStep d.words → s.runs (.ostepPrepare d []) fun t =>
      s.finished t d 0 ∧ t = { u with streams := t.streams, engines := t.engines }) ∧
    (cwPrep cw = true → u.pstep d h (1 - cwActive cw) ≠ mStep d.words → s.runs (.ostepPrepare d []) fun t =>
      s.finished t d stErr ∧ t.rd F.OPT_ERR_INFO_REASON (ostepUnit d.words) = 1 ∧
        t = { u with streams := t.streams, engines := t.engines, regs := t.regs, imsic := t.imsic, out := t.out }) ∧
    (cwPrep cw = false → cwStep cw = mStep d.words → s.runs (.ostepPrepare d []) fun t =>
      s.finished t d 0 ∧ t = { u with streams := t.streams, engines := t.engines }) ∧
    (u = { s with cells := u.cells, hbms := u.hbms, spent := u.spent, power := u.power, regs := u.regs, imsic := u.imsic, out := u.out }) ∧
    (cwPrep cw = false → cwStep cw ≠ mStep d.words → h.fmt < 4 → 0 < h.n →
      (∀ (q : Perm) (a n x : Nat), u.xlate d q a n x = x) →
      (∀ r ∈ [(h.w, h.n * fmtBits h.fmt / 8), (h.ws, h.n / 32), (h.g, 4 * h.n), (h.gs, h.n / 32),
        (h.slot, 2 * h.slotBytes), (h.commit, 8)], s.hubBytes r.1 r.2) →
      (h.commit + 8 ≤ h.slot ∨ h.slot + 2 * h.slotBytes ≤ h.commit) →
      (∀ x ∈ h.inputs (cwActive cw), ∀ row ∈ (u.readTensor (u.xlate d .r) [] x).rows, ∀ b ∈ row, b.poisoned = false) →
      u.passes d (portNode (2 * ostepUnit d.words)) (u.prepareReads d h (cwActive cw)) (u.prepareWrites d h (cwActive cw)) →
      s.runs (.ostepPrepare d []) fun t => s.finished t d 0 ∧ t.commitWord d h = setBits cw 1 1 1 ∧
        t.pstep d h (1 - cwActive cw) = mStep d.words ∧
        Sparse.get (fun _ => 0) t.gnorm d.ctx = min (2 ^ 96 - 1) (Sparse.get (fun _ => 0) s.gnorm d.ctx +
          ((((u.readTensor (u.xlate d .r) [] h.grad).rows.headD []).map normPart).sum)) ∧
        (∀ a : Nat, (a < h.slotAddr (1 - cwActive cw) ∨ h.slotAddr (1 - cwActive cw) + h.slotBytes ≤ a) →
          (a < h.commit ∨ h.commit + 8 ≤ a) → t.byte a = s.byte a) ∧
        t = { s with streams := t.streams, engines := t.engines, mem := t.mem, gnorm := t.gnorm, cells := t.cells, hbms := t.hbms,
                     owed := t.owed, spent := t.spent, power := t.power, regs := t.regs, imsic := t.imsic, out := t.out })

/-- R318: a COMMIT whose step's result is not out waits at its unit, with its context's later entries behind it, until
COMMIT_RELEASE finds the result; one whose channel holds another step completes with ERR.
The model's reading of the order of checks: log entry 87. -/
def Sys2Proof.Claims.CommitWaits : Prop :=
  ∀ (s : State) (d : Delivered) (unit ctx : Nat), s.hold = none →
    (∀ u : State, s.ready d = true → ostepSub d 1 = true → s.readArgs d = ([], u) → u.ostepRefused d = none →
      u.commitSegs d (u.ostepArgs d).1 = true →
      ((s.veto (commitChannel d.words)).step = mStep d.words → s.commitReady d = false → s.runs (.ostepCommit d) fun t =>
        t.optHeld = Sparse.insert s.optHeld (ostepUnit d.words * 64 + d.ctx) d ∧ t = { u with optHeld := t.optHeld, engines := t.engines }) ∧
      ((s.veto (commitChannel d.words)).step ≠ mStep d.words → s.runs (.ostepCommit d) fun t => s.finished t d stErr ∧
        t.rd F.OPT_ERR_INFO_REASON (ostepUnit d.words) = 3 ∧
        t = { u with streams := t.streams, engines := t.engines, regs := t.regs, imsic := t.imsic, out := t.out })) ∧
    (ctx < 64 → s.optHeld = [(unit * 64 + ctx, d)] → s.issuedOf d ≠ none →
      ((s.veto (commitChannel d.words)).step = mStep d.words → s.commitReady d = false → exec (.commitRelease unit) s = .next s) ∧
      ((s.veto (commitChannel d.words)).step ≠ mStep d.words → s.runs (.commitRelease unit) fun t => t.completed d stErr ∧
        t.optHeld = [] ∧ t = { s with optHeld := t.optHeld, streams := t.streams, engines := t.engines, regs := t.regs, imsic := t.imsic, out := t.out }))

/-- R319: a CLEAR flips the commit word once the staged weights are copied, a VETO only clears PREP; a CLEAR of a shard that holds
neither the prepared nor the committed step completes with ERR. -/
def Sys2Proof.Claims.CommitActs : Prop :=
  ∀ (s : State) (d : Delivered) (h : Shard) (k : Factors) (cw : Word) (unit ctx : Nat), s.hold = none → s.ostepArgs d = (h, k) →
    s.commitWord d h = cw → (s.veto (commitChannel d.words)).step = mStep d.words → ctx < 64 → s.optHeld = [(unit * 64 + ctx, d)] →
    s.issuedOf d ≠ none → h.fmt < 4 → 0 < h.n → (∀ (q : Perm) (a n x : Nat), s.xlate d q a n x = x) →
    (∀ r ∈ h.commitRanges, s.hubBytes r.1 r.2) → (h.commitRanges.Pairwise fun x y => x.1 + x.2 ≤ y.1 ∨ y.1 + y.2 ≤ x.1) →
    s.passes d (portNode (2 * ostepUnit d.words)) (s.commitReads d h) (s.commitWrites d h) →
    (cwPrep cw = true → s.pstep d h (1 - cwActive cw) = mStep d.words →
      ((s.veto (commitChannel d.words)).st = .clear → s.runs (.commitRelease unit) fun t => t.completed d 0 ∧ t.optHeld = [] ∧
        t.peek h.wd (h.n * fmtBits h.fmt / 8) = s.peek (h.staged (1 - cwActive cw)).addr (h.n * fmtBits h.fmt / 8) ∧
        t.peek h.wds (h.n / 32) = s.peek (h.staged (1 - cwActive cw)).saddr (h.n / 32) ∧
        (h.zero = true → t.peek h.g (4 * h.n) = List.replicate (4 * h.n) 0) ∧
        cwActive (t.commitWord d h) = 1 - cwActive cw ∧ cwPrep (t.commitWord d h) = false ∧
        cwStep (t.commitWord d h) = mStep d.words % 2 ^ 32) ∧
      ((s.veto (commitChannel d.words)).st = .veto → s.runs (.commitRelease unit) fun t => t.completed d 0 ∧ t.optHeld = [] ∧
        t.commitWord d h = setBits cw 1 1 0 ∧
        (h.zero = true → t.peek h.g (4 * h.n) = List.replicate (4 * h.n) 0) ∧
        ∀ a : Nat, (a < h.commit ∨ h.commit + 8 ≤ a) → (h.zero = true → a < h.g ∨ h.g + 4 * h.n ≤ a) → t.byte a = s.byte a)) ∧
    (cwPrep cw = false → cwStep cw ≠ mStep d.words → (s.veto (commitChannel d.words)).st = .clear →
      s.runs (.commitRelease unit) fun t => t.completed d stErr ∧ t.optHeld = [] ∧ s.sameMem t)

/-- R309: PUBLISH writes the mooring's version and publishes it; one that is refused completes with ERR. -/
def Sys2Proof.Claims.OstepPublishes : Prop :=
  ∀ (s : State) (d : Delivered) (m : Nat), s.hold = none → s.ready d = true → ostepSub d 2 = true → ostepUnit d.words < 24 →
    s.rd F.OPT_CTRL_ENABLE (ostepUnit d.words) ≠ 0 → m = mArg d.words / 65536 % 128 → s.stageCtx (m / 8) = d.ctx →
    ((s.mooring m).live = false → s.mor F.MOR_CFG_FORM m = 0 → s.runs (.ostepPublish d) fun t => s.finished t d 0 ∧
      t.mooring m = { count := 1, live := true } ∧ t.rd F.MOR_CFG_VERSION (m / 8) (m % 8) = bits (mImm d.words) 0 16 ∧
      t = { s with moorings := t.moorings, regs := t.regs, streams := t.streams, engines := t.engines }) ∧
    ((s.mooring m).live = true → s.runs (.ostepPublish d) fun t => s.finished t d stErr ∧ t.moorings = s.moorings ∧
      t.hasEvent 0x0B (m / 8) 4 ∧ t.rd F.OPT_ERR_COUNT (ostepUnit d.words) = counted (s.rd F.OPT_ERR_COUNT (ostepUnit d.words)))

/-- R309, R318, R319: an optimiser's COMMIT and PUBLISH. -/
def Obligations.CommitWaitsForTheVeto : Prop :=
  Claims.CommitWaits ∧ Claims.CommitActs ∧ Claims.OstepPublishes

/-! ### Checkpoints, the tide and crossings (chapters 05 and 09) -/

/-- R321, R322, R326: a start in IDLE, DONE or ERROR begins a run and a start while one runs is ignored; a snapshot of coherent
regions sweeps the directory first, one whose contexts are not quiet at T0 ends in ERROR with REASON 1 and saves nothing; a
manifest's list that its windows refuse starts nothing; ABORT ends a run with REASON 5. -/
def Obligations.CheckpointStarts : Prop :=
  ∀ s : State, s.hold = none →
    (s.ckpt.st ≠ .quiesced → s.ckpt.st ≠ .background → s.ckpt.st ≠ .restoring →
      (s.quiesced 0x10 0 = false →
        let a := s.rd F.CKP_LIST_ADDR * 64
        let rs := listRegions s.physBytes a
        (s.rd F.CKP_CFG_MODE = 0 →
          (s.coherentList rs = true → s.runs .ckpStart fun t => s.sweepBegun t rs ∧ t.ckpt.starter = none) ∧
          (s.coherentList rs = false → s.quiet (leNat (s.physBytes (a + 8) 8)) = true → s.runs .ckpStart fun t =>
            s.snapshotBegun t rs ∧ t.ckpt.starter = none) ∧
          (s.coherentList rs = false → s.quiet (leNat (s.physBytes (a + 8) 8)) = false → s.ckpt.held = [] → s.runs .ckpStart fun t =>
            t.ckpt.st = .error ∧ t.ckpt.reason = 1 ∧ t.hasEvent 0x10 0 2 ∧ t.ckpt.written = [] ∧
              t = { s with ckpt := t.ckpt, regs := t.regs, imsic := t.imsic, out := t.out, spent := t.spent, power := t.power,
                           cells := t.cells, hbms := t.hbms })) ∧
        (s.rd F.CKP_CFG_MODE = 1 → s.runs .ckpStart fun t => t.ckpt.st = .background ∧ t.ckpt.mode = 1 ∧ t.ckpt.starter = none) ∧
        (s.rd F.CKP_CFG_MODE = 2 → s.ringUsed = 0 → s.runs .ckpStart fun t => t.ckpt.st = .restoring ∧ t.ckpt.part = 0 ∧
          t.ckpt.starter = none ∧ s.sameMem t)) ∧
      ∀ d : Delivered, s.ready d = true →
        let rs := listRegions (s.listBytes d) (opAddr (mOperand d.words 0))
        let q := s.quiet (leNat (s.listBytes d (opAddr (mOperand d.words 0) + 8) 8))
        (ckptSub d 0 = true → s.readsList d 0 →
          (s.coherentList rs = true → s.runs (.ckptSnapshot d) fun t => s.sweepBegun t rs ∧ t.ckpt.starter = some d) ∧
          (s.coherentList rs = false → q = true → s.runs (.ckptSnapshot d) fun t => s.snapshotBegun t rs ∧ t.ckpt.starter = some d) ∧
          (s.coherentList rs = false → q = false → s.ckpt.held = [] → s.runs (.ckptSnapshot d) fun t => t.ckpt.st = .error ∧
            t.ckpt.reason = 1 ∧ t.ckpt.written = [] ∧ s.finished t d stErr ∧ s.sameMem t)) ∧
        (ckptSub d 0 = true → s.segIn d.wins .r (opAddr (mOperand d.words 0))
            (listSize 0 (leNat (s.listBytes d (opAddr (mOperand d.words 0)) 4))) = none →
          s.runs (.ckptSnapshot d) fun t => s.finished t d stErr ∧ t.ckpt = s.ckpt ∧ s.sameMem t ∧
            t.reports.length = s.reports.length + 1) ∧
        (ckptSub d 1 = true → s.readsList d 1 → s.runs (.ckptExport d) fun t => t.ckpt.st = .background ∧ t.ckpt.mode = 1 ∧
          t.ckpt.starter = some d) ∧
        (ckptSub d 2 = true → s.ringUsed = 0 → s.runs (.ckptRestore d) fun t =>
          t.ckpt.st = .restoring ∧ t.ckpt.part = 0 ∧ t.ckpt.starter = some d ∧ s.sameMem t)) ∧
    (s.ckpt.st = .quiesced ∨ s.ckpt.st = .background ∨ s.ckpt.st = .restoring →
      exec .ckpStart s = .next s ∧
      (∀ d : Delivered, s.ready d = true →
        (ckptSub d 0 = true → s.runs (.ckptSnapshot d) fun t => s.finished t d 0 ∧ t.ckpt = s.ckpt ∧ s.sameMem t) ∧
        (ckptSub d 1 = true → s.runs (.ckptExport d) fun t => s.finished t d 0 ∧ t.ckpt = s.ckpt ∧ s.sameMem t) ∧
        (ckptSub d 2 = true → s.runs (.ckptRestore d) fun t => s.finished t d 0 ∧ t.ckpt = s.ckpt ∧ s.sameMem t)) ∧
      (s.ckpt.held = [] → s.ckpt.starter = none → s.runs .ckpAbort fun t =>
        t.ckpt.st = .error ∧ t.ckpt.reason = 5 ∧ t.hasEvent 0x10 0 2 ∧ t = { s with ckpt := t.ckpt, regs := t.regs, imsic := t.imsic, out := t.out }))

/-- R322 to R327: the chunk being read is SAVED once the meters have passed it and its frame joins the container; while one holds
it, it stays READING and nothing is written; RELEASE comes once every SRAM chunk is SAVED; the sweep leaves no line of a listed
region writable in an L2 and fixes T0; a held write proceeds once no chunk it touches is unsaved.
The order of chunks is the model's reading, log entry 89. -/
def Sys2Proof.Claims.CheckpointSavesChunks : Prop :=
  ∀ s : State, s.hold = none →
    (∀ (i : Nat) (c : Chunk), s.ckpt.st = .background → s.ringHeld = false → s.ckpt.reading = some i →
      s.ckpt.chunks[i]? = some c →
      ((s.payDue (sectors c.addr c.len)).1 = true → s.cells = [] → i ∉ s.ckpt.ahead → s.runs .chunkSaved fun t =>
        t.ckpt.chunks[i]? = some { c with st := 2 } ∧ t.ckpt.frames = s.ckpt.frames + 1 ∧
          (∃ k : Nat, t.ckpt.written = s.ckpt.written ++ chunkFrame c k (s.physBytes c.addr c.len)) ∧
          t.rd F.CKP_BYTES_IN_COUNT = min (s.rd F.CKP_BYTES_IN_COUNT + c.len) (2 ^ 48 - 1)) ∧
      ((s.payDue (sectors c.addr c.len)).1 = false → s.runs .chunkSaved fun t => t.ckpt.chunks = s.ckpt.chunks ∧
        t.ckpt.written = s.ckpt.written ∧ s.sameMem t)) ∧
    (s.ckpt.st = .quiesced → s.ckpt.headDone = true → s.ringHeld = false →
      ((s.copyChunks s.ckpt.sramLeft).1 = true → s.ckpt.ahead = [] → s.runs .ckpRelease fun t =>
        t.ckpt.st = .background ∧ t.hasEvent 0x10 0 0 ∧ ∀ c ∈ t.ckpt.chunks, c.inSram = true → c.st = 2) ∧
      ((s.copyChunks s.ckpt.sramLeft).1 = false → s.runs .ckpRelease fun t => t.ckpt.st = .quiesced)) ∧
    (∀ dirty : List (Nat × List Byte), s.ckpt.sweeping = true → s.quiet s.ckpt.mask = true →
      s.runs (.directorySweepDone dirty) fun t => t.ckpt.sweeping = false ∧ t.ckpt.headDone = true ∧ t.ckpt.t0 = s.now ∧
        ∀ n : Nat, s.sweeps (64 * n) = true →
          (t.line n).st ≠ .modified ∧ (t.line n).st ≠ .owned ∧ (t.line n).st ≠ .exclusive) ∧
    (∀ h : HeldWrite, s.ckpt.held = [h] → s.busQ = [] → h.add = none → h.own = [] → h.data ≠ [] → tktValid h.ticket = false →
      s.hubBytes h.addr h.data.length → s.runs .heldWriteProceed fun t => t.ckpt.held = [] ∧ t.peek h.addr h.data.length = h.data ∧
        (∀ a : Nat, (a < h.addr ∨ h.addr + h.data.length ≤ a) → t.byte a = s.byte a) ∧
        t = { s with ckpt := t.ckpt, mem := t.mem }) ∧
    (s.ckpt.held = [] → s.busQ = [] → exec .heldWriteProceed s = .next s)

/-- R322, R328, R329, R336: with every chunk SAVED and room in the ring, DONE writes the trailer and ends the run; the
mover copies the units that its meters pass to the bus and advances CONS, all of them where class 60 is not metered; a PCIe error
ends the run with REASON 6; software advances CONS only while the mover is off.
That the indices do not wrap at the ring's end is the model's reading, log entry 26. -/
def Sys2Proof.Claims.CheckpointRingMoves : Prop :=
  ∀ s : State, s.hold = none →
    (s.ckpt.st = .background → (∀ c ∈ s.ckpt.chunks, c.st = 2) → s.ckpt.exports = [] → s.ckpt.closing = false → s.ckpt.outq = [] →
      s.ckpt.mode = 0 → s.ckpt.starter = none → s.ringUsed < s.ringUnits →
      (s.moveUnits false true (s.rd F.CKP_STAGE_IDX_PROD) 1).1 = 1 → s.runs .ckpDone fun t =>
        t.ckpt.st = .done ∧ t.hasEvent 0x10 0 1 ∧ t.ckpt.outq = [] ∧
          t.rd F.CKP_STAGE_IDX_PROD = (s.rd F.CKP_STAGE_IDX_PROD + 1) % 2 ^ 32 ∧
          t.rd F.CKP_STAGE_IDX_CONS = s.rd F.CKP_STAGE_IDX_CONS ∧
          t.rd F.CKP_BYTES_OUT_COUNT = min (s.rd F.CKP_BYTES_OUT_COUNT + 64) (2 ^ 48 - 1)) ∧
    (∀ units n : Nat, s.rd F.CKP_DST_EN = 1 → s.ckpt.st ≠ .restoring → s.ckpt.outq = [] →
      n = (s.moveUnits false false (s.rd F.CKP_STAGE_IDX_CONS) (min units s.ringUsed)).1 →
      n ≤ min units s.ringUsed ∧ (s.unmeteredClass 60 → n = min units s.ringUsed) ∧
      s.runs (.stageMoverCopy units false) fun t =>
        t.rd F.CKP_STAGE_IDX_CONS = (s.rd F.CKP_STAGE_IDX_CONS + n) % 2 ^ 32 ∧ t.ckpt.moved = s.ckpt.moved + n ∧
          .link (48 + s.rd F.CKP_DST_PORT) "BUS_WRITE" ((s.rd F.CKP_DST_ADDR * 4096 + 64 * s.ckpt.moved) ::
            ((List.range n).flatMap fun i => s.physBytes (s.ringAddr (s.rd F.CKP_STAGE_IDX_CONS + i)) 64).map BitVec.toNat) ∈ t.out ∧
          t = { s with ckpt := t.ckpt, regs := t.regs, imsic := t.imsic, out := t.out, spent := t.spent, power := t.power,
                       cells := t.cells, hbms := t.hbms }) ∧
    (∀ units : Nat, s.rd F.CKP_DST_EN = 1 → s.ckpt.st = .background → s.ckpt.held = [] → s.ckpt.starter = none →
      s.runs (.stageMoverCopy units true) fun t => t.ckpt.st = .error ∧ t.ckpt.reason = 6 ∧ t.hasEvent 0x10 0 2 ∧
        t = { s with ckpt := t.ckpt, regs := t.regs, imsic := t.imsic, out := t.out }) ∧
    (∀ v : Word, s.ckpt.st ≠ .restoring → s.ckpt.outq = [] →
      (s.rd F.CKP_DST_EN = 0 → s.runs (.ckpStageIdxWrite v) fun t => t.rd F.CKP_STAGE_IDX_CONS = bits v 32 32 ∧
        t.rd F.CKP_STAGE_IDX_PROD = s.rd F.CKP_STAGE_IDX_PROD ∧ t = { s with regs := t.regs, ckpt := t.ckpt, imsic := t.imsic, out := t.out }) ∧
      (s.rd F.CKP_DST_EN = 1 → exec (.ckpStageIdxWrite v) s = .next s))

/-- Chapter 09: a running checkpoint from its chunks to the staging ring. -/
def Obligations.CheckpointsSaveAndMove : Prop :=
  Claims.CheckpointSavesChunks ∧ Claims.CheckpointRingMoves

/-- R159, R161 to R163: a good epoch frame counts towards TIDE_IN's validity and the third one starts QUALIFY; a bad one
ends the run of frames; a qualification that lasts takes its source; a lost TIDE_IN with no upstream leaves slack tide
with 511 hops.  At its source the count stands still for an offset of at most 1, steps forward past STEP_LIMIT and never
steps back. -/
def Obligations.TideFollowsItsSource : Prop :=
  ∀ s : State, s.hold = none →
    (∀ value : Nat, s.rd F.TID_CFG_IN_EN = 1 →
      (s.tide.st = .slack → s.runs (.tideEpochFrame 0xB38E value (crc16ccitt value)) fun t =>
        t.tide.frames = s.tide.frames + 1 ∧ t.tide.count = s.tide.count ∧ t.tide.st = (if 2 ≤ s.tide.frames then .qualify else .slack) ∧
          t = { s with tide := t.tide }) ∧
      (s.tide.st = .ref → ((value : Int) + s.rd F.TID_IN_DELAY_NS - s.tide.count).natAbs ≤ 1 →
        s.runs (.tideEpochFrame 0xB38E value (crc16ccitt value)) fun t => t.tide.count = s.tide.count ∧ t.tide.slew = 0 ∧
          t.tide.offset = (value : Int) + s.rd F.TID_IN_DELAY_NS - s.tide.count ∧ t.tide.st = .ref ∧ t = { s with tide := t.tide }) ∧
      (s.tide.st = .ref → s.tide.count + s.rd F.TID_CFG_STEP_LIMIT_US * 1000 + 1 < value + s.rd F.TID_IN_DELAY_NS →
        s.runs (.tideEpochFrame 0xB38E value (crc16ccitt value)) fun t =>
          t.tide.count = value + s.rd F.TID_IN_DELAY_NS ∧ t.rd F.TID_STEPS_COUNT = counted (s.rd F.TID_STEPS_COUNT) ∧
            t.hasEvent 0x15 0 1 ∧ t = { s with tide := t.tide, regs := t.regs, imsic := t.imsic, out := t.out }) ∧
      (∀ sync crc : Nat, sync ≠ 0xB38E ∨ crc ≠ crc16ccitt value → s.tide.st ≠ .qualify →
        s.runs (.tideEpochFrame sync value crc) fun t => t.tide = { s.tide with frames := 0 } ∧ t.hasEvent 0x15 0 3 ∧
          t = { s with tide := t.tide, regs := t.regs, imsic := t.imsic, out := t.out })) ∧
    (∀ sync value crc : Nat, s.runs (.tideEpochFrame sync value crc) fun t => s.tide.count ≤ t.tide.count) ∧
    (s.tide.st = .qualify →
      (s.tide.cand = true → s.inValid = true → s.tide.inOff.natAbs ≤ 1 → s.runs .tideQualifyDone fun t =>
        t.tide.st = .ref ∧ t.tide.hops = 0 ∧ t.tide.count = s.tide.count ∧ t.hasEvent 0x15 0 0 ∧
          t = { s with tide := t.tide, regs := t.regs, imsic := t.imsic, out := t.out }) ∧
      (s.tide.cand = false → s.upValid = true → s.tide.upOff.natAbs ≤ 1 → s.runs .tideQualifyDone fun t =>
        t.tide.st = .upstream ∧ t.tide.hops = s.tide.upHops ∧ t.tide.count = s.tide.count ∧ t.hasEvent 0x15 0 0 ∧
          t = { s with tide := t.tide, regs := t.regs, imsic := t.imsic, out := t.out }) ∧
      ((s.tide.cand = true ∧ s.inValid = false ∨ s.tide.cand = false ∧ s.upValid = false) → s.runs .tideQualifyDone fun t =>
        t = { s with tide := { s.tide with st := s.tide.prev } })) ∧
    (s.tide.st = .ref → s.upValid = false → s.runs (.tideSourceLoss .noFrame3ms) fun t =>
      t.tide.st = .slack ∧ t.tide.hops = 511 ∧ t.tide.frames = 0 ∧ t.tide.count = s.tide.count ∧ t.hasEvent 0x15 0 0 ∧
        t.hasEvent 0x15 0 2 ∧ t = { s with tide := t.tide, regs := t.regs, imsic := t.imsic, out := t.out }) ∧
    (s.tide.st = .ref → s.upValid = true → s.tide.upOff.natAbs ≤ 1 → s.runs (.tideSourceLoss .clkAbsent) fun t =>
      t.tide.st = .upstream ∧ t.tide.hops = s.tide.upHops ∧ t.tide.frames = 0 ∧ t.tide.count = s.tide.count ∧ t.hasEvent 0x15 0 0 ∧
        t = { s with tide := t.tide, regs := t.regs, imsic := t.imsic, out := t.out })

/-- R165, R166, R170, R172, R173: crossing settings and tolls are staged by a write and keep their values in effect until
the staged base, or the next boundary, is reached; at a boundary every counter reloads with the staged tolls, less its
debt, and a held stream, or a ferry in TOLL_WAIT, whose class is no longer held goes on (R131, R196).
That a write stages both settings is the model's reading, log entry 75. -/
def Obligations.CrossingsApplyStagedSettings : Prop :=
  ∀ s : State, s.hold = none →
    (∀ (base : Bool) (v : Word), 0 < s.tide.len → s.tide.base < 2 ^ 64 → s.boundary + s.xingLen < 2 ^ 64 →
      s.runs (.tidXingWrite base v) fun t => t.tide = { s.tide with stagedLen := true, stagedBase := true } ∧
        s.now < t.rd F.TID_XING_BASE_BASE ∧ (base = true → s.now < v.toNat → t.rd F.TID_XING_BASE_BASE = v.toNat) ∧
        (base = true → v.toNat ≤ s.now → t.rd F.TID_XING_BASE_BASE = s.boundary + s.xingLen) ∧
        t = { s with tide := t.tide, regs := t.regs, imsic := t.imsic, out := t.out }) ∧
    (s.tide.stagedBase = true → s.rd F.TID_XING_BASE_BASE ≤ s.now → s.runs .stagedXingApply fun t =>
      t.tide = { s.tide with len := s.rd F.TID_XING_LEN_US, base := s.rd F.TID_XING_BASE_BASE, stagedLen := false, stagedBase := false } ∧
        t = { s with tide := t.tide }) ∧
    (s.now < s.rd F.TID_XING_BASE_BASE → exec .stagedXingApply s = .next s) ∧
    (∀ (page r : Nat) (v : Word), page < 64 → r < 7 → s.runs (.tolWrite page (0x40 + 8 * r) v) fun t =>
      t.rd (tollField r) page = bits v 0 32 ∧ (∀ c k i : Nat, t.counter c k i = s.counter c k i) ∧
        t = { s with regs := t.regs, imsic := t.imsic, out := t.out }) ∧
    (s.tide.stagedLen = false → s.tide.stagedBase = false →
      (s.tide.lastBoundary < s.boundary → s.queued = [] → s.busQ = [] → s.runs .crossingBoundary fun t =>
        t.tide = { s.tide with lastBoundary := s.boundary } ∧ t.tolls = s.stagedTolls ∧ t.spent = s.debts ∧ t.exempt = s.exemptMask ∧
          (s.power.fracStaged = none → t.throttle = (s.rd F.TOL_THROTTLE_ISSUE_FRAC 64, s.rd F.TOL_THROTTLE_ENERGY_FRAC 64)) ∧
          (∀ f : Nat, f ≤ 256 → s.power.fracStaged = some f → t.throttle = (f, f) ∧ t.power.fracStaged = none) ∧
          (∀ (id : Nat) (d : Decoded) (rest : List Decoded), (s.stream id).st = .held → (s.stream id).store = d :: rest →
            t.issueHeld id (resolveWords d) = none → (t.stream id).st = .running) ∧
          (∀ n : Nat, (s.ferry n).st = .tollWait → t.ferryFree n = true → (t.ferry n).st = .sending) ∧
          t = { s with tide := t.tide, tolls := t.tolls, spent := t.spent, exempt := t.exempt, throttle := t.throttle, power := t.power,
                       hbms := t.hbms, streams := t.streams, ferries := t.ferries, regs := t.regs, imsic := t.imsic, out := t.out }) ∧
      (s.boundary ≤ s.tide.lastBoundary → exec .crossingBoundary s = .next s))

/-! ### Memory tiers (chapter 08) -/

/-- R266, R267, R270, R274: an ON bank asked for RETENTION or OFF goes through a transition, which loses the contents of
OFF and of nothing else; the patrol counts the single-bit errors of a line's eight words and records the double-bit ones; the wipe
ends with its DONE, and the accesses it held go on.
The model's readings: log entries 12 and 83. -/
def Obligations.SramBanksAndScrub : Prop :=
  ∀ (s : State) (site : Nat), s.hold = none → site < 64 → isHub site = false → s.outOfService site = false →
    (∀ (reg b : Nat) (v : Word), reg < 8 → b < 32 → s.powerActive = true → s.bank (site * 256 + 32 * reg + b) = Bank.reset →
      s.runs (.bankStateRequest site reg v) fun t => s.sameMem t ∧
        t.bank (site * 256 + 32 * reg + b) = (if bits v (2 * b) 2 = 1 then ⟨.on, some .retention, none⟩
          else if bits v (2 * b) 2 = 2 then ⟨.on, some .off, none⟩ else Bank.reset) ∧
        t = { s with banks := t.banks, regs := t.regs }) ∧
    (∀ bank : Nat, bank < 256 →
      (s.bank (site * 256 + bank) = ⟨.on, some .off, none⟩ → s.runs (.bankTransitionDone site bank) fun t =>
        t.bank (site * 256 + bank) = ⟨.off, none, none⟩ ∧
          (∀ a : Nat, bankBase site bank ≤ a → a < bankBase site bank + 0x10_0000 → t.byte a = 0) ∧
          ∀ a : Nat, (a < bankBase site bank ∨ bankBase site bank + 0x10_0000 ≤ a) → t.byte a = s.byte a) ∧
      (s.bank (site * 256 + bank) = ⟨.on, some .retention, none⟩ → s.runs (.bankTransitionDone site bank) fun t =>
        t.bank (site * 256 + bank) = ⟨.retention, none, none⟩ ∧ s.sameMem t)) ∧
    (∀ (eccs : List Nat) (l a : Nat) (wrapped : Bool), s.rd F.SRM_SCRUB_EN site = 1 → s.scrubLine site = some (l, wrapped) →
      a = site * 0x1000_0000 + 64 * l → s.runs (.patrolScrub site eccs false) fun t =>
        t.rd F.SRM_CE_COUNT site = min (s.rd F.SRM_CE_COUNT site + (List.range 8).countP fun i => s.scrubWord eccs a i == 1) (2 ^ 48 - 1) ∧
          t.rd F.SRM_UE_COUNT site =
            min (s.rd F.SRM_UE_COUNT site + (List.range 8).countP fun i => decide (2 ≤ s.scrubWord eccs a i)) (2 ^ 48 - 1) ∧
          (∀ i : Nat, i < 8 → 2 ≤ s.scrubWord eccs a i → (∀ j : Nat, i < j → j < 8 → s.scrubWord eccs a j < 2) →
            t.rd F.SRM_UE_ADDR_ADDR site = (a + 8 * i) % 2 ^ 64 ∧ t.hasEvent 0x06 site 2) ∧
          t = { s with regs := t.regs, imsic := t.imsic, out := t.out, cells := t.cells, scrubPos := t.scrubPos }) ∧
    (s.wiping = true → s.boot.tamperReset = false →
      (s.secHeld = [] → s.runs .secureWipeDone fun t => t = { s with wiping := false }) ∧
      ∀ (x : Nat) (v : Word), s.secHeld = [(x, some v)] → x % 8 = 0 → s.region x = .secure → s.cells = [] → s.unsavedChunk x 8 = none →
        s.runs .secureWipeDone fun t => t.peek x 8 = leBytes 8 v.toNat ∧
          (∀ a : Nat, (a < x ∨ x + 8 ≤ a) → t.byte a = s.byte a) ∧ t = { s with wiping := false, secHeld := [], mem := t.mem })

/-- R281 to R287: a retirement entry takes the page and its spare and no other entry retires that page; committing it
logs it; a temperature at T_CRIT makes the stack CRITICAL; corrected errors and refresh requests are counted. -/
def Obligations.HbmStacksAreServiced : Prop :=
  ∀ (s : State) (k : Nat), s.hold = none → k < 24 →
    (∀ v : Word, bits v 0 24 < 0x900000 → bits v 24 24 < 0x900000 → bits v 63 1 = 1 → s.runs (.hbmRetireWrite k v) fun t =>
      (∃ w : Word, Sparse.get (fun _ => (0 : Word)) (t.stack k).table (s.rd F.HBM_RETIRE_SEL_ENTRY k) = w ∧
        bits w 0 24 = bits v 0 24 ∧ bits w 24 24 = bits v 24 24 ∧ bits w 63 1 = 1) ∧
      (∀ x ∈ (t.stack k).table, bits x.2 63 1 = 1 → bits x.2 0 24 = bits v 0 24 → x.1 = s.rd F.HBM_RETIRE_SEL_ENTRY k) ∧
      t = { s with hbms := t.hbms } ∧ ∀ j : Nat, j ≠ k → t.stack j = s.stack j) ∧
    (16 ≤ s.log.freeBlocks → s.runs (.hbmRetireCommit k) fun t =>
      s.logged t 2 k (logBody (let w := Sparse.get (fun _ => (0 : Word)) (s.stack k).table (s.rd F.HBM_RETIRE_SEL_ENTRY k)
        [bits w 0 24, bits w 24 24, bits w 63 1])) ∧ t = { s with log := t.log, regs := t.regs, imsic := t.imsic, out := t.out }) ∧
    (∀ temp : Int, s.runs (.hbmTempRead k temp) fun t => (t.stack k).temp = temp ∧
      ((s.rd F.HBM_THERM_T_CRIT k : Int) ≤ temp → (t.stack k).crit = true ∧ ((s.stack k).crit = false → t.hasEvent 0x11 k 3)) ∧
      (95 ≤ temp → (t.stack k).level = max 2 (s.stack k).level) ∧ t = { s with hbms := t.hbms, regs := t.regs, imsic := t.imsic, out := t.out }) ∧
    (∀ n : Nat, s.runs (.hbmEcsLogRead k n) fun t => t.rd F.HBM_CE_COUNT k = min (s.rd F.HBM_CE_COUNT k + n) (2 ^ 48 - 1) ∧
      t = { s with regs := t.regs, imsic := t.imsic, out := t.out }) ∧
    s.runs (.refreshManagementRequest k) fun t => t.rd F.HBM_RFM_COUNT k = counted (s.rd F.HBM_RFM_COUNT k) ∧
      t = { s with regs := t.regs, imsic := t.imsic, out := t.out }

/-- R297, R298: taking an interface offline and back sets OFFLINE and OFFLINE_ACK, and back online clears every lane's
margin offsets; a margin write offsets the lane it names, and a run starts only offline and, when it ends, has touched only its
first sectors (what it left there is free); the bulk scrub counts what it corrects and records what it cannot.
The bytes left are free, log entry 9. -/
def Sys2Proof.Claims.OfflineInterfacesRunMargins : Prop :=
  ∀ (s : State) (k c : Nat), s.hold = none → k < 24 → c < 4 →
    (s.runs (.hbmOffline k true) fun t => t.rd F.HBM_CTRL_OFFLINE k = 1 ∧ t.rd F.HBM_STATUS_OFFLINE_ACK k = 1 ∧ s.sameMem t) ∧
    (s.runs (.hbmOffline k false) fun t => t.rd F.HBM_CTRL_OFFLINE k = 0 ∧ t.rd F.HBM_STATUS_OFFLINE_ACK k = 0 ∧
      t.rd F.HBM_MARGIN_DELAY k = 0 ∧ t.rd F.HBM_MARGIN_VREF k = 0 ∧ (∀ e ∈ t.margins, e.1 / 2048 ≠ k) ∧
      t = { s with regs := t.regs, margins := t.margins }) ∧
    (s.runs (.blkOffline c true) fun t => t.rd F.BLK_CTRL_OFFLINE c = 1 ∧ t.rd F.BLK_STATUS_OFFLINE_ACK c = 1 ∧ s.sameMem t) ∧
    (s.runs (.blkOffline c false) fun t => t.rd F.BLK_CTRL_OFFLINE c = 0 ∧ t.rd F.BLK_STATUS_OFFLINE_ACK c = 0 ∧
      t.rd F.BLK_MARGIN_DELAY c = 0 ∧ t.rd F.BLK_MARGIN_VREF c = 0 ∧ (∀ e ∈ t.margins, e.1 / 2048 ≠ 24 + c) ∧
      t = { s with regs := t.regs, margins := t.margins }) ∧
    (∀ v : Word, bits v 63 1 = 1 →
      (s.rd F.HBM_STATUS_OFFLINE_ACK k = 1 → s.runs (.hbmMarginRun k v) fun t => t.rd F.HBM_MARGIN_RUN k = 1 ∧
        Sparse.get (fun _ => (0, 0)) t.margins (k * 2048 + bits v 0 11) = (bits v 16 6, bits v 24 6) ∧
        t = { s with regs := t.regs, margins := t.margins }) ∧
      (s.rd F.HBM_STATUS_OFFLINE_ACK k = 0 → s.rd F.HBM_MARGIN_RUN k = 0 → s.runs (.hbmMarginRun k v) fun t =>
        t.rd F.HBM_MARGIN_RUN k = 0 ∧ t = { s with regs := t.regs, margins := t.margins }) ∧
      (s.rd F.BLK_STATUS_OFFLINE_ACK c = 1 → s.runs (.blkMarginRun c v) fun t => t.rd F.BLK_MARGIN_RUN c = 1 ∧
        (bits v 0 11 < 640 →
          Sparse.get (fun _ => (0, 0)) t.margins ((24 + c) * 2048 + bits v 0 11) = (bits v 16 6, bits v 24 6)) ∧
        t = { s with regs := t.regs, margins := t.margins }) ∧
      (s.rd F.BLK_STATUS_OFFLINE_ACK c = 0 → s.rd F.BLK_MARGIN_RUN c = 0 → s.runs (.blkMarginRun c v) fun t =>
        t.rd F.BLK_MARGIN_RUN c = 0 ∧ t = { s with regs := t.regs, margins := t.margins })) ∧
    (s.rd F.HBM_MARGIN_RUN k = 1 → s.runs (.hbmMarginDone k) fun t => t.rd F.HBM_MARGIN_RUN k = 0 ∧
      (∀ a : Nat, (∀ i : Nat, i < 64 * s.rd F.HBM_MARGIN_SECTORS k → s.phys (hbmBase + k * hbmSlot + i) ≠ a) → t.byte a = s.byte a) ∧
      t = { s with mem := t.mem, regs := t.regs, free := t.free }) ∧
    (s.rd F.BLK_MARGIN_RUN c = 1 → s.runs (.blkMarginDone c) fun t => t.rd F.BLK_MARGIN_RUN c = 0 ∧
      (∀ a : Nat, (a < bulkBase + c * 0x80_0000_0000 ∨ bulkBase + c * 0x80_0000_0000 + 64 * s.rd F.BLK_MARGIN_SECTORS c ≤ a) →
        t.byte a = s.byte a) ∧
      t = { s with mem := t.mem, regs := t.regs, free := t.free }) ∧
    (∀ sev p a : Nat, s.rd F.BLK_SCRUB_EN c = 1 → s.tollHeld 62 2 0 = false → s.rd F.BLK_CTRL_OFFLINE c = 0 →
      p = Sparse.get (fun _ => 0) s.scrubPos (64 + c) → a = bulkBase + c * 0x80_0000_0000 + 64 * p →
      s.runs (.blkScrub c sev false) fun t =>
        (max sev (Sparse.get (fun _ => MemFx.clean) s.cells a).sev = 1 → t.rd F.BLK_CE_COUNT c = counted (s.rd F.BLK_CE_COUNT c)) ∧
        (max sev (Sparse.get (fun _ => MemFx.clean) s.cells a).sev = 2 → t.rd F.BLK_UE_COUNT c = counted (s.rd F.BLK_UE_COUNT c) ∧
          t.rd F.BLK_UE_ADDR_ADDR c = a % 2 ^ 64 ∧ t.hasEvent 0x12 c 0) ∧
        Sparse.get (fun _ => 0) t.scrubPos (64 + c) = (p + 1) % 0x2_0000_0000 ∧ s.sameMem t)

/-- R290, R305: a partition is enabled unless it overlaps an enabled one, which sets OVERLAP; while it is enabled its
GRANULE is fixed and a change sets BUSY; disabling it leaves memory as it is.
BUSY for a change only is the model's reading, log entry 84. -/
def Sys2Proof.Claims.PartitionsDoNotOverlap : Prop :=
  ∀ (s : State) (p : Nat) (v : Word), s.hold = none → p < 16 →
    (s.rd F.PRT_CFG_ENABLE p = 0 → fld v F.PRT_CFG_ENABLE = 1 →
      ((∀ q : Nat, q < 16 → q ≠ p → s.rd F.PRT_CFG_ENABLE q = 1 → s.partOverlap p q = false) →
        s.runs (.partitionEnable p v) fun t => t.rd F.PRT_CFG_ENABLE p = 1 ∧ t = { s with regs := t.regs }) ∧
      (∀ q : Nat, q < 16 → q ≠ p → s.rd F.PRT_CFG_ENABLE q = 1 → s.partOverlap p q = true →
        s.runs (.partitionEnable p v) fun t => t.rd F.PRT_CFG_ENABLE p = 0 ∧ t.hasEvent 0x13 p 0 ∧
          t = { s with regs := t.regs, imsic := t.imsic, out := t.out })) ∧
    (s.rd F.PRT_CFG_ENABLE p = 1 → fld v F.PRT_CFG_GRANULE ≠ s.rd F.PRT_CFG_GRANULE p → s.runs (.partitionEnable p v) fun t =>
      t.rd F.PRT_CFG_GRANULE p = s.rd F.PRT_CFG_GRANULE p ∧ t.hasEvent 0x13 p 1 ∧ t = { s with regs := t.regs, imsic := t.imsic, out := t.out }) ∧
    (fld v F.PRT_CFG_ENABLE = 0 → s.runs (.partitionEnable p v) fun t => t.rd F.PRT_CFG_ENABLE p = 0 ∧ s.sameMem t)

/-- Chapter 08: interfaces taken offline, and the partitions of HBM bandwidth. -/
def Obligations.OfflineUnitsAndPartitions : Prop :=
  Claims.OfflineInterfacesRunMargins ∧ Claims.PartitionsDoNotOverlap

/-! ### Power (chapter 13) -/

/-- R430, R432 to R438: a power sample is voltage × current, and its peak is kept; a hot inlet and a droop beyond the
threshold are reported and change nothing else; each class pays its energy in whole µJ; the controller stages one
fraction for ISSUE and ENERGY, no ballast target above CAP_W, and no throttle for a demand within the cap; ballast takes
only idle cores and none while it is off or class 61 is held. Rounding to nearest is the model's reading, log entry 110. -/
def Obligations.PowerControlActs : Prop :=
  ∀ s : State, s.hold = none →
    (∀ v : Int, s.runs (.monitorSample .pin v) fun t =>
      t.rd F.MON_PIN_W 64 = min (s.rd F.MON_VIN_MV 64 * s.rd F.MON_IIN_A10M 64 / 100000) 65535 ∧
        t.rd F.MON_PEAK_W 64 = max (t.rd F.MON_PIN_W 64) (s.rd F.MON_PEAK_W 64) ∧ t = { s with regs := t.regs, power := t.power }) ∧
    (∀ v : Int, 640 < v → s.runs (.monitorSample .tin v) fun t =>
      t.hasEvent 0x19 0 2 ∧ t.rd F.MON_TIN_T 64 = code 16 v ∧ t = { s with regs := t.regs, imsic := t.imsic, out := t.out }) ∧
    (∀ site mv : Nat, site < 64 →
      (s.rd F.MON_DROOP_MV site < mv → s.runs (.droopEvent site mv) fun t => t.hasEvent 0x08 site 0 ∧
        t.rd F.MON_DROOP_CNT_COUNT site = counted (s.rd F.MON_DROOP_CNT_COUNT site) ∧ t = { s with regs := t.regs, imsic := t.imsic, out := t.out }) ∧
      (mv ≤ s.rd F.MON_DROOP_MV site → exec (.droopEvent site mv) s = .next s)) ∧
    (∀ c pj : Nat, c < 64 → c ≠ 61 → s.power.classPj = [(c, pj)] → s.power.ballast = 0 → s.power.balEnergy < 1000 → s.runs .energyCharge fun t =>
      t.counter c 6 0 = s.counter c 6 0 - (microJoules pj : Nat) ∧ Sparse.get (fun _ => 0) t.power.classPj c = 0 ∧
        t.rd F.PWR_BALLAST_MJ_COUNT = s.rd F.PWR_BALLAST_MJ_COUNT) ∧
    (s.rd F.PWR_CFG_EN = 1 → s.xnum % s.rd F.PWR_CFG_ALIGN_N = 0 → s.rd F.PWR_LIMIT_FRAC_MIN ≤ 256 → s.runs .controllerUpdate fun t =>
      t.power.fracStaged = some t.power.frac ∧ t.power.frac = (s.computeUpdate (s.rd F.PWR_CFG_ALIGN_N * s.tide.len)).frac ∧
        s.rd F.PWR_LIMIT_FRAC_MIN ≤ t.power.frac ∧ t.power.frac ≤ 256 ∧ t.power.tgt ≤ (s.rd F.PWR_LIMIT_CAP_W : Nat) ∧
        t.power.pmPrev = t.power.pm ∧ t.power.heldAny = false ∧
        t = { s with power := t.power, regs := t.regs, imsic := t.imsic, out := t.out, free := t.free }) ∧
    (∀ cap d : Int, d ≤ cap → s.fraction cap d = 256) ∧
    (s.rd F.PWR_CFG_EN = 0 → exec .controllerUpdate s = .next s) ∧
    s.runs .ballastUpdate fun t => s.sameMem t ∧
      (s.rd F.PWR_CFG_EN = 0 ∨ s.rd F.PWR_CFG_BALLAST_EN = 0 ∨ s.tollHeld 61 6 0 = true → t.power.ballast = 0 ∧ ∀ c : Nat, (t.core c).ballast = false) ∧
      ∀ c : Nat, (t.core c).ballast = true → (s.core c).inflight = []

/-- R440 to R444: a quiet module starts an entry to the deepest state its wake budget allows, and a wake event of the
same tick prevents it; an entry ends in the state entered, DEEP losing the SRAM; a wake event starts the exit, which ends
in ACTIVE; a tighter PWR_WAKE starts an exit, a NOT_BEFORE starts one in time.
The model's readings: log entries 114 and 115. -/
def Obligations.PowerStatesEnterAndExit : Prop :=
  ∀ s : State, s.hold = none →
    (exec (.quietEntry true) s = .next s) ∧
    (s.powerActive = true → s.quietNow = true → s.deepOk = false → s.notBefores = [] → s.exitUs .nap ≤ s.rd F.PWR_WAKE_US →
      s.runs (.quietEntry false) fun t => t.power.target = .nap ∧ t.power.transition = true ∧ t.power.st = s.power.st ∧ s.sameMem t) ∧
    (s.power.transition = true → s.power.st = .active →
      (s.power.target = .nap → s.runs .powerEntryDone fun t => t.power.st = .nap ∧ t.power.transition = false ∧
        t.hasEvent 0x19 0 4 ∧ s.sameMem t ∧ t.cores = s.cores ∧ t.streams = s.streams) ∧
      (s.power.target = .deep → s.runs .powerEntryDone fun t => t.power.st = .deep ∧ t.power.transition = false ∧
        t.hasEvent 0x19 0 4 ∧ ∀ a : Nat, a < sramEnd → t.byte a = 0)) ∧
    (∀ w : Wake, wakes w = true → (s.power.st ≠ .active ∨ s.power.transition = true) → s.runs (.wakeEvent w) fun t =>
      t.power.target = .active ∧ t.power.transition = true ∧ t = { s with power := t.power }) ∧
    (s.power.st = .active → s.power.transition = false → ∀ w : Wake, exec (.wakeEvent w) s = .next s) ∧
    (s.power.transition = true → s.power.target = .active → s.power.bankAtExit = [] → s.runs .powerExitDone fun t =>
      t.power.st = .active ∧ t.power.transition = false ∧ t.hasEvent 0x19 0 4 ∧ s.sameMem t) ∧
    (∀ v : Word, s.power.st = .nap → s.runs (.pwrWakeWrite v) fun t =>
      (t.rd F.PWR_WAKE_US < t.exitUs .nap → t.power.transition = true ∧ t.power.target.rank < 2) ∧
        (t.exitUs .nap ≤ t.rd F.PWR_WAKE_US → t.power = s.power) ∧ t = { s with regs := t.regs, power := t.power }) ∧
    ∀ (id : Nat) (d : Decoded) (rest : List Decoded), (s.stream id).st = .waiting → (s.stream id).store = d :: rest →
      mNotBefore d.words ≠ 0 → s.power.st = .nap →
      (mNotBefore d.words ≤ s.now + s.exitUs .nap * 1000 → s.runs (.notBeforeExit id) fun t =>
        t.power.target = .active ∧ t.power.transition = true ∧ t = { s with power := t.power }) ∧
      (s.now + s.exitUs .nap * 1000 < mNotBefore d.words → exec (.notBeforeExit id) s = .next s)

/-! ### Contexts and resets (chapter 12) -/

/-- R398, R401 to R406: an ARM takes the staged keys and clears the latched fault, unless the re-arm guard holds; the
first fault of an ARMED context is latched, advances its tag and broadcasts its teardown; the phases stop its streams,
drain its cores, clear its ferries and waiters, and leave it TORN.
The model's readings: log entries 28, 29, 105 and 106. -/
def Obligations.ContextsArmAndTearDown : Prop :=
  ∀ (s : State) (c : Nat), s.hold = none → c < 64 →
    ((s.ctx c).st = .free ∨ (s.ctx c).st = .torn → s.guarded c = false → s.runs (.ctxArm c) fun t => (t.ctx c).st = .armed ∧ (t.ctx c).keyLo = (s.ctx c).stagedLo ∧
      (t.ctx c).keyHi = (s.ctx c).stagedHi ∧ (t.ctx c).keySet = false ∧ (t.ctx c).gen = (s.ctx c).gen ∧ t.rd F.CTX_FAULT_VALID c = 0 ∧
      (∀ k : Nat, k ≠ c → t.ctx k = s.ctx k) ∧ t = { s with ctxs := t.ctxs, regs := t.regs, streams := t.streams }) ∧
    (s.guarded c = true → s.runs (.ctxArm c) fun t => t.hasEvent 0x17 c 3 ∧ t = { s with regs := t.regs, imsic := t.imsic, out := t.out } ∧
      s.regsBut t [evKey 0x17 c]) ∧
    ((s.ctx c).st = .armed ∨ (s.ctx c).st = .tearing → exec (.ctxArm c) s = .next s) ∧
    (∀ (hi : Bool) (v : Word), s.runs (.ctxKeyWrite c hi v) fun t => (t.ctx c).keyLo = (s.ctx c).keyLo ∧
      (t.ctx c).keyHi = (s.ctx c).keyHi ∧ (t.ctx c).keySet = true ∧ (if hi then (t.ctx c).stagedHi = v else (t.ctx c).stagedLo = v) ∧
      t = { s with ctxs := t.ctxs }) ∧
    ((s.ctx c).st = .armed →
      (s.runs (.ctxTeardown c) fun t => (t.ctx c).st = .tearing ∧ (t.ctx c).gen = ((s.ctx c).gen + 1) % 4096 ∧ (t.ctx c).phase = 1 ∧
        t.rd F.CTX_FAULT_VALID c = 1 ∧ t.rd F.CTX_FAULT_CLASS c = 5 ∧ .ctrl 27 "TEARDOWN" [c, ((s.ctx c).gen + 1) % 4096] ∈ t.out) ∧
      ∀ r : FaultRep, r.ctx = c → r.cls < 8 → s.runs (.faultReport [r]) fun t => (t.ctx c).st = .tearing ∧
        (t.ctx c).gen = ((s.ctx c).gen + 1) % 4096 ∧ t.rd F.CTX_FAULT_CLASS c = r.cls ∧ t.rd F.CTX_FAULT_ADDR_ADDR c = r.addr % 2 ^ 64 ∧
        t.rd F.CTX_FAULT_MULTI c = 0) ∧
    ((s.ctx c).st = .tearing →
      ((s.ctx c).phase = 1 → ∀ readySame : List Nat, s.runs (.teardownStop c readySame) fun t => (t.ctx c).phase = 2 ∧
        (∀ id ∈ s.ctxStreams c, (t.stream id).st = .faulted) ∧
        ((s.ctxStreams c).Nodup → ∀ id ∈ s.ctxStreams c, id ∈ readySame →
          t.rd F.STR_RACE_COUNT (id / 16) (id % 16) = counted (s.rd F.STR_RACE_COUNT (id / 16) (id % 16)))) ∧
      ((s.ctx c).phase = 2 → s.runs (.teardownDrain c) fun t => (t.ctx c).phase = 3 ∧
        ∀ k : Nat, ∀ f ∈ (t.core k).inflight, f.d.ctx ≠ c) ∧
      ((s.ctx c).phase = 3 → s.runs (.teardownClear c) fun t => (t.ctx c).phase = 4 ∧
        (∀ w ∈ t.waiters, s.strCtx w.stream ≠ c) ∧
        ∀ n : Nat, n < 128 → s.rd F.FRY_CFG_CTX n = c → t.ferry n = Ferry.reset ∧ t.rd F.FRY_CTRL_ENABLE n = 0) ∧
      ((s.ctx c).phase = 4 → s.runs (.teardownReport c) fun t => (t.ctx c).st = .torn ∧ (t.ctx c).tornTide = s.now ∧
        (t.ctx c).gen = (s.ctx c).gen ∧ t.rd F.CTX_TEARDOWNS_COUNT c = counted (s.rd F.CTX_TEARDOWNS_COUNT c) ∧ t.hasEvent 0x17 c 1))

/-- R410, R411, R416, R493, R494: a module reset is counted, records its cause, the lowest code of one clock's triggers, clears every stream and context and boots; a
pin or a protective limit holds the module in reset until it ends; PCIe fundamental reset acts in attached mode only; a
low pulse below 1 µs does nothing. What a module reset keeps is the model's reading, log entry 109. -/
def Sys2Proof.Claims.ModuleResetsRestart : Prop :=
  ∀ s : State, s.noEscalation → s.resets.oos = false →
    (s.hold = none → s.bootable → (∀ k : Nat, (s.stack k).marked = []) →
      (∀ (code : Nat) (same : List Nat), (∀ c ∈ code :: same, c < 256 ∧ c ≠ 1) → s.runs (.moduleReset code same) fun t => t.booted ∧
        t.rd F.RST_CAUSE_DOMAIN = 2 ∧ t.rd F.RST_CAUSE_CODE = same.foldl min code ∧ t.streams = [] ∧ t.ctxs = [] ∧
        (∀ c : Nat, (t.core c).inflight = []) ∧ t.fuses = s.fuses ∧ t.flash = s.flash ∧ t.pending = s.pending ∧
        t.resets.modHist = s.resets.modHist ++ [s.resets.age]) ∧
      (s.pins.attached = true → s.runs .pcieFundamentalReset fun t => t.booted ∧ t.rd F.RST_CAUSE_CODE = 2 ∧ t.streams = [])) ∧
    (s.hold = none → s.pins.attached = false → exec .pcieFundamentalReset s = .next s) ∧
    (s.hold = none →
      (∀ code : Nat, 0x40 ≤ code → code ≤ 0x45 → s.runs (.protectiveTrip code) fun t => t.hold = some (.protective code) ∧
        t.rd F.RST_CAUSE_CODE = code ∧ t.pins.modReady = false ∧ t.pins.modFaultN = false ∧ t.streams = [] ∧ t.cores = []) ∧
      (∀ ns : Nat, 1000 ≤ ns → s.runs (.modResetNLow ns) fun t => t.hold = some .pinLow ∧ t.pins.resetLow = true ∧
        t.rd F.RST_CAUSE_CODE = 3 ∧ t.streams = [] ∧ t.cores = []) ∧
      ∀ ns : Nat, ns < 1000 → exec (.modResetNLow ns) s = .next s) ∧
    (∀ code : Nat, s.hold = some (.protective code) →
      (s.pins.resetLow = true → s.runs .protectiveRelease fun t => t.hold = some .pinLow) ∧
      (s.pins.resetLow = false → s.bootable → (∀ k : Nat, (s.stack k).marked = []) → s.runs .protectiveRelease fun t => t.booted)) ∧
    (s.hold = some .pinLow → s.bootable → (∀ k : Nat, (s.stack k).marked = []) → s.runs .modResetNRelease fun t => t.booted ∧ t.pins.resetLow = false) ∧
    (∀ code : Nat, s.hold = some (.bootFailed code) → exec .modResetNRelease s = .next { s with pins := { s.pins with resetLow := false } })

/-- R469, R282, R415 to R417, R478: power loss leaves what the log, the flash and the fuses hold, but what an operation in
progress had begun to write; a power-on boots a good image, steering one failing HBM lane onto a redundant one, and holds the
module with code 0x50 where there is no image, 0x53 or 0x54 where fuses or training fail; closing the lid lets a module held at step 2 go on; the
acknowledgement brings an out-of-service module back after a power cycle; a mapped-out site is queued for its return.
The model's readings: log entries 41 and 120. -/
def Sys2Proof.Claims.PowerOnBoots : Prop :=
  ∀ s : State,
    (∀ cut : LogCut, s.runs (.powerLoss cut) fun t => t.hold = some .unpowered ∧ t.mem = [] ∧ t.streams = [] ∧ t.cores = [] ∧
      t.regs = [] ∧ (s.boot.fwup ≠ 1 → t.flash = s.flash) ∧ (s.boot.lcsBusy = none → t.fuses = s.fuses) ∧
      (cut = .none → t.log.blocks = s.log.blocks)) ∧
    (∀ f : BootFacts, s.hold = some .unpowered → s.pins.resetLow = false → s.resetsFromLog.oos = false → f.flashBad = false →
      (f.fuseBad = true → s.runs (.powerOnSequence f) fun t =>
        t.hold = some (.bootFailed 0x53) ∧ t.boot.step = 2 ∧ t.rd F.RST_CAUSE_CODE = 0x53 ∧ t.pins.modFaultN = false) ∧
      (f.fuseBad = false → s.bootable →
        (f.trainBad = true → s.runs (.powerOnSequence f) fun t => t.hold = some (.bootFailed 0x54) ∧ t.boot.step = 5) ∧
        (f.trainBad = false → f.badLanes = [] → s.runs (.powerOnSequence f) fun t => t.booted ∧ t.pins.attached = f.attached ∧
          t.pins.smbAddr = f.smbAddr % 8 ∧ t.resets.age = s.resetsFromLog.age ∧ t.fuses = s.fuses ∧ t.streams = []) ∧
        (∀ k l : Nat, k < 24 → f.trainBad = false → f.badLanes = [(k, l)] → s.runs (.powerOnSequence f) fun t =>
          Config.redundantLanes = 0 ∧ t.hold = some (.bootFailed 0x54) ∨
            0 < Config.redundantLanes ∧ t.booted ∧ t.rd F.HBM_LANES_USED k = 1)) ∧
      (f.fuseBad = false → s.bootImage = none → s.fuses.lifecycle ≠ 5 → s.pins.lidOpen = false → s.runs (.powerOnSequence f) fun t =>
        t.hold = some (.bootFailed 0x50) ∧ t.boot.step = 4 ∧ t.rd F.RST_CAUSE_CODE = 0x50 ∧ t.pins.modFaultN = false)) ∧
    (s.hold = some .lidOpen → { s with pins := { s.pins with lidOpen := false } }.bootable → s.resets.oos = false →
      (∀ k : Nat, (s.stack k).marked = []) → s.runs .lidClose fun t => t.booted ∧ t.pins.lidOpen = false) ∧
    (s.hold = some .outOfService → s.resets.oos = true → s.resets.powerCycled = true → s.bootable → s.boot.fwup ≠ 2 →
      (∀ k : Nat, (s.stack k).marked = []) → 0 < s.rd F.RST_ESC_MOD_LIMIT → 18 ≤ s.log.freeBlocks →
      s.runs (.rstOosAck 0x0ACC_0ACC) fun t => t.booted ∧ t.resets.oos = false ∧ t.resets.modHist = [s.resets.age]) ∧
    (∀ v : Word, s.hold = some .outOfService → bits v 0 32 ≠ 0x0ACC_0ACC → exec (.rstOosAck v) s = .next s) ∧
    ∀ v : Word, s.hold = none →
      (bit v 8 = true → Sparse.get (fun _ => 0) s.resets.mapped (bits v 0 6) = 1 → 16 ≤ s.log.freeBlocks → s.runs (.rstUnmap v) fun t =>
        bits v 0 6 ∈ t.resets.unmap ∧ s.logged t 5 (bits v 0 6) (logBody [0]) ∧ t.resets.mapped = s.resets.mapped) ∧
      (Sparse.get (fun _ => 0) s.resets.mapped (bits v 0 6) ≠ 1 → exec (.rstUnmap v) s = .next s)

/-- Chapters 12 and 15: the module leaves its resets and its power-on running. -/
def Obligations.ResetsAndPowerOn : Prop :=
  Claims.ModuleResetsRestart ∧ Claims.PowerOnBoots

/-- R410 to R417: a compute reset records its cause and its sites and starts the dump, or resets the sites' cores and
bollards at once; a dump that ends lets the reset proceed with DUMP_OK, one that class 62's regulators hold goes on, one that times
out lets it proceed without DUMP_OK; DONE ends it; the
age counts seconds and is logged. The model's readings: log entries 107 and 108. -/
def Obligations.ComputeResetsAndAge : Prop :=
  ∀ s : State, s.hold = none →
    ((∀ x : Nat, s.siteInWindow x + 1 ≤ s.rd F.RST_ESC_SITE_LIMIT) → 16 ≤ s.log.freeBlocks → ∀ code : Nat, code < 256 →
      (s.rd F.RST_CFG_DUMP_EN = 1 → s.resets.current = none → s.runs (.computeReset code) fun t =>
        t.resets.current = some ⟨maskOf s.targetSitesOfReset, code, s.now, true, s.rd F.RST_CFG_SCRUB == 1, none⟩ ∧
          t.rd F.RST_CAUSE_DOMAIN = 1 ∧ t.rd F.RST_CAUSE_CODE = code ∧ s.sameMem t ∧ t.cores = s.cores ∧ t.streams = s.streams) ∧
      (s.rd F.RST_CFG_DUMP_EN = 0 → s.runs (.computeReset code) fun t => ∀ x ∈ s.targetSitesOfReset,
        (∀ i : Nat, i < 16 → t.core (16 * x + i) = Core.reset) ∧ ∀ b : Nat, b / 256 = x → t.bollard b = Bollard.reset)) ∧
    (∀ r : CompReset, s.resets.current = some r → r.dumping = true →
      ((s.admitSectors 62 (r.due.getD (s.dumpSectors (setBitsOf r.sites 64)))).1 ≠ [] → s.runs .dumpDone fun t =>
        t.resets.current = some { r with due := some (s.admitSectors 62 (r.due.getD (s.dumpSectors (setBitsOf r.sites 64)))).1 } ∧
          t.rd F.RST_CAUSE_DUMP_OK = s.rd F.RST_CAUSE_DUMP_OK ∧ t.cores = s.cores ∧ s.sameMem t)) ∧
    (∀ r : CompReset, s.resets.current = some r → r.dumping = true → s.ctxsOn (setBitsOf r.sites 64) = [] → r.scrub = false →
      ((s.admitSectors 62 (r.due.getD (s.dumpSectors (setBitsOf r.sites 64)))).1 = [] → s.runs .dumpDone fun t =>
        t.rd F.RST_CAUSE_DUMP_OK = 1 ∧ t.resets.current = some { r with dumping := false }) ∧
      s.runs .dumpTimeout fun t => t.rd F.RST_CAUSE_DUMP_OK = s.rd F.RST_CAUSE_DUMP_OK ∧ t.hasEvent 0x18 0 2 ∧
        t.resets.current = some { r with dumping := false }) ∧
    (∀ r : CompReset, s.resets.current = some r → r.dumping = false → r.scrub = false → s.runs .computeResetDone fun t =>
      t.resets.current = none ∧ t.hasEvent 0x18 0 0 ∧ t = { s with resets := t.resets, regs := t.regs, imsic := t.imsic, out := t.out }) ∧
    (s.runs .ageTick fun t => t.resets.age = (s.resets.age + 1) % 2 ^ 48 ∧ t = { s with resets := t.resets }) ∧
    (16 ≤ s.log.freeBlocks → s.runs .ageLogWrite fun t => s.logged t 4 0 (logBody [s.resets.age]) ∧
      t = { s with log := t.log, regs := t.regs, imsic := t.imsic, out := t.out })

/-! ### Security and the log (chapter 15) -/

/-- R472, R486: an update writes a good staged image, as its read delivers it, to the other image region and to nothing else; a
bad one is refused with its reason and no flash is written; the update ends verified or not; while class 63 is held the job waits.
The reason codes rest on log entry 119. -/
def Sys2Proof.Claims.FirmwareUpdates : Prop :=
  ∀ s : State, s.hold = none → s.boot.image < 2 →
    (∀ (n e : Nat) (bs : List Byte), s.boot.fwup ≠ 1 → n = s.rd F.SEC_FWUP_LEN_BYTES → n ≤ 0x400_0000 → bs = (s.load s.fwupAddr n).1 →
      e = imageReason s.fuses n (bs.take 0x130) (fun k => (bs.drop 0x1000).take k) → s.jobPasses .image →
      (e = 0 → s.runs .fwupStart fun t =>
        t.boot.fwup = 1 ∧ t.boot.fwTarget = 1 - s.boot.image ∧ t.flashBytes (imageBase (1 - s.boot.image)) n = bs ∧
          (∀ a : Nat, a / 0x400_0000 ≠ 1 - s.boot.image →
            Sparse.get (fun _ => (0xFF : Byte)) t.flash a = Sparse.get (fun _ => (0xFF : Byte)) s.flash a) ∧
          t = { s with flash := t.flash, boot := t.boot, regs := t.regs, imsic := t.imsic, out := t.out, spent := t.spent,
                       power := t.power, cells := t.cells, hbms := t.hbms }) ∧
      (e ≠ 0 → s.runs .fwupStart fun t => t.boot.fwup = 3 ∧ t.boot.fwReason = e ∧ t.hasEvent 0x1C 0 2 ∧
          t = { s with boot := t.boot, regs := t.regs, imsic := t.imsic, out := t.out, spent := t.spent, power := t.power,
                       cells := t.cells, hbms := t.hbms })) ∧
    (¬ s.jobPasses .image → s.runs .fwupStart fun t => t.busQ = s.busQ ++ [.job .image] ∧ t.boot = s.boot ∧ t.flash = s.flash) ∧
    (s.boot.fwup = 1 → exec .fwupStart s = .next s ∧ ∀ ok : Bool, s.runs (.fwupDone ok) fun t =>
      t.boot.fwup = (if ok then 2 else 3) ∧ t.boot.fwReason = (if ok then 0 else 7) ∧ t.hasEvent 0x1C 0 2 ∧ t.flash = s.flash)

/-- R473 to R478, R487, R488: a refused life-cycle command says why and burns nothing; an accepted one starts the wipe and
then burns its three rows; a tamper event is recorded and wipes the secure region; fuse programming starts once and its
verified end takes effect; the closed test port acts as BYPASS.
A command while one runs: the model's reading, log entry 121. -/
def Sys2Proof.Claims.FusesAndTamper : Prop :=
  ∀ s : State, s.hold = none →
    (∀ (v : Word) (res : Nat), bits v 0 3 < 6 → s.boot.lcsBusy = none → res = s.lcsCheck (bits v 0 3) (s.load (s.rd F.LCS_TOKEN_ADDR * 256) 256).1 →
      (bit v 8 = false → exec (.lcsGo v) s = .next s) ∧
      (bit v 8 = true → s.jobPasses (.token v) →
        (res ≠ 1 → s.runs (.lcsGo v) fun t => t.boot.lcsResult = res ∧ t.fuses = s.fuses ∧ t.boot.lcsBusy = none ∧
          t.boot.nonce = Config.freeNat s.free % 2 ^ 64 ∧ t.hasEvent 0x1D 0 0) ∧
        (res = 1 → s.runs (.lcsGo v) fun t => t.boot.lcsResult = 1 ∧ t.boot.lcsBusy = some (bits v 0 3) ∧
          t.fuses.rows = s.fuses.rows ∧ t.wiping = true ∧
          ∀ a : Nat, secureBase ≤ a → a < secureBase + 0x80_0000 → t.byte a = 0))) ∧
    (∀ target : Nat, s.boot.lcsBusy = some target → s.runs (.lcsBurnDone 3) fun t => t.boot.lcsBusy = none ∧
      t.fuses.rows = s.fuses.rows ++ [(target, 0), (target, 1), (target, 2)]) ∧
    (∀ sources : Nat, sources % 16 &&& s.tamperOn ≠ 0 → s.runs (.tamperEvent sources) fun t =>
      t.rd F.SEC_TAMPER_SOURCES = (s.rd F.SEC_TAMPER_SOURCES ||| (sources % 16 &&& s.tamperOn)) ∧ t.rd F.SEC_TAMPER_TIDE_TIDE = s.now % 2 ^ 64 ∧
        t.hasEvent 0x1C 0 1 ∧ t.wiping = true ∧ t.boot.tamperReset = true ∧
        ∀ a : Nat, secureBase ≤ a → a < secureBase + 0x80_0000 → t.byte a = 0) ∧
    (s.boot.prog = none →
      (s.fuses.lifecycle ≠ 5 → s.fuses.debugLock = false → s.runs .fusProgDebugLock fun t =>
        t.boot.prog = some (1, 0, []) ∧ t = { s with boot := t.boot }) ∧
      (s.fuses.debugLock = true → s.fuses.lifecycle ≠ 5 → s.runs .fusProgDebugLock fun t =>
        t.boot.progResult = 2 ∧ t.boot.prog = none ∧ t = { s with boot := t.boot }) ∧
      (s.fuses.rollback < s.boot.rollback → s.runs .fusProgRollbackSet fun t =>
        t.boot.prog = some (2, s.boot.rollback, []) ∧ t = { s with boot := t.boot }) ∧
      (s.boot.rollback ≤ s.fuses.rollback → s.runs .fusProgRollbackSet fun t =>
        t.boot.progResult = 2 ∧ t.boot.prog = none ∧ t = { s with boot := t.boot }) ∧
      (∀ k : Nat, 1 ≤ k → k ≤ 3 → s.fuses.lifecycle = 1 → (∀ e ∈ s.fuses.hashes, e.1 ≠ k) → s.jobPasses (.hash k) →
        s.runs (.fusProgKeyHash k) fun t => t.boot.prog = some (3, k, (s.load (s.rd F.FUS_HASH_SRC_ADDR * 64) 48).1) ∧
          t = { s with boot := t.boot, regs := t.regs, imsic := t.imsic, out := t.out, spent := t.spent, power := t.power,
                       cells := t.cells, hbms := t.hbms }) ∧
      exec (.fusProgDone true) s = .next s) ∧
    (∀ p : Nat × Nat × List Byte, s.boot.prog = some p →
      (s.runs (.fusProgDone true) fun t => t.boot.prog = none ∧ t.boot.progResult = 0 ∧ t.hasEvent 0x1E 0 0 ∧
        (p.1 = 1 → t.fuses = { s.fuses with debugLock := true }) ∧ (p.1 = 2 → t.fuses = { s.fuses with rollback := p.2.1 }) ∧
        (p.1 = 3 → t.fuses = { s.fuses with hashes := Sparse.put (fun _ => []) s.fuses.hashes p.2.1 p.2.2 })) ∧
      s.runs (.fusProgDone false) fun t => t.boot.prog = none ∧ t.boot.progResult = 3 ∧ t.fuses = s.fuses) ∧
    (∀ test : Option DieTest, s.runs (.tapDieSelect test) fun t =>
      t = { s with boot := { s.boot with tap := if s.tapOpen then 1 else 3 } }) ∧
    (s.tapOpen = false → ∀ (addr : Nat) (w : Option Word), s.runs (.tapBackdoor addr w) fun t =>
      t = { s with boot := { s.boot with tap := 3 } })

/-- R480: a die's stand-alone test runs while the module is held in module reset, in BLANK, TEST and DEVELOP; a loop-back reports
each failing group, and in TEST the lane-repair map takes it. -/
def Sys2Proof.Claims.DieTestsRunInReset : Prop :=
  ∀ (s : State) (x : DieTest) (kind : Nat), s.hold ≠ none → s.hold ≠ some .unpowered → s.tapOpen = true → s.fuses.lifecycle ≤ 2 →
    kind = (match x.kind with | .scan => 0 | .logicBist => 1 | .memoryBist => 2 | .loopBack => 3) →
    (x.kind ≠ .loopBack ∨ s.fuses.lifecycle ≠ 1 → s.runs (.tapDieSelect (some x)) fun t =>
      t = { s with boot := { s.boot with tap := 1, dieTest := some x }
                   out := s.out ++ [.ctrl 27 "DIE_TEST" (x.die :: kind :: x.fails.flatMap fun f => [f.1, f.2])] }) ∧
    ∀ e g : Nat, x.kind = .loopBack → s.fuses.lifecycle = 1 → x.fails = [(e, g)] → s.log.ofType 1 = [] → 16 ≤ s.log.freeBlocks →
      s.runs (.tapDieSelect (some x)) fun t => t.boot.dieTest = some x ∧
        ∃ w : Word, s.logged t 1 e (logBody (edgeBody w { EdgeDir.reset with steered := [g] }))

/-- Chapter 15: what changes the part for good, and its stand-alone tests. -/
def Obligations.FirmwareFusesAndTamper : Prop :=
  Claims.FirmwareUpdates ∧ Claims.FusesAndTamper ∧ Claims.DieTestsRunInReset

/-- R482 to R485, R489: a commit appends the next record; a collection frees a COMPLETE block that holds no live record;
an export writes the live records in SEQ order and reports when it is done, and waits while class 63 is held.
The bodies of records are the model's choice, log entry 8. -/
def Obligations.LogKeepsRecords : Prop :=
  ∀ s : State, s.hold ≠ some .unpowered →
    (∀ (type key : Nat) (body : List Byte), 16 ≤ s.log.freeBlocks → s.runs (.logRecordCommit type key body) fun t =>
      s.logged t type key body ∧ t = { s with log := t.log, regs := t.regs, imsic := t.imsic, out := t.out }) ∧
    (∀ (i : Nat) (b : LogBlock), s.log.victim s.resetCut = some (i, b) → liveBytes (s.log.live s.resetCut) b = 0 → b.recs ≠ [] →
      s.runs .logGc fun t => (t.log.block i).recs = [] ∧ (t.log.block i).st = .free ∧ (t.log.block i).erases = b.erases + 1 ∧
        (∀ j : Nat, j ≠ i → t.log.block j = s.log.block j) ∧ t.log.seq = s.log.seq ∧ t.log.mapSeq = s.log.mapSeq + 1 ∧
        t = { s with log := t.log, regs := t.regs, imsic := t.imsic, out := t.out }) ∧
    (∀ a n : Nat, a = s.rd F.LOG_EXPORT_ADDR * 4096 → n = s.exported.length → n < 2 ^ 32 → s.jobPasses .exportLog →
      s.runs .logExport fun t => t.rd F.LOG_EXPORT_LEN_BYTES = n ∧ t.log = { s.log with exporting := true } ∧
        (s.hubBytes a n → t.peek a n = s.exported) ∧
        (∀ b : Nat, (∀ i : Nat, i < n → s.phys (a + i) ≠ b) → t.byte b = s.byte b) ∧
        t = { s with mem := t.mem, regs := t.regs, imsic := t.imsic, out := t.out, log := t.log, spent := t.spent, power := t.power,
                     cells := t.cells, hbms := t.hbms, cores := t.cores, ckpt := t.ckpt }) ∧
    (¬ s.jobPasses .exportLog → s.runs .logExport fun t => t.busQ = s.busQ ++ [.job .exportLog] ∧ t.log = s.log ∧ s.sameMem t) ∧
    (s.log.exporting = true → s.runs .logExportDone fun t => t.log.exporting = false ∧ t.hasEvent 0x1F 0 2 ∧
      t.log.blocks = s.log.blocks) ∧
    (s.log.exporting = false → exec .logExportDone s = .next s)

/-! ### Verath links and the census (chapter 10) -/

/-- R353 to R360: enabling starts TRAINING; the exchange of INITs brings a port UP with fresh sequence numbers and the
partner's credits; a live change goes through PAUSED to the target and back to UP once RESUME is exchanged; of two
targets the lower node's applies; a lost lane narrows the port. The model's readings: log entries 91 and 93. -/
def Sys2Proof.Claims.PortsTrainAndChange : Prop :=
  ∀ (s : State) (p : Nat), s.hold = none → s.noCensus → p < 48 →
    ((s.port p).st = .disabled → s.runs (.portEnable p) fun t => (t.port p).st = .training ∧ t.rd F.VPT_CTRL_ENABLE p = 1 ∧
      (t.port p).width = (s.port p).width ∧ (∀ q : Nat, q ≠ p → t.port q = s.port q) ∧ t = { s with ports := t.ports, regs := t.regs }) ∧
    ((s.port p).st = .training →
      ((s.port p).initGot = none → s.runs (.linkTrainingDone p) fun t => (t.port p).initSent = true ∧ (t.port p).st = .training ∧ s.onlyPort t p) ∧
      ∀ m : InitMsg, ((s.port p).initGot = some m → s.runs (.linkTrainingDone p) fun t => (t.port p).st = .up ∧ (t.port p).txNext = 0 ∧
          (t.port p).credits = [nth m.bufs 0, nth m.bufs 1, nth m.bufs 2] ∧ t.hasEvent 0x14 p 0) ∧
        ((s.port p).initSent = false → s.runs (.initReceive p m) fun t =>
          (t.port p).initGot = some m ∧ (t.port p).st = .training ∧ s.onlyPort t p) ∧
        ((s.port p).initSent = true → s.runs (.initReceive p m) fun t => (t.port p).st = .up ∧ (t.port p).txNext = 0 ∧
          (t.port p).rxExpect = 0 ∧ (t.port p).replay = [] ∧ (t.port p).credits = [nth m.bufs 0, nth m.bufs 1, nth m.bufs 2] ∧
          (t.port p).v1 = (m.version == 1 || s.rd F.VPT_CFG_MODE p == 2) ∧ t.hasEvent 0x14 p 0 ∧
          ∀ q : Nat, q ≠ p → t.port q = s.port q)) ∧
    ((s.port p).st = .up →
      (s.runs (.portReconfig p) fun t => (t.port p).st = .paused ∧ (t.port p).target.width = s.rd F.VPT_TARGET_WIDTH p ∧
        (t.port p).replay = (s.port p).replay ∧ (t.port p).rxExpect = (s.port p).rxExpect ∧ t.hasEvent 0x14 p 2) ∧
      (∀ x : LinkTarget, (s.port p).v1 = false → s.runs (.pauseReceive p x) fun t => (t.port p).st = .paused ∧ (t.port p).target = x ∧
        (t.port p).replay = (s.port p).replay ∧ t.hasEvent 0x14 p 2) ∧
      ∀ lane : Nat, lane < 8 → s.rd F.VPT_CFG_AUTO_NARROW p = 1 → (s.port p).lanes = 0xFF → (s.port p).lock = 0xFF →
        s.runs (.laneLockLoss p lane) fun t => (t.port p).st = .paused ∧ t.hasEvent 0x14 p 4 ∧
          (t.port p).target = ⟨4, if lane < 4 then 0xF0 else 0x0F, (s.port p).half⟩) ∧
    ((s.port p).st = .paused →
      (∀ (x : LinkTarget) (m : InitMsg), (s.port p).v1 = false → (s.port p).initGot = some m → x ≠ (s.port p).target →
        (s.ownNode < m.node → exec (.pauseReceive p x) s = .next s) ∧
        (m.node < s.ownNode → s.runs (.pauseReceive p x) fun t => (t.port p).target = x ∧ (t.port p).overruled = true ∧ t.hasEvent 0x14 p 2)) ∧
      ((s.port p).resumeGot = false → s.runs (.retrainDone p) fun t => (t.port p).st = .paused ∧ (t.port p).resumeSent = true ∧
        (t.port p).width = (s.port p).target.width ∧ (t.port p).lanes = (s.port p).target.lanes ∧ s.onlyPort t p) ∧
      ((s.port p).resumeGot = true → s.runs (.retrainDone p) fun t => (t.port p).st = .up ∧
        (t.port p).width = (s.port p).target.width ∧ (t.port p).replay = (s.port p).replay ∧ t.hasEvent 0x14 p 3) ∧
      ∀ last : Nat, last < 65536 → (s.port p).resumeSent = true → s.runs (.resumeReceive p last) fun t => (t.port p).st = .up ∧
        t.hasEvent 0x14 p 3 ∧ ∀ f : Flit, f ∈ (t.port p).replay ↔ f ∈ (s.port p).replay ∧ atOrAfter 16 last f.seq = false)

/-- R355 to R357: a port without lock for DOWN_MS goes DOWN, counting what its replay buffer held; lock that returns in
the same tick keeps it; a DOWN port trains again when its signal returns or on RETRAIN; a disabled one is DISABLED.
What a lost link does to the transfers over it is not part of this: the port is one that nothing uses. -/
def Sys2Proof.Claims.PortsGoDownAndReturn : Prop :=
  ∀ (s : State) (p : Nat), s.hold = none → s.noCensus → s.portUnused p → p < 48 →
    ((s.port p).st = .up → (s.port p).lockLost = true →
      (s.runs (.portDownTimeout p false) fun t => (t.port p).st = .down ∧ (t.port p).replay = [] ∧ t.hasEvent 0x14 p 1 ∧
        t.rd F.VPT_DOWNS_COUNT p = counted (s.rd F.VPT_DOWNS_COUNT p) ∧
        t.rd F.VPT_LOST_COUNT p = min (s.rd F.VPT_LOST_COUNT p + (s.port p).replay.length) (2 ^ 48 - 1)) ∧
      exec (.portDownTimeout p true) s = .next s) ∧
    ((s.port p).st = .up → (s.port p).lockLost = false → exec (.portDownTimeout p false) s = .next s) ∧
    ((s.port p).st = .down → s.rd F.VPT_CTRL_ENABLE p = 1 → ∀ lanes : Nat, s.runs (.lockReturn p lanes) fun t =>
      (t.port p).st = .training ∧ (t.port p).lock = lanes % 256 ∧ s.onlyPort t p) ∧
    ((s.port p).st = .down → s.runs (.portRetrain p) fun t => (t.port p).st = .training ∧ s.onlyPort t p) ∧
    ((s.port p).st = .up → s.runs (.portRetrain p) fun t => (t.port p).st = .training ∧ (t.port p).replay = [] ∧
      (t.port p).txNext = 0 ∧ (t.port p).rxExpect = 0) ∧
    ((s.port p).st ≠ .disabled → s.runs (.portDisable p) fun t => (t.port p).st = .disabled ∧ t.rd F.VPT_CTRL_ENABLE p = 0 ∧
      (t.port p).replay = []) ∧
    ((s.port p).st = .disabled → s.runs (.portDisable p) fun t => t.rd F.VPT_CTRL_ENABLE p = 0 ∧ t = { s with regs := t.regs })

/-- R353 to R360: the states of a Verath port. -/
def Obligations.PortsChangeState : Prop :=
  Claims.PortsTrainAndChange ∧ Claims.PortsGoDownAndReturn

/-- R347 to R352: the expected flit is accepted and counted; one with a bad CRC changes nothing it carries and is answered
with NAK once; an acknowledgement frees the flits up to it; a new flit takes the next SEQ and a credit and stays in the
replay buffer, and one of the request channel is charged to its class in VERATH; a replay is sent again unchanged; the timers restart replay, repeat NAK, send the held ACK and report
credits. The model's reading of bad flits: log entry 94. -/
def Obligations.FlitsAreSequencedAndReplayed : Prop :=
  ∀ (s : State) (p : Nat), s.hold = none → p < 48 → (s.port p).st = .up → s.power.st ≠ .deep →
    (∀ f : Flit, f.type = 2 → f.seq = (s.port p).rxExpect → f.cvc = 3 → f.ackv = false → f.nak = false →
      s.runs (.flitReceive p f ⟨true, 0, 0⟩) fun t => (t.port p).rxExpect = ((s.port p).rxExpect + 1) % 65536 ∧
        (t.port p).nakSent = false ∧ (t.port p).replay = (s.port p).replay ∧ s.onlyPort t p) ∧
    (∀ f : Flit, (s.port p).nakSent = false → s.runs (.flitReceive p f ⟨false, 0, 0⟩) fun t =>
      (t.port p).rxExpect = (s.port p).rxExpect ∧ (t.port p).nakSent = true ∧ (t.port p).replay = (s.port p).replay ∧
        (t.port p).credits = (s.port p).credits ∧ t.rd F.VPT_CRC_ERR_COUNT p = counted (s.rd F.VPT_CRC_ERR_COUNT p) ∧
        t.rd F.VPT_NAK_COUNT p = counted (s.rd F.VPT_NAK_COUNT p) ∧
        ∃ g : Flit, .flit p g ∈ t.out ∧ g.type = 1 ∧ g.nak = true ∧ g.ack = (s.port p).lastAccepted) ∧
    (∀ f : Flit, f.type = 1 → f.cvc = 3 → f.ackv = true → f.nak = false → s.runs (.flitReceive p f ⟨true, 0, 0⟩) fun t =>
      ∀ g : Flit, g ∈ (t.port p).replay ↔ g ∈ (s.port p).replay ∧ atOrAfter 16 f.ack g.seq = false) ∧
    (∀ f : Flit, (s.port p).txPos = (s.port p).txNext → s.waitTolls p = s → s.nextFlit p = some f → f.vc ≠ 1 → f.last = false →
      (s.port p).replay.length < (s.port p).window → s.runs (.flitTransmission p) fun t =>
        (t.port p).replay = (s.port p).replay ++ [{ f with seq := (s.port p).txNext }] ∧
          (t.port p).txNext = ((s.port p).txNext + 1) % 65536 ∧ (t.port p).txQueue = (s.port p).txQueue.erase f ∧
          (t.port p).credits = setNth (s.port p).credits f.vc (nth (s.port p).credits f.vc - 1) ∧
          (∃ g : Flit, t.out = s.out ++ [.flit p g] ∧ g.seq = (s.port p).txNext ∧ g.payload = f.payload ∧ g.type = f.type ∧
            g.ack = (s.port p).lastAccepted) ∧ s.onlyPort t p) ∧
    (∀ f : Flit, (s.port p).txPos = (s.port p).txNext → s.waitTolls p = s → s.nextFlit p = some f → f.vc = 1 →
      (s.port p).replay.length < (s.port p).window → s.runs (.flitTransmission p) fun t =>
        (t.port p).replay = (s.port p).replay ++ [{ f with seq := (s.port p).txNext }] ∧
          (t.port p).txNext = ((s.port p).txNext + 1) % 65536 ∧ (t.port p).txQueue = (s.port p).txQueue.erase f ∧
          t.counter (s.flitClass f) 4 p = s.counter (s.flitClass f) 4 p - 1 ∧ ∃ g : Flit, .flit p g ∈ t.out ∧
            g.seq = (s.port p).txNext ∧ g.payload = f.payload ∧ g.type = f.type) ∧
    (∀ f : Flit, (s.port p).txPos ≠ (s.port p).txNext → ((s.port p).replay.find? fun g => g.seq == (s.port p).txPos) = some f →
      s.runs (.flitTransmission p) fun t => (t.port p).replay = (s.port p).replay ∧ (t.port p).credits = (s.port p).credits ∧
        (t.port p).txPos = ((s.port p).txPos + 1) % 65536 ∧ t.rd F.VPT_REPLAY_COUNT p = counted (s.rd F.VPT_REPLAY_COUNT p) ∧
        ∃ g : Flit, .flit p g ∈ t.out ∧ g.seq = f.seq ∧ g.payload = f.payload ∧ g.type = f.type) ∧
    (∀ (f : Flit) (rest : List Flit), (s.port p).replay = f :: rest → s.runs (.replayTimeout p) fun t =>
      t.port p = { s.port p with txPos := f.seq } ∧ t.rd F.VPT_REPLAY_TO_COUNT p = counted (s.rd F.VPT_REPLAY_TO_COUNT p)) ∧
    ((s.port p).nakSent = true → s.runs (.nakRepeatTimeout p) fun t => t.rd F.VPT_NAK_COUNT p = counted (s.rd F.VPT_NAK_COUNT p) ∧
      (t.port p).rxExpect = (s.port p).rxExpect ∧ ∃ g : Flit, .flit p g ∈ t.out ∧ g.nak = true ∧ g.ack = (s.port p).lastAccepted) ∧
    ((s.port p).sinceAck ≠ 0 → (s.port p).txPos = (s.port p).txNext → s.nextFlit p = none → s.runs (.ackHoldExpire p) fun t =>
      (t.port p).ackDue = false ∧ (t.port p).sinceAck = 0 ∧ s.onlyPort t p ∧
        ∃ g : Flit, t.out = s.out ++ [.flit p g] ∧ g.type = 1 ∧ g.ackv = true ∧ g.ack = (s.port p).lastAccepted) ∧
    ∀ vc : Nat, vc < 3 → (s.port p).reported.length = 3 → nth (s.port p).reported vc + 128 ≤ nth (s.port p).freed vc →
      s.runs (.creditReport p vc) fun t => nth (t.port p).reported vc = nth (s.port p).freed vc ∧ s.onlyPort t p ∧
        ∃ g : Flit, t.out = s.out ++ [.flit p g] ∧ g.type = 1 ∧ g.cvc = vc

/-- R158, R162, R202, R362 to R365: a transit header goes out on the routed port over a free channel, and one without a route is
dropped and counted; an ABORT completes the filling entry it names; an UP port sends the tide its edge site reads and remembers what
the partner's marker carried; the third valid marker of the upstream port starts a qualification. The model's readings: log entries 95 and 96. -/
def Obligations.TransitAbortAndMarkers : Prop :=
  ∀ (s : State) (p : Nat), s.hold = none → p < 48 →
    (∀ (q chan : Nat) (h : FerryHdr), h.destNode ≠ s.ownNode → s.route p h.destNode = some [q] → h.ports = 1 → (s.port p).v1 = false →
      s.transitPorts [q] = true → s.portOpen q = true → (s.port q).transit = [] → s.runs (.transitForward p chan 0 h) fun t =>
        (t.port q).txQueue = (s.port q).txQueue ++ [newFlit 2 1 128 (decide (ceilDiv (h.dataBytes + h.scaleBytes) 240 ≤ 0)) (hdrBytes h)] ∧
          (t.port q).transit.length = 1 ∧ (∀ k : Nat, k ≠ q → t.port k = s.port k) ∧ t = { s with ports := t.ports }) ∧
    (∀ (chan idx : Nat) (h : FerryHdr), h.destNode ≠ s.ownNode → s.route p h.destNode = none → s.runs (.transitForward p chan idx h) fun t =>
      t.rd F.VPT_NOROUTE_COUNT p = counted (s.rd F.VPT_NOROUTE_COUNT p) ∧ t.hasEvent 0x14 p 6 ∧ t = { s with regs := t.regs, imsic := t.imsic, out := t.out }) ∧
    (∀ (l slot : Nat) (e : LEntry), l < 64 → s.landings = [(l, { s.landing l with entries := [(slot, e)] })] → e.st = .filling →
      e.fail = 0 → e.complete = false →
      s.runs (.abortReceive e.hdr.srcNode e.hdr.ferry e.hdr.xferSeq) fun t => ((t.landing l).entry slot).st = .ready ∧
        ((t.landing l).entry slot).err = true ∧ t.hasEvent 0x0A l 3 ∧ t.rd F.LND_ERR_COUNT l = counted (s.rd F.LND_ERR_COUNT l)) ∧
    ((s.port p).st = .up → (s.runs (.tideMarkerSend p) fun t => s.onlyPort t p ∧ (t.port p).replay = (s.port p).replay ∧
      ∃ g : Flit, t.out = s.out ++ [.flit p g] ∧ g.type = 5 ∧ g.payload.take 10 = leBytes 8 (s.siteNow (portNode p)) ++ leBytes 2 s.tide.hops) ∧
      ∀ (m : TideMarker) (t4 : Nat), (s.rd F.TID_CFG_UP_PORT ≠ p → s.runs (.tideMarkerReceive p m t4 true) fun t =>
        (t.port p).echoTx = m.tTx ∧ (t.port p).echoRx = t4 ∧ (t.port p).markers = (if m.hops < 510 then (s.port p).markers + 1 else 0) ∧
          t.tide = s.tide ∧ t = { s with ports := t.ports, regs := t.regs }) ∧
        (s.rd F.TID_CFG_UP_PORT = p → s.rd F.TID_CFG_UP_EN = 1 → s.tide.st = .slack → m.hops < 510 → 2 ≤ (s.port p).markers →
          s.runs (.tideMarkerReceive p m t4 true) fun t => t.tide.st = .qualify ∧ t.tide.cand = false ∧ t.tide.upHops = m.hops + 1 ∧
            t.tide.upOff = (m.tTx : Int) + t.tide.linkDelay - t4 ∧ t.tide.count = s.tide.count) ∧
        exec (.tideMarkerReceive p m t4 false) s = .next s)

/-- R367 to R370: a census advances the epoch and probes every UP Verath-2 port; a module adopts a newer epoch with the
arrival port as its parent and declines its current one; the root ends when its last probe is answered, unless a CHANGE
falls in the same tick; a CHANGE restarts the running census, and a time-out fails it.
The model's reading: log entry 100. -/
def Obligations.CensusRunsByEpochs : Prop :=
  ∀ s : State, s.hold = none → s.census.epoch < 2 ^ 32 →
    (s.censusPorts ≠ [] → s.runs .censusStart fun t => t.census.st = .running ∧ t.census.epoch = (s.census.epoch + 1) % 2 ^ 32 ∧
      t.census.root = true ∧ t.census.waiting = s.censusPorts ∧ t.census.total = 1 ∧ t.census.restarts = 0 ∧
      ∀ q ∈ s.censusPorts, (t.port q).txQueue.length = (s.port q).txQueue.length + 1) ∧
    (∀ p e : Nat, p < 48 → e < 2 ^ 32 → (s.port p).st = .up → (s.port p).v1 = false →
      (e ≠ s.census.epoch → atOrAfter 32 e s.census.epoch = true → s.runs (.probe p e) fun t =>
        t.census.epoch = e ∧ t.census.root = false ∧ t.census.parent = p ∧ t.census.st = .running ∧
          t.census.waiting = s.censusPorts.filter (· != p)) ∧
      (e = s.census.epoch → s.runs (.probe p e) fun t => t.census = s.census ∧ s.onlyPort t p ∧
        (t.port p).txQueue.length = (s.port p).txQueue.length + 1) ∧
      (e ≠ s.census.epoch → atOrAfter 32 e s.census.epoch = false → exec (.probe p e) s = .next s)) ∧
    (∀ p q : Nat, s.census.waiting = [p, q] → p ≠ q → s.runs (.decline p s.census.epoch) fun t =>
      t.census.waiting = [q] ∧ t.census.total = s.census.total ∧ t = { s with census := t.census }) ∧
    (∀ p e : Nat, e ≠ s.census.epoch → exec (.decline p e) s = .next s) ∧
    (∀ (p e : Nat) (bytes : List Byte), s.census.root = false → s.census.st = .running → s.portOpen s.census.parent = true →
      s.runs (.record p e bytes) fun t => s.onlyPort t s.census.parent ∧
        (t.port s.census.parent).txQueue.length = (s.port s.census.parent).txQueue.length + 2) ∧
    (s.census.root = true → s.census.st = .running →
      (∀ p n : Nat, s.census.waiting = [p] → s.census.doneSent = false →
        (s.runs (.done p s.census.epoch n true false) fun t => t.census.st = .done ∧ t.census.count = (s.census.total + n) % 2 ^ 16 ∧
          t.hasEvent 0x14 48 0 ∧ t.ports = s.ports) ∧
        exec (.done p s.census.epoch n true true) s = .next s) ∧
      (∀ (p : Nat) (bytes : List Byte), s.census.slots < s.rd F.VPT_CENSUS_LEN_SLOTS 48 → bytes.length = 400 →
        s.hubBytes (s.rd F.VPT_CENSUS_BUF_ADDR 48 * 512 + 512 * s.census.slots) 400 → s.runs (.record p s.census.epoch bytes) fun t =>
          t.peek (s.rd F.VPT_CENSUS_BUF_ADDR 48 * 512 + 512 * s.census.slots) 400 = bytes ∧ t.census.slots = s.census.slots + 1) ∧
      (∀ p e : Nat, ∀ bytes : List Byte, e ≠ s.census.epoch → exec (.record p e bytes) s = .next s) ∧
      (∀ p : Nat, s.census.restarts < s.rd F.VPT_CENSUS_CFG_MAX_RESTARTS 48 → s.censusPorts ≠ [] → s.runs (.change p s.census.epoch) fun t =>
        t.census.st = .running ∧ t.census.epoch = (s.census.epoch + 1) % 2 ^ 32 ∧ t.census.restarts = s.census.restarts + 1 ∧
          t.hasEvent 0x14 48 1) ∧
      (s.runs (.censusTimeout false) fun t => t.census.st = .failed ∧ t.hasEvent 0x14 48 1 ∧ t.census.epoch = s.census.epoch) ∧
      exec (.censusTimeout true) s = .next s)

/-! ### Coherence and the host port (chapters 11 and 14) -/

/-- R388, R389, R394, R396: an ownership request of a line nobody holds makes the requester its owner; one of a held line is
forwarded from the holder, which passes the line on when it has received the forward; two requests of one clock are a
race, counted and served in order; one whose class a meter holds waits; a writeback's data is what memory holds, and the error of the
L2's read is counted; after a flush no line of the die is dirty.
The model's readings: log entries 35 and 101. -/
def Sys2Proof.Claims.DirectoryGrantsAndForwards : Prop :=
  ∀ (s : State) (line a : Nat), s.hold = none → a < 97 → s.isCoherent (64 * line) = true →
    (s.unsavedChunk (64 * line) 64 = none →
      ((s.line line).held = false → s.busPasses (.own line [a] none none) → s.runs (.ownershipRequest line [a] none none) fun t =>
        t.line line = ⟨.modified, a, [], []⟩ ∧ (∀ k : Nat, k ≠ line → t.line k = s.line k) ∧
          t = { s with lines := t.lines, slices := t.slices, spent := t.spent, power := t.power, regs := t.regs, imsic := t.imsic,
                       out := t.out }) ∧
      ((s.line line).held = true → (s.line line).owner ≠ a → (s.line line).fwd = [] → s.busPasses (.own line [a] none none) →
        s.runs (.ownershipRequest line [a] none none) fun t =>
          t.line line = ⟨.modified, (s.line line).owner, [], [((s.line line).owner, a)]⟩ ∧
            t = { s with lines := t.lines, slices := t.slices }) ∧
      ∀ b : Nat, b < 97 → a ≠ b → (s.line line).held = false → s.busPasses (.own line [a, b] none none) →
        s.runs (.ownershipRequest line [a, b] none none) fun t =>
          t.rd F.CPX_DIR_RACE_COUNT 4 = counted (s.rd F.CPX_DIR_RACE_COUNT 4) ∧
            (t.line line = ⟨.modified, a, [], [(a, b)]⟩ ∨ t.line line = ⟨.modified, b, [], [(b, a)]⟩)) ∧
    (¬ s.busPasses (.own line [a] none none) → s.runs (.ownershipRequest line [a] none none) fun t =>
      t.busQ = s.busQ ++ [.own line [a] none none] ∧ t.lines = s.lines ∧ s.sameMem t) ∧
    (∀ b : Nat, (s.line line).owner = a → (s.line line).fwd = [(a, b)] → s.runs (.forwardReceive a line) fun t =>
      t.line line = { s.line line with st := .modified, owner := b, fwd := [] } ∧ t = { s with lines := t.lines }) ∧
    (∀ data : List Byte, data.length = 64 →
      ((s.line line).held = true → (s.line line).owner = a → (s.line line).fwd = [] → s.busPasses (.wback a line data) → s.takesLine line →
        s.runs (.writeback a line data 0) fun t => t.peek (64 * line) 64 = data ∧ (t.line line).held = false ∧
          (∀ b : Nat, (b < 64 * line ∨ 64 * line + 64 ≤ b) → t.byte b = s.byte b) ∧
          t = { s with lines := t.lines, mem := t.mem, spent := t.spent, power := t.power, regs := t.regs, imsic := t.imsic,
                       out := t.out }) ∧
      ∀ ecc : Nat, (s.line line).owner ≠ a → s.busPasses (.wback a line data) → s.runs (.writeback a line data ecc) fun t =>
        s.sameMem t ∧ (t.line line).st = (s.line line).st ∧
          (ecc = 1 → a < 96 → t.rd F.CPX_L2_CE_COUNT (a / 24) = counted (s.rd F.CPX_L2_CE_COUNT (a / 24))) ∧
          (ecc = 2 → a < 96 → t.rd F.CPX_L2_UE_COUNT (a / 24) = counted (s.rd F.CPX_L2_UE_COUNT (a / 24)) ∧
            t.hasEvent 0x1A (a / 24) 0)) ∧
    ∀ d : Nat, d < 4 →
      (s.flushing = [] → s.runs (.cpxFlush d) fun t => t = { s with flushing := [d] }) ∧
      (∀ dirty : List (Nat × List Byte), s.flushing = [d] → s.runs (.cpxFlushDone d dirty) fun t => t.flushing = [] ∧
        ∀ n : Nat, (t.line n).st = .modified ∨ (t.line n).st = .owned → (t.line n).owner < 96 → (t.line n).owner / 24 ≠ d) ∧
      ∀ v : Word, s.runs (.cpxFreqChange d v) fun t => t.rd F.CPX_FREQ_CURRENT d = t.rd F.CPX_FREQ_MHZ100 d ∧
        (12 ≤ bits v 0 6 → bits v 0 6 ≤ 36 → t.rd F.CPX_FREQ_MHZ100 d = bits v 0 6) ∧ t = { s with regs := t.regs }

/-- R379, R384: a coherent write of the accelerator invalidates every copy and reaches memory, a read of a line nobody
holds returns memory's bytes, one of a held line leaves it shared; a host access through BAR2 reads and writes the physical address it names, is aborted before
READY, and waits while class 63 is held.
The model's readings: log entries 102 and 103. -/
def Sys2Proof.Claims.CoherentAndHostAccesses : Prop :=
  ∀ (s : State) (a : Nat), s.hold = none →
    (∀ bs snoop : List Byte, s.isCoherent a = true → a % 64 + bs.length ≤ 64 → bs ≠ [] → (s.line (a / 64)).held = false →
      s.hubBytes a bs.length → s.runs (.accelCoherentAccess a (some bs) bs.length snoop) fun t =>
        t.peek a bs.length = bs ∧ t.line (a / 64) = Line.reset ∧ (∀ b : Nat, (b < a ∨ a + bs.length ≤ b) → t.byte b = s.byte b) ∧
          t = { s with lines := t.lines, mem := t.mem }) ∧
    (∀ bs snoop : List Byte, s.isCoherent a = true → (s.line (a / 64)).held = true →
      s.runs (.accelCoherentAccess a (some bs) bs.length snoop) fun t => t.line (a / 64) = Line.reset ∧
        ∀ k : Nat, k ≠ a / 64 → t.line k = s.line k) ∧
    (∀ (n : Nat) (snoop : List Byte), s.isCoherent a = true → 0 < n → a % 64 + n ≤ 64 → (s.line (a / 64)).held = false → s.hubBytes a n →
      s.runs (.accelCoherentAccess a none n snoop) fun t => t = { s with out := s.out ++ [.ctrl 27 "DATA" ((s.peek a n).map BitVec.toNat)] }) ∧
    (∀ (n : Nat) (snoop : List Byte), s.isCoherent a = true → (s.line (a / 64)).held = true →
      s.runs (.accelCoherentAccess a none n snoop) fun t => (t.line (a / 64)).st = .shared ∧ (t.line (a / 64)).fwd = [] ∧
        ∀ k : Nat, k ≠ a / 64 → t.line k = s.line k) ∧
    ∀ port offset n : Nat, s.pins.attached = true → port < 2 → offset < 2 ^ 36 → a = s.rd F.CPX_APERTURE_BASE 4 * 2 ^ 36 + offset →
      (s.boot.step ≠ 15 → ∀ w : Option (List Byte), s.runs (.hostBar2Access port offset w n MemFx.clean) fun t => .abort port ∈ t.out ∧
        t.rd F.PCI_ABORTS_COUNT port = counted (s.rd F.PCI_ABORTS_COUNT port) ∧ s.sameMem t) ∧
      (s.boot.step = 15 →
        (0 < n → s.hubBytes a n →
          (∀ bs : List Byte, bs.length = n → s.busPasses (.host port a (some bs) n MemFx.clean) →
            s.runs (.hostBar2Access port offset (some bs) n MemFx.clean) fun t =>
              t.peek a n = bs ∧ (∀ b : Nat, (b < a ∨ a + n ≤ b) → t.byte b = s.byte b)) ∧
          (s.busPasses (.host port a none n MemFx.clean) → s.runs (.hostBar2Access port offset none n MemFx.clean) fun t =>
            s.sameMem t ∧ .ctrl 27 "BAR2" (port :: (s.peek a n).map BitVec.toNat) ∈ t.out)) ∧
        ∀ w : Option (List Byte), ¬ s.busPasses (.host port a w n MemFx.clean) → s.runs (.hostBar2Access port offset w n MemFx.clean) fun t =>
          t.busQ = s.busQ ++ [.host port a w n MemFx.clean] ∧ s.sameMem t)

/-- Chapter 11: the directory, the dies, the accelerator port and the host. -/
def Obligations.CoherentMemory : Prop :=
  Claims.DirectoryGrantsAndForwards ∧ Claims.CoherentAndHostAccesses

/-! ### Registers (chapter 14) -/

/-- R449 to R462, R496: a register write reaches the operation its register stands for; PG_SCRATCH holds what is written, of two
writes of one clock the later source's, and a write that a meter holds waits; a command bit acts as its command; a read that clears returns the count and leaves only what falls in the same clock; the
common header clears by writing 1; PCIe ports and the sideband report.
Several command bits of one write: the model's reading, log entry 36; where a read value goes: log entry 116. -/
def Obligations.RegistersActOnTheirUnits : Prop :=
  ∀ s : State, s.hold = none →
    (∀ (block inst : Nat) (v : Word), pageExists block inst = true →
      (∀ src : Source, (∃ n : Nat, src = .stream n) ∨ s.busPasses (.word src (regAddr block inst 0x38) (some v) 0) →
        s.runs (.registerWrite (regAddr block inst 0x38) v src []) fun t => t.reg (regKey block inst 0x38) = v ∧
          t = { s with regs := t.regs, spent := t.spent, power := t.power, imsic := t.imsic, out := t.out } ∧
          ((∃ n : Nat, src = .stream n) ∨ isHub (pageSite block inst) = true →
            t = { s with regs := t.regs } ∧ s.regsBut t [regKey block inst 0x38])) ∧
      (∀ (src src' : Source) (w : Word), isHub (pageSite block inst) = true → s.busQ = [] → sourceRank src < sourceRank src' →
        (s.runs (.registerWrite (regAddr block inst 0x38) v src [(w, src')]) fun t => t.reg (regKey block inst 0x38) = w ∧
          t = { s with regs := t.regs } ∧ s.regsBut t [regKey block inst 0x38]) ∧
        s.runs (.registerWrite (regAddr block inst 0x38) v src' [(w, src)]) fun t => t.reg (regKey block inst 0x38) = v ∧
          t = { s with regs := t.regs } ∧ s.regsBut t [regKey block inst 0x38]) ∧
      (¬ s.busPasses (.word .mgmt (regAddr block inst 0x38) (some v) 0) →
        s.runs (.registerWrite (regAddr block inst 0x38) v .mgmt []) fun t =>
          t.busQ = s.busQ ++ [.word .mgmt (regAddr block inst 0x38) (some v) 0] ∧ s.sameMem t) ∧
      (∀ same : Word, s.runs (.pgEventClear block inst v same) fun t =>
        t.reg (evKey block inst) = (s.reg (evKey block inst) &&& ~~~v) ||| same ∧ t = { s with regs := t.regs, imsic := t.imsic, out := t.out } ∧
          s.regsBut t [evKey block inst]) ∧
      (bit v 63 = true → s.runs (.pgClampedClear block inst v none) fun t => t.reg (regKey block inst 0x30) = 0 ∧
        t = { s with regs := t.regs } ∧ s.regsBut t [regKey block inst 0x30]) ∧
      (ctrlEffect block = true → s.pageOos block inst = false → (s.runs (.pgQuiesce block inst v) fun t =>
          t.reg (regKey block inst 0x10) = v &&& 3 ∧ t = { s with regs := t.regs } ∧ s.regsBut t [regKey block inst 0x10]) ∧
        s.runs (.pgResume block inst) fun t => t.reg (regKey block inst 0x10) = 2 ∧ t = { s with regs := t.regs }) ∧
      (ctrlEffect block = false → exec (.pgQuiesce block inst v) s = .next s)) ∧
    (∀ src : Source, s.busQ = [] →
      exec (.registerWrite (regAddr 0x10 0 0x40) 1 src []) s = exec .ckpStart s ∧
      exec (.registerWrite (regAddr 0x17 5 0x40) 1 src []) s = exec (.ctxArm 5) s ∧
      exec (.registerWrite (regAddr 0x18 0 0x40) 2 src []) s = exec (.moduleReset 1 []) s ∧
      exec (.registerWrite (regAddr 0x14 48 0x50) 1 src []) s = exec .censusStart s ∧
      exec (.registerWrite (regAddr 0x1F 0 0x58) 1 src []) s = exec .logGc s ∧
      ∀ inc : Nat, s.runs (.rcRead (regAddr 0x15 0 0x88) inc src) fun t => t.rd F.TID_STEPS_COUNT = min inc (2 ^ 48 - 1) ∧
        ∃ v : Nat, v % 2 ^ 48 = s.rd F.TID_STEPS_COUNT ∧ .ctrl (srcNode src) "READ" [regAddr 0x15 0 0x88, v] ∈ t.out) ∧
    (∀ p : Nat, p < 2 →
      (s.runs (.pciRetrain p) fun t => t.rd F.PCI_RECOVERY_COUNT p = counted (s.rd F.PCI_RECOVERY_COUNT p)) ∧
      (s.pins.attached = true → exec (.pciHotReset p) s = .next s) ∧
      (s.pins.attached = false → s.runs (.pciHotReset p) fun t => t = { s with out := s.out ++ [.hotReset p] }) ∧
      (∀ speed width ce ue : Nat, speed < 8 → width < 32 → s.rd F.PCI_STATUS_LINK_UP p = 0 →
        s.runs (.pcieLinkChange p true speed width true ce ue) fun t =>
          t.rd F.PCI_STATUS_LINK_UP p = 1 ∧ t.rd F.PCI_STATUS_SPEED p = speed ∧ t.rd F.PCI_STATUS_WIDTH p = width ∧
            t.rd F.PCI_STATUS_FLIT p = 1 ∧ t.hasEvent 0x1B p 0 ∧
            t.rd F.PCI_CE_COUNT p = min (s.rd F.PCI_CE_COUNT p + ce) (2 ^ 48 - 1) ∧
            t.rd F.PCI_UE_COUNT p = min (s.rd F.PCI_UE_COUNT p + ue) (2 ^ 48 - 1) ∧ (ue ≠ 0 → t.hasEvent 0x1B p 2) ∧
            t = { s with regs := t.regs, imsic := t.imsic, out := t.out })) ∧
    ∀ addr sensor inst : Nat,
      (addr = 0x60 + s.pins.smbAddr → s.runs (.mctpMessage sensor inst addr) fun t =>
        t = { s with out := s.out ++ [.mctp [sensor, inst, (s.sensor sensor inst).toNat]] }) ∧
      (addr ≠ 0x60 + s.pins.smbAddr → exec (.mctpMessage sensor inst addr) s = .next s)
end

