-- ==== Sys2Proof/Laws/Sparse.lean ====
section
/-! SUPPORT. What reading and writing a sparse map do (read after write, every other entry kept), that every map
operation keeps the canonical form, and with it every operation of package memory. -/

namespace Sys2Proof.Machine

variable {α : Type}

/-! ### Read after write -/

theorem sparse_get_erase_self (d : Nat → α) (m : Sparse α) (k : Nat) : Sparse.get d (Sparse.erase m k) k = d k := by
  induction m with
  | nil => rfl
  | cons e m ih => obtain ⟨k', v⟩ := e; by_cases h : k' = k <;> simp [Sparse.erase, Sparse.get, h, ih]

theorem sparse_get_erase_ne (d : Nat → α) (m : Sparse α) {k j : Nat} (h : j ≠ k) :
    Sparse.get d (Sparse.erase m k) j = Sparse.get d m j := by
  induction m with
  | nil => rfl
  | cons e m ih =>
    obtain ⟨k', v⟩ := e
    by_cases h1 : k' = k
    · subst h1; simp [Sparse.erase, Sparse.get, ih, Ne.symm h]
    · simp [Sparse.erase, Sparse.get, h1, ih]

theorem sparse_get_insert_self (d : Nat → α) (m : Sparse α) (k : Nat) (v : α) :
    Sparse.get d (Sparse.insert m k v) k = v := by
  induction m with
  | nil => simp [Sparse.insert, Sparse.get]
  | cons e m ih =>
    obtain ⟨k', v'⟩ := e
    by_cases h1 : k' = k
    · simp [Sparse.insert, Sparse.get, h1]
    · by_cases h2 : k < k' <;> simp [Sparse.insert, Sparse.get, h1, h2, ih]

theorem sparse_get_insert_ne (d : Nat → α) (m : Sparse α) {k j : Nat} (v : α) (h : j ≠ k) :
    Sparse.get d (Sparse.insert m k v) j = Sparse.get d m j := by
  induction m with
  | nil => simp [Sparse.insert, Sparse.get, Ne.symm h]
  | cons e m ih =>
    obtain ⟨k', v'⟩ := e
    by_cases h1 : k' = k
    · subst h1; simp [Sparse.insert, Sparse.get, Ne.symm h]
    · by_cases h2 : k < k' <;> simp [Sparse.insert, Sparse.get, h1, h2, ih, Ne.symm h]

/-- A put entry reads as put. -/
@[simp] theorem sparse_get_put_self [DecidableEq α] (d : Nat → α) (m : Sparse α) (k : Nat) (v : α) :
    Sparse.get d (Sparse.put d m k v) k = v := by
  unfold Sparse.put; split
  · rename_i h; rw [sparse_get_erase_self, h]
  · rw [sparse_get_insert_self]

/-- Every other entry is kept. -/
theorem sparse_get_put_ne [DecidableEq α] (d : Nat → α) (m : Sparse α) {k j : Nat} (v : α) (h : j ≠ k) :
    Sparse.get d (Sparse.put d m k v) j = Sparse.get d m j := by
  unfold Sparse.put; split
  · exact sparse_get_erase_ne d m h
  · exact sparse_get_insert_ne d m v h

theorem sparse_get_put [DecidableEq α] (d : Nat → α) (m : Sparse α) (k j : Nat) (v : α) :
    Sparse.get d (Sparse.put d m k v) j = if j = k then v else Sparse.get d m j := by
  split
  · rename_i h; subst h; simp
  · rename_i h; exact sparse_get_put_ne d m v h

/-! ### The canonical form -/

/-- A lower bound may be lowered. -/
theorem sparse_wfFrom_mono [DecidableEq α] (d : Nat → α) {lo : Option Nat} {l : Nat} (m : Sparse α)
    (hl : ∀ x : Nat, lo = some x → x ≤ l) (h : Sparse.wfFrom d (some l) m = true) : Sparse.wfFrom d lo m = true := by
  cases m with
  | nil => rfl
  | cons e m =>
    obtain ⟨k, v⟩ := e
    simp only [Sparse.wfFrom, Bool.and_eq_true, decide_eq_true_eq] at h ⊢
    refine ⟨⟨?_, h.1.2⟩, h.2⟩
    cases lo with
    | none => rfl
    | some x => have := hl x rfl; simp; omega

theorem sparse_wfFrom_erase [DecidableEq α] (d : Nat → α) (lo : Option Nat) (m : Sparse α) (k : Nat)
    (h : Sparse.wfFrom d lo m = true) : Sparse.wfFrom d lo (Sparse.erase m k) = true := by
  induction m generalizing lo with
  | nil => rfl
  | cons e m ih =>
    obtain ⟨k', v⟩ := e
    simp only [Sparse.wfFrom, Bool.and_eq_true, decide_eq_true_eq] at h
    by_cases h1 : k' = k
    · simp only [Sparse.erase, h1, if_true]
      refine ih lo (sparse_wfFrom_mono d m ?_ h.2)
      intro x hx; subst hx; have := h.1.1; simp at this; omega
    · simp only [Sparse.erase, h1, if_false, Sparse.wfFrom, Bool.and_eq_true, decide_eq_true_eq]
      exact ⟨h.1, ih (some k') h.2⟩

/-- A number lies above a lower bound. -/
theorem sparse_above (lo : Option Nat) (k : Nat) :
    (∀ x : Nat, lo = some x → x < k) → (match lo with | none => true | some l => decide (l < k)) = true := by
  intro hk
  cases lo with
  | none => rfl
  | some l => exact decide_eq_true (hk l rfl)

theorem sparse_wfFrom_insert [DecidableEq α] (d : Nat → α) (lo : Option Nat) (m : Sparse α) (k : Nat) (v : α)
    (hk : ∀ x : Nat, lo = some x → x < k) (hv : v ≠ d k) (h : Sparse.wfFrom d lo m = true) :
    Sparse.wfFrom d lo (Sparse.insert m k v) = true := by
  induction m generalizing lo with
  | nil => simp only [Sparse.insert, Sparse.wfFrom, Bool.and_true, Bool.and_eq_true, decide_eq_true_eq]
           exact ⟨sparse_above lo k hk, hv⟩
  | cons e m ih =>
    obtain ⟨k', v'⟩ := e
    simp only [Sparse.wfFrom, Bool.and_eq_true, decide_eq_true_eq] at h
    by_cases h1 : k' = k
    · simp only [Sparse.insert, h1, if_true, Sparse.wfFrom, Bool.and_eq_true, decide_eq_true_eq]
      exact ⟨⟨sparse_above lo k hk, hv⟩, h1 ▸ h.2⟩
    · by_cases h2 : k < k'
      · simp only [Sparse.insert, h1, h2, if_false, if_true, Sparse.wfFrom, Bool.and_eq_true, decide_eq_true_eq]
        exact ⟨⟨sparse_above lo k hk, hv⟩, ⟨trivial, h.1.2⟩, h.2⟩
      · simp only [Sparse.insert, h1, h2, if_false, Sparse.wfFrom, Bool.and_eq_true, decide_eq_true_eq]
        refine ⟨h.1, ih (some k') ?_ h.2⟩
        intro x hx; cases hx; omega

/-- Putting an entry keeps the canonical form. -/
theorem sparse_wf_put [DecidableEq α] (d : Nat → α) (m : Sparse α) (k : Nat) (v : α) (h : Sparse.wf d m = true) :
    Sparse.wf d (Sparse.put d m k v) = true := by
  unfold Sparse.put; split
  · exact sparse_wfFrom_erase d none m k h
  · rename_i hv; exact sparse_wfFrom_insert d none m k v (by simp) hv h

/-- Filtering keeps the canonical form. -/
theorem sparse_wfFrom_filter [DecidableEq α] (d : Nat → α) (lo : Option Nat) (m : Sparse α) (p : Nat × α → Bool)
    (h : Sparse.wfFrom d lo m = true) : Sparse.wfFrom d lo (m.filter p) = true := by
  induction m generalizing lo with
  | nil => rfl
  | cons e m ih =>
    obtain ⟨k, v⟩ := e
    simp only [Sparse.wfFrom, Bool.and_eq_true, decide_eq_true_eq] at h
    rw [List.filter_cons]; split
    · simp only [Sparse.wfFrom, Bool.and_eq_true, decide_eq_true_eq]
      exact ⟨h.1, ih (some k) h.2⟩
    · refine ih lo (sparse_wfFrom_mono d m ?_ h.2)
      intro x hx; subst hx; have := h.1.1; simp at this; omega

theorem sparse_wf_filter [DecidableEq α] (d : Nat → α) (m : Sparse α) (p : Nat × α → Bool) (h : Sparse.wf d m = true) :
    Sparse.wf d (m.filter p) = true := sparse_wfFrom_filter d none m p h

/-! ### Package memory -/

theorem memory_wf_writeCells (f : Nat → Nat) (m : List Host.Cell) (a : Nat) (bs : List Byte) (h : Memory.wf m = true) :
    Memory.wf (writeCells f m a bs) = true := by
  induction bs generalizing m a with
  | nil => exact h
  | cons b bs ih => exact ih _ _ (sparse_wf_put memReset m (f a) b h)

/-- Storing bytes keeps memory in canonical form. -/
theorem poke_wf (s : State) (a : Nat) (bs : List Byte) (h : Memory.wf s.mem = true) : Memory.wf (s.poke a bs).mem = true :=
  memory_wf_writeCells s.phys s.mem a bs h

/-- A byte that a store does not reach keeps its value. -/
theorem writeCells_get_ne (f : Nat → Nat) (m : List Host.Cell) (a : Nat) (bs : List Byte) (x : Nat)
    (h : ∀ i : Nat, i < bs.length → f (a + i) ≠ x) :
    Sparse.get memReset (writeCells f m a bs) x = Sparse.get memReset m x := by
  induction bs generalizing m a with
  | nil => rfl
  | cons b bs ih =>
    rw [writeCells, ih]
    · exact sparse_get_put_ne _ _ _ (fun e => h 0 (by simp) (by simpa using e.symm))
    · intro i hi e; exact h (i + 1) (by simpa using hi) (by rw [← e]; congr 1; omega)

theorem poke_byte_ne (s : State) (a : Nat) (bs : List Byte) (x : Nat) (h : ∀ i : Nat, i < bs.length → s.phys (a + i) ≠ x) :
    (s.poke a bs).byte x = s.byte x := writeCells_get_ne s.phys s.mem a bs x h

/-- The bytes a store writes read as written, where the redirection sends its addresses to different bytes. -/
theorem writeCells_get_at (f : Nat → Nat) (m : List Host.Cell) (a : Nat) (bs : List Byte) (i : Nat) (hi : i < bs.length)
    (inj : ∀ j : Nat, j < bs.length → f (a + j) = f (a + i) → j = i) :
    Sparse.get memReset (writeCells f m a bs) (f (a + i)) = bs[i] := by
  induction bs generalizing m a i with
  | nil => simp at hi
  | cons b bs ih =>
    cases i with
    | zero =>
      rw [writeCells, writeCells_get_ne]
      · simp
      · intro j hj e
        have := inj (j + 1) (by simpa using hj) (by rw [← e]; congr 1; omega)
        omega
    | succ i =>
      have e1 : a + (i + 1) = a + 1 + i := by omega
      simp only [writeCells, e1, List.getElem_cons_succ]
      refine ih _ (a + 1) i (by simpa using hi) ?_
      intro j hj e
      have := inj (j + 1) (by simpa using hj) (by rw [e1, ← e]; congr 1; omega)
      omega

theorem poke_byte_at (s : State) (a : Nat) (bs : List Byte) (i : Nat) (hi : i < bs.length)
    (inj : ∀ j : Nat, j < bs.length → s.phys (a + j) = s.phys (a + i) → j = i) :
    (s.poke a bs).byte (s.phys (a + i)) = bs[i] := writeCells_get_at s.phys s.mem a bs i hi inj

end Sys2Proof.Machine
end

