-- ==== Sys2Proof/Laws/State.lean ====
section
/-! SUPPORT. One lemma for each field and each update of the state: what an update of one map, of a register field, of
memory or of the events leaves as it was, and what an accessor reads after its update. -/

namespace Sys2Proof.Machine

variable (s : State)


/-! ### setStream -/

@[simp] theorem setStream_pending (i : Nat) (v : Stream) : (s.setStream i v).pending = s.pending := rfl
@[simp] theorem setStream_regs (i : Nat) (v : Stream) : (s.setStream i v).regs = s.regs := rfl
@[simp] theorem setStream_mem (i : Nat) (v : Stream) : (s.setStream i v).mem = s.mem := rfl
@[simp] theorem setStream_waiters (i : Nat) (v : Stream) : (s.setStream i v).waiters = s.waiters := rfl
@[simp] theorem setStream_bollards (i : Nat) (v : Stream) : (s.setStream i v).bollards = s.bollards := rfl
@[simp] theorem setStream_pilots (i : Nat) (v : Stream) : (s.setStream i v).pilots = s.pilots := rfl
@[simp] theorem setStream_engines (i : Nat) (v : Stream) : (s.setStream i v).engines = s.engines := rfl
@[simp] theorem setStream_cores (i : Nat) (v : Stream) : (s.setStream i v).cores = s.cores := rfl
@[simp] theorem setStream_edges (i : Nat) (v : Stream) : (s.setStream i v).edges = s.edges := rfl
@[simp] theorem setStream_net (i : Nat) (v : Stream) : (s.setStream i v).net = s.net := rfl
@[simp] theorem setStream_resps (i : Nat) (v : Stream) : (s.setStream i v).resps = s.resps := rfl
@[simp] theorem setStream_ferries (i : Nat) (v : Stream) : (s.setStream i v).ferries = s.ferries := rfl
@[simp] theorem setStream_landings (i : Nat) (v : Stream) : (s.setStream i v).landings = s.landings := rfl
@[simp] theorem setStream_moorings (i : Nat) (v : Stream) : (s.setStream i v).moorings = s.moorings := rfl
@[simp] theorem setStream_stages (i : Nat) (v : Stream) : (s.setStream i v).stages = s.stages := rfl
@[simp] theorem setStream_pontoons (i : Nat) (v : Stream) : (s.setStream i v).pontoons = s.pontoons := rfl
@[simp] theorem setStream_vetoes (i : Nat) (v : Stream) : (s.setStream i v).vetoes = s.vetoes := rfl
@[simp] theorem setStream_banks (i : Nat) (v : Stream) : (s.setStream i v).banks = s.banks := rfl
@[simp] theorem setStream_scrubPos (i : Nat) (v : Stream) : (s.setStream i v).scrubPos = s.scrubPos := rfl
@[simp] theorem setStream_hbms (i : Nat) (v : Stream) : (s.setStream i v).hbms = s.hbms := rfl
@[simp] theorem setStream_spent (i : Nat) (v : Stream) : (s.setStream i v).spent = s.spent := rfl
@[simp] theorem setStream_tolls (i : Nat) (v : Stream) : (s.setStream i v).tolls = s.tolls := rfl
@[simp] theorem setStream_throttle (i : Nat) (v : Stream) : (s.setStream i v).throttle = s.throttle := rfl
@[simp] theorem setStream_tide (i : Nat) (v : Stream) : (s.setStream i v).tide = s.tide := rfl
@[simp] theorem setStream_gnorm (i : Nat) (v : Stream) : (s.setStream i v).gnorm = s.gnorm := rfl
@[simp] theorem setStream_optHeld (i : Nat) (v : Stream) : (s.setStream i v).optHeld = s.optHeld := rfl
@[simp] theorem setStream_ckpt (i : Nat) (v : Stream) : (s.setStream i v).ckpt = s.ckpt := rfl
@[simp] theorem setStream_ports (i : Nat) (v : Stream) : (s.setStream i v).ports = s.ports := rfl
@[simp] theorem setStream_census (i : Nat) (v : Stream) : (s.setStream i v).census = s.census := rfl
@[simp] theorem setStream_cohwin (i : Nat) (v : Stream) : (s.setStream i v).cohwin = s.cohwin := rfl
@[simp] theorem setStream_lines (i : Nat) (v : Stream) : (s.setStream i v).lines = s.lines := rfl
@[simp] theorem setStream_slices (i : Nat) (v : Stream) : (s.setStream i v).slices = s.slices := rfl
@[simp] theorem setStream_flushing (i : Nat) (v : Stream) : (s.setStream i v).flushing = s.flushing := rfl
@[simp] theorem setStream_ctxs (i : Nat) (v : Stream) : (s.setStream i v).ctxs = s.ctxs := rfl
@[simp] theorem setStream_reports (i : Nat) (v : Stream) : (s.setStream i v).reports = s.reports := rfl
@[simp] theorem setStream_resets (i : Nat) (v : Stream) : (s.setStream i v).resets = s.resets := rfl
@[simp] theorem setStream_hold (i : Nat) (v : Stream) : (s.setStream i v).hold = s.hold := rfl
@[simp] theorem setStream_power (i : Nat) (v : Stream) : (s.setStream i v).power = s.power := rfl
@[simp] theorem setStream_traces (i : Nat) (v : Stream) : (s.setStream i v).traces = s.traces := rfl
@[simp] theorem setStream_log (i : Nat) (v : Stream) : (s.setStream i v).log = s.log := rfl
@[simp] theorem setStream_fuses (i : Nat) (v : Stream) : (s.setStream i v).fuses = s.fuses := rfl
@[simp] theorem setStream_flash (i : Nat) (v : Stream) : (s.setStream i v).flash = s.flash := rfl
@[simp] theorem setStream_boot (i : Nat) (v : Stream) : (s.setStream i v).boot = s.boot := rfl
@[simp] theorem setStream_pins (i : Nat) (v : Stream) : (s.setStream i v).pins = s.pins := rfl
@[simp] theorem setStream_cells (i : Nat) (v : Stream) : (s.setStream i v).cells = s.cells := rfl
@[simp] theorem setStream_margins (i : Nat) (v : Stream) : (s.setStream i v).margins = s.margins := rfl
@[simp] theorem setStream_secHeld (i : Nat) (v : Stream) : (s.setStream i v).secHeld = s.secHeld := rfl
@[simp] theorem setStream_owed (i : Nat) (v : Stream) : (s.setStream i v).owed = s.owed := rfl
@[simp] theorem setStream_exempt (i : Nat) (v : Stream) : (s.setStream i v).exempt = s.exempt := rfl
@[simp] theorem setStream_queued (i : Nat) (v : Stream) : (s.setStream i v).queued = s.queued := rfl
@[simp] theorem setStream_busQ (i : Nat) (v : Stream) : (s.setStream i v).busQ = s.busQ := rfl
@[simp] theorem setStream_imsic (i : Nat) (v : Stream) : (s.setStream i v).imsic = s.imsic := rfl
@[simp] theorem setStream_aplic (i : Nat) (v : Stream) : (s.setStream i v).aplic = s.aplic := rfl
@[simp] theorem setStream_wiping (i : Nat) (v : Stream) : (s.setStream i v).wiping = s.wiping := rfl
@[simp] theorem setStream_out (i : Nat) (v : Stream) : (s.setStream i v).out = s.out := rfl
@[simp] theorem setStream_free (i : Nat) (v : Stream) : (s.setStream i v).free = s.free := rfl

/-! ### setBollard -/

@[simp] theorem setBollard_pending (i : Nat) (v : Bollard) : (s.setBollard i v).pending = s.pending := rfl
@[simp] theorem setBollard_regs (i : Nat) (v : Bollard) : (s.setBollard i v).regs = s.regs := rfl
@[simp] theorem setBollard_mem (i : Nat) (v : Bollard) : (s.setBollard i v).mem = s.mem := rfl
@[simp] theorem setBollard_streams (i : Nat) (v : Bollard) : (s.setBollard i v).streams = s.streams := rfl
@[simp] theorem setBollard_waiters (i : Nat) (v : Bollard) : (s.setBollard i v).waiters = s.waiters := rfl
@[simp] theorem setBollard_pilots (i : Nat) (v : Bollard) : (s.setBollard i v).pilots = s.pilots := rfl
@[simp] theorem setBollard_engines (i : Nat) (v : Bollard) : (s.setBollard i v).engines = s.engines := rfl
@[simp] theorem setBollard_cores (i : Nat) (v : Bollard) : (s.setBollard i v).cores = s.cores := rfl
@[simp] theorem setBollard_edges (i : Nat) (v : Bollard) : (s.setBollard i v).edges = s.edges := rfl
@[simp] theorem setBollard_net (i : Nat) (v : Bollard) : (s.setBollard i v).net = s.net := rfl
@[simp] theorem setBollard_resps (i : Nat) (v : Bollard) : (s.setBollard i v).resps = s.resps := rfl
@[simp] theorem setBollard_ferries (i : Nat) (v : Bollard) : (s.setBollard i v).ferries = s.ferries := rfl
@[simp] theorem setBollard_landings (i : Nat) (v : Bollard) : (s.setBollard i v).landings = s.landings := rfl
@[simp] theorem setBollard_moorings (i : Nat) (v : Bollard) : (s.setBollard i v).moorings = s.moorings := rfl
@[simp] theorem setBollard_stages (i : Nat) (v : Bollard) : (s.setBollard i v).stages = s.stages := rfl
@[simp] theorem setBollard_pontoons (i : Nat) (v : Bollard) : (s.setBollard i v).pontoons = s.pontoons := rfl
@[simp] theorem setBollard_vetoes (i : Nat) (v : Bollard) : (s.setBollard i v).vetoes = s.vetoes := rfl
@[simp] theorem setBollard_banks (i : Nat) (v : Bollard) : (s.setBollard i v).banks = s.banks := rfl
@[simp] theorem setBollard_scrubPos (i : Nat) (v : Bollard) : (s.setBollard i v).scrubPos = s.scrubPos := rfl
@[simp] theorem setBollard_hbms (i : Nat) (v : Bollard) : (s.setBollard i v).hbms = s.hbms := rfl
@[simp] theorem setBollard_spent (i : Nat) (v : Bollard) : (s.setBollard i v).spent = s.spent := rfl
@[simp] theorem setBollard_tolls (i : Nat) (v : Bollard) : (s.setBollard i v).tolls = s.tolls := rfl
@[simp] theorem setBollard_throttle (i : Nat) (v : Bollard) : (s.setBollard i v).throttle = s.throttle := rfl
@[simp] theorem setBollard_tide (i : Nat) (v : Bollard) : (s.setBollard i v).tide = s.tide := rfl
@[simp] theorem setBollard_gnorm (i : Nat) (v : Bollard) : (s.setBollard i v).gnorm = s.gnorm := rfl
@[simp] theorem setBollard_optHeld (i : Nat) (v : Bollard) : (s.setBollard i v).optHeld = s.optHeld := rfl
@[simp] theorem setBollard_ckpt (i : Nat) (v : Bollard) : (s.setBollard i v).ckpt = s.ckpt := rfl
@[simp] theorem setBollard_ports (i : Nat) (v : Bollard) : (s.setBollard i v).ports = s.ports := rfl
@[simp] theorem setBollard_census (i : Nat) (v : Bollard) : (s.setBollard i v).census = s.census := rfl
@[simp] theorem setBollard_cohwin (i : Nat) (v : Bollard) : (s.setBollard i v).cohwin = s.cohwin := rfl
@[simp] theorem setBollard_lines (i : Nat) (v : Bollard) : (s.setBollard i v).lines = s.lines := rfl
@[simp] theorem setBollard_slices (i : Nat) (v : Bollard) : (s.setBollard i v).slices = s.slices := rfl
@[simp] theorem setBollard_flushing (i : Nat) (v : Bollard) : (s.setBollard i v).flushing = s.flushing := rfl
@[simp] theorem setBollard_ctxs (i : Nat) (v : Bollard) : (s.setBollard i v).ctxs = s.ctxs := rfl
@[simp] theorem setBollard_reports (i : Nat) (v : Bollard) : (s.setBollard i v).reports = s.reports := rfl
@[simp] theorem setBollard_resets (i : Nat) (v : Bollard) : (s.setBollard i v).resets = s.resets := rfl
@[simp] theorem setBollard_hold (i : Nat) (v : Bollard) : (s.setBollard i v).hold = s.hold := rfl
@[simp] theorem setBollard_power (i : Nat) (v : Bollard) : (s.setBollard i v).power = s.power := rfl
@[simp] theorem setBollard_traces (i : Nat) (v : Bollard) : (s.setBollard i v).traces = s.traces := rfl
@[simp] theorem setBollard_log (i : Nat) (v : Bollard) : (s.setBollard i v).log = s.log := rfl
@[simp] theorem setBollard_fuses (i : Nat) (v : Bollard) : (s.setBollard i v).fuses = s.fuses := rfl
@[simp] theorem setBollard_flash (i : Nat) (v : Bollard) : (s.setBollard i v).flash = s.flash := rfl
@[simp] theorem setBollard_boot (i : Nat) (v : Bollard) : (s.setBollard i v).boot = s.boot := rfl
@[simp] theorem setBollard_pins (i : Nat) (v : Bollard) : (s.setBollard i v).pins = s.pins := rfl
@[simp] theorem setBollard_cells (i : Nat) (v : Bollard) : (s.setBollard i v).cells = s.cells := rfl
@[simp] theorem setBollard_margins (i : Nat) (v : Bollard) : (s.setBollard i v).margins = s.margins := rfl
@[simp] theorem setBollard_secHeld (i : Nat) (v : Bollard) : (s.setBollard i v).secHeld = s.secHeld := rfl
@[simp] theorem setBollard_owed (i : Nat) (v : Bollard) : (s.setBollard i v).owed = s.owed := rfl
@[simp] theorem setBollard_exempt (i : Nat) (v : Bollard) : (s.setBollard i v).exempt = s.exempt := rfl
@[simp] theorem setBollard_queued (i : Nat) (v : Bollard) : (s.setBollard i v).queued = s.queued := rfl
@[simp] theorem setBollard_busQ (i : Nat) (v : Bollard) : (s.setBollard i v).busQ = s.busQ := rfl
@[simp] theorem setBollard_imsic (i : Nat) (v : Bollard) : (s.setBollard i v).imsic = s.imsic := rfl
@[simp] theorem setBollard_aplic (i : Nat) (v : Bollard) : (s.setBollard i v).aplic = s.aplic := rfl
@[simp] theorem setBollard_wiping (i : Nat) (v : Bollard) : (s.setBollard i v).wiping = s.wiping := rfl
@[simp] theorem setBollard_out (i : Nat) (v : Bollard) : (s.setBollard i v).out = s.out := rfl
@[simp] theorem setBollard_free (i : Nat) (v : Bollard) : (s.setBollard i v).free = s.free := rfl

/-! ### setPilot -/

@[simp] theorem setPilot_pending (i : Nat) (v : Pilot) : (s.setPilot i v).pending = s.pending := rfl
@[simp] theorem setPilot_regs (i : Nat) (v : Pilot) : (s.setPilot i v).regs = s.regs := rfl
@[simp] theorem setPilot_mem (i : Nat) (v : Pilot) : (s.setPilot i v).mem = s.mem := rfl
@[simp] theorem setPilot_streams (i : Nat) (v : Pilot) : (s.setPilot i v).streams = s.streams := rfl
@[simp] theorem setPilot_waiters (i : Nat) (v : Pilot) : (s.setPilot i v).waiters = s.waiters := rfl
@[simp] theorem setPilot_bollards (i : Nat) (v : Pilot) : (s.setPilot i v).bollards = s.bollards := rfl
@[simp] theorem setPilot_engines (i : Nat) (v : Pilot) : (s.setPilot i v).engines = s.engines := rfl
@[simp] theorem setPilot_cores (i : Nat) (v : Pilot) : (s.setPilot i v).cores = s.cores := rfl
@[simp] theorem setPilot_edges (i : Nat) (v : Pilot) : (s.setPilot i v).edges = s.edges := rfl
@[simp] theorem setPilot_net (i : Nat) (v : Pilot) : (s.setPilot i v).net = s.net := rfl
@[simp] theorem setPilot_resps (i : Nat) (v : Pilot) : (s.setPilot i v).resps = s.resps := rfl
@[simp] theorem setPilot_ferries (i : Nat) (v : Pilot) : (s.setPilot i v).ferries = s.ferries := rfl
@[simp] theorem setPilot_landings (i : Nat) (v : Pilot) : (s.setPilot i v).landings = s.landings := rfl
@[simp] theorem setPilot_moorings (i : Nat) (v : Pilot) : (s.setPilot i v).moorings = s.moorings := rfl
@[simp] theorem setPilot_stages (i : Nat) (v : Pilot) : (s.setPilot i v).stages = s.stages := rfl
@[simp] theorem setPilot_pontoons (i : Nat) (v : Pilot) : (s.setPilot i v).pontoons = s.pontoons := rfl
@[simp] theorem setPilot_vetoes (i : Nat) (v : Pilot) : (s.setPilot i v).vetoes = s.vetoes := rfl
@[simp] theorem setPilot_banks (i : Nat) (v : Pilot) : (s.setPilot i v).banks = s.banks := rfl
@[simp] theorem setPilot_scrubPos (i : Nat) (v : Pilot) : (s.setPilot i v).scrubPos = s.scrubPos := rfl
@[simp] theorem setPilot_hbms (i : Nat) (v : Pilot) : (s.setPilot i v).hbms = s.hbms := rfl
@[simp] theorem setPilot_spent (i : Nat) (v : Pilot) : (s.setPilot i v).spent = s.spent := rfl
@[simp] theorem setPilot_tolls (i : Nat) (v : Pilot) : (s.setPilot i v).tolls = s.tolls := rfl
@[simp] theorem setPilot_throttle (i : Nat) (v : Pilot) : (s.setPilot i v).throttle = s.throttle := rfl
@[simp] theorem setPilot_tide (i : Nat) (v : Pilot) : (s.setPilot i v).tide = s.tide := rfl
@[simp] theorem setPilot_gnorm (i : Nat) (v : Pilot) : (s.setPilot i v).gnorm = s.gnorm := rfl
@[simp] theorem setPilot_optHeld (i : Nat) (v : Pilot) : (s.setPilot i v).optHeld = s.optHeld := rfl
@[simp] theorem setPilot_ckpt (i : Nat) (v : Pilot) : (s.setPilot i v).ckpt = s.ckpt := rfl
@[simp] theorem setPilot_ports (i : Nat) (v : Pilot) : (s.setPilot i v).ports = s.ports := rfl
@[simp] theorem setPilot_census (i : Nat) (v : Pilot) : (s.setPilot i v).census = s.census := rfl
@[simp] theorem setPilot_cohwin (i : Nat) (v : Pilot) : (s.setPilot i v).cohwin = s.cohwin := rfl
@[simp] theorem setPilot_lines (i : Nat) (v : Pilot) : (s.setPilot i v).lines = s.lines := rfl
@[simp] theorem setPilot_slices (i : Nat) (v : Pilot) : (s.setPilot i v).slices = s.slices := rfl
@[simp] theorem setPilot_flushing (i : Nat) (v : Pilot) : (s.setPilot i v).flushing = s.flushing := rfl
@[simp] theorem setPilot_ctxs (i : Nat) (v : Pilot) : (s.setPilot i v).ctxs = s.ctxs := rfl
@[simp] theorem setPilot_reports (i : Nat) (v : Pilot) : (s.setPilot i v).reports = s.reports := rfl
@[simp] theorem setPilot_resets (i : Nat) (v : Pilot) : (s.setPilot i v).resets = s.resets := rfl
@[simp] theorem setPilot_hold (i : Nat) (v : Pilot) : (s.setPilot i v).hold = s.hold := rfl
@[simp] theorem setPilot_power (i : Nat) (v : Pilot) : (s.setPilot i v).power = s.power := rfl
@[simp] theorem setPilot_traces (i : Nat) (v : Pilot) : (s.setPilot i v).traces = s.traces := rfl
@[simp] theorem setPilot_log (i : Nat) (v : Pilot) : (s.setPilot i v).log = s.log := rfl
@[simp] theorem setPilot_fuses (i : Nat) (v : Pilot) : (s.setPilot i v).fuses = s.fuses := rfl
@[simp] theorem setPilot_flash (i : Nat) (v : Pilot) : (s.setPilot i v).flash = s.flash := rfl
@[simp] theorem setPilot_boot (i : Nat) (v : Pilot) : (s.setPilot i v).boot = s.boot := rfl
@[simp] theorem setPilot_pins (i : Nat) (v : Pilot) : (s.setPilot i v).pins = s.pins := rfl
@[simp] theorem setPilot_cells (i : Nat) (v : Pilot) : (s.setPilot i v).cells = s.cells := rfl
@[simp] theorem setPilot_margins (i : Nat) (v : Pilot) : (s.setPilot i v).margins = s.margins := rfl
@[simp] theorem setPilot_secHeld (i : Nat) (v : Pilot) : (s.setPilot i v).secHeld = s.secHeld := rfl
@[simp] theorem setPilot_owed (i : Nat) (v : Pilot) : (s.setPilot i v).owed = s.owed := rfl
@[simp] theorem setPilot_exempt (i : Nat) (v : Pilot) : (s.setPilot i v).exempt = s.exempt := rfl
@[simp] theorem setPilot_queued (i : Nat) (v : Pilot) : (s.setPilot i v).queued = s.queued := rfl
@[simp] theorem setPilot_busQ (i : Nat) (v : Pilot) : (s.setPilot i v).busQ = s.busQ := rfl
@[simp] theorem setPilot_imsic (i : Nat) (v : Pilot) : (s.setPilot i v).imsic = s.imsic := rfl
@[simp] theorem setPilot_aplic (i : Nat) (v : Pilot) : (s.setPilot i v).aplic = s.aplic := rfl
@[simp] theorem setPilot_wiping (i : Nat) (v : Pilot) : (s.setPilot i v).wiping = s.wiping := rfl
@[simp] theorem setPilot_out (i : Nat) (v : Pilot) : (s.setPilot i v).out = s.out := rfl
@[simp] theorem setPilot_free (i : Nat) (v : Pilot) : (s.setPilot i v).free = s.free := rfl

/-! ### setEngineQ -/

@[simp] theorem setEngineQ_pending (i : Nat) (v : EngineQ) : (s.setEngineQ i v).pending = s.pending := rfl
@[simp] theorem setEngineQ_regs (i : Nat) (v : EngineQ) : (s.setEngineQ i v).regs = s.regs := rfl
@[simp] theorem setEngineQ_mem (i : Nat) (v : EngineQ) : (s.setEngineQ i v).mem = s.mem := rfl
@[simp] theorem setEngineQ_streams (i : Nat) (v : EngineQ) : (s.setEngineQ i v).streams = s.streams := rfl
@[simp] theorem setEngineQ_waiters (i : Nat) (v : EngineQ) : (s.setEngineQ i v).waiters = s.waiters := rfl
@[simp] theorem setEngineQ_bollards (i : Nat) (v : EngineQ) : (s.setEngineQ i v).bollards = s.bollards := rfl
@[simp] theorem setEngineQ_pilots (i : Nat) (v : EngineQ) : (s.setEngineQ i v).pilots = s.pilots := rfl
@[simp] theorem setEngineQ_cores (i : Nat) (v : EngineQ) : (s.setEngineQ i v).cores = s.cores := rfl
@[simp] theorem setEngineQ_edges (i : Nat) (v : EngineQ) : (s.setEngineQ i v).edges = s.edges := rfl
@[simp] theorem setEngineQ_net (i : Nat) (v : EngineQ) : (s.setEngineQ i v).net = s.net := rfl
@[simp] theorem setEngineQ_resps (i : Nat) (v : EngineQ) : (s.setEngineQ i v).resps = s.resps := rfl
@[simp] theorem setEngineQ_ferries (i : Nat) (v : EngineQ) : (s.setEngineQ i v).ferries = s.ferries := rfl
@[simp] theorem setEngineQ_landings (i : Nat) (v : EngineQ) : (s.setEngineQ i v).landings = s.landings := rfl
@[simp] theorem setEngineQ_moorings (i : Nat) (v : EngineQ) : (s.setEngineQ i v).moorings = s.moorings := rfl
@[simp] theorem setEngineQ_stages (i : Nat) (v : EngineQ) : (s.setEngineQ i v).stages = s.stages := rfl
@[simp] theorem setEngineQ_pontoons (i : Nat) (v : EngineQ) : (s.setEngineQ i v).pontoons = s.pontoons := rfl
@[simp] theorem setEngineQ_vetoes (i : Nat) (v : EngineQ) : (s.setEngineQ i v).vetoes = s.vetoes := rfl
@[simp] theorem setEngineQ_banks (i : Nat) (v : EngineQ) : (s.setEngineQ i v).banks = s.banks := rfl
@[simp] theorem setEngineQ_scrubPos (i : Nat) (v : EngineQ) : (s.setEngineQ i v).scrubPos = s.scrubPos := rfl
@[simp] theorem setEngineQ_hbms (i : Nat) (v : EngineQ) : (s.setEngineQ i v).hbms = s.hbms := rfl
@[simp] theorem setEngineQ_spent (i : Nat) (v : EngineQ) : (s.setEngineQ i v).spent = s.spent := rfl
@[simp] theorem setEngineQ_tolls (i : Nat) (v : EngineQ) : (s.setEngineQ i v).tolls = s.tolls := rfl
@[simp] theorem setEngineQ_throttle (i : Nat) (v : EngineQ) : (s.setEngineQ i v).throttle = s.throttle := rfl
@[simp] theorem setEngineQ_tide (i : Nat) (v : EngineQ) : (s.setEngineQ i v).tide = s.tide := rfl
@[simp] theorem setEngineQ_gnorm (i : Nat) (v : EngineQ) : (s.setEngineQ i v).gnorm = s.gnorm := rfl
@[simp] theorem setEngineQ_optHeld (i : Nat) (v : EngineQ) : (s.setEngineQ i v).optHeld = s.optHeld := rfl
@[simp] theorem setEngineQ_ckpt (i : Nat) (v : EngineQ) : (s.setEngineQ i v).ckpt = s.ckpt := rfl
@[simp] theorem setEngineQ_ports (i : Nat) (v : EngineQ) : (s.setEngineQ i v).ports = s.ports := rfl
@[simp] theorem setEngineQ_census (i : Nat) (v : EngineQ) : (s.setEngineQ i v).census = s.census := rfl
@[simp] theorem setEngineQ_cohwin (i : Nat) (v : EngineQ) : (s.setEngineQ i v).cohwin = s.cohwin := rfl
@[simp] theorem setEngineQ_lines (i : Nat) (v : EngineQ) : (s.setEngineQ i v).lines = s.lines := rfl
@[simp] theorem setEngineQ_slices (i : Nat) (v : EngineQ) : (s.setEngineQ i v).slices = s.slices := rfl
@[simp] theorem setEngineQ_flushing (i : Nat) (v : EngineQ) : (s.setEngineQ i v).flushing = s.flushing := rfl
@[simp] theorem setEngineQ_ctxs (i : Nat) (v : EngineQ) : (s.setEngineQ i v).ctxs = s.ctxs := rfl
@[simp] theorem setEngineQ_reports (i : Nat) (v : EngineQ) : (s.setEngineQ i v).reports = s.reports := rfl
@[simp] theorem setEngineQ_resets (i : Nat) (v : EngineQ) : (s.setEngineQ i v).resets = s.resets := rfl
@[simp] theorem setEngineQ_hold (i : Nat) (v : EngineQ) : (s.setEngineQ i v).hold = s.hold := rfl
@[simp] theorem setEngineQ_power (i : Nat) (v : EngineQ) : (s.setEngineQ i v).power = s.power := rfl
@[simp] theorem setEngineQ_traces (i : Nat) (v : EngineQ) : (s.setEngineQ i v).traces = s.traces := rfl
@[simp] theorem setEngineQ_log (i : Nat) (v : EngineQ) : (s.setEngineQ i v).log = s.log := rfl
@[simp] theorem setEngineQ_fuses (i : Nat) (v : EngineQ) : (s.setEngineQ i v).fuses = s.fuses := rfl
@[simp] theorem setEngineQ_flash (i : Nat) (v : EngineQ) : (s.setEngineQ i v).flash = s.flash := rfl
@[simp] theorem setEngineQ_boot (i : Nat) (v : EngineQ) : (s.setEngineQ i v).boot = s.boot := rfl
@[simp] theorem setEngineQ_pins (i : Nat) (v : EngineQ) : (s.setEngineQ i v).pins = s.pins := rfl
@[simp] theorem setEngineQ_cells (i : Nat) (v : EngineQ) : (s.setEngineQ i v).cells = s.cells := rfl
@[simp] theorem setEngineQ_margins (i : Nat) (v : EngineQ) : (s.setEngineQ i v).margins = s.margins := rfl
@[simp] theorem setEngineQ_secHeld (i : Nat) (v : EngineQ) : (s.setEngineQ i v).secHeld = s.secHeld := rfl
@[simp] theorem setEngineQ_owed (i : Nat) (v : EngineQ) : (s.setEngineQ i v).owed = s.owed := rfl
@[simp] theorem setEngineQ_exempt (i : Nat) (v : EngineQ) : (s.setEngineQ i v).exempt = s.exempt := rfl
@[simp] theorem setEngineQ_queued (i : Nat) (v : EngineQ) : (s.setEngineQ i v).queued = s.queued := rfl
@[simp] theorem setEngineQ_busQ (i : Nat) (v : EngineQ) : (s.setEngineQ i v).busQ = s.busQ := rfl
@[simp] theorem setEngineQ_imsic (i : Nat) (v : EngineQ) : (s.setEngineQ i v).imsic = s.imsic := rfl
@[simp] theorem setEngineQ_aplic (i : Nat) (v : EngineQ) : (s.setEngineQ i v).aplic = s.aplic := rfl
@[simp] theorem setEngineQ_wiping (i : Nat) (v : EngineQ) : (s.setEngineQ i v).wiping = s.wiping := rfl
@[simp] theorem setEngineQ_out (i : Nat) (v : EngineQ) : (s.setEngineQ i v).out = s.out := rfl
@[simp] theorem setEngineQ_free (i : Nat) (v : EngineQ) : (s.setEngineQ i v).free = s.free := rfl

/-! ### setCore -/

@[simp] theorem setCore_pending (i : Nat) (v : Core) : (s.setCore i v).pending = s.pending := rfl
@[simp] theorem setCore_regs (i : Nat) (v : Core) : (s.setCore i v).regs = s.regs := rfl
@[simp] theorem setCore_mem (i : Nat) (v : Core) : (s.setCore i v).mem = s.mem := rfl
@[simp] theorem setCore_streams (i : Nat) (v : Core) : (s.setCore i v).streams = s.streams := rfl
@[simp] theorem setCore_waiters (i : Nat) (v : Core) : (s.setCore i v).waiters = s.waiters := rfl
@[simp] theorem setCore_bollards (i : Nat) (v : Core) : (s.setCore i v).bollards = s.bollards := rfl
@[simp] theorem setCore_pilots (i : Nat) (v : Core) : (s.setCore i v).pilots = s.pilots := rfl
@[simp] theorem setCore_engines (i : Nat) (v : Core) : (s.setCore i v).engines = s.engines := rfl
@[simp] theorem setCore_edges (i : Nat) (v : Core) : (s.setCore i v).edges = s.edges := rfl
@[simp] theorem setCore_net (i : Nat) (v : Core) : (s.setCore i v).net = s.net := rfl
@[simp] theorem setCore_resps (i : Nat) (v : Core) : (s.setCore i v).resps = s.resps := rfl
@[simp] theorem setCore_ferries (i : Nat) (v : Core) : (s.setCore i v).ferries = s.ferries := rfl
@[simp] theorem setCore_landings (i : Nat) (v : Core) : (s.setCore i v).landings = s.landings := rfl
@[simp] theorem setCore_moorings (i : Nat) (v : Core) : (s.setCore i v).moorings = s.moorings := rfl
@[simp] theorem setCore_stages (i : Nat) (v : Core) : (s.setCore i v).stages = s.stages := rfl
@[simp] theorem setCore_pontoons (i : Nat) (v : Core) : (s.setCore i v).pontoons = s.pontoons := rfl
@[simp] theorem setCore_vetoes (i : Nat) (v : Core) : (s.setCore i v).vetoes = s.vetoes := rfl
@[simp] theorem setCore_banks (i : Nat) (v : Core) : (s.setCore i v).banks = s.banks := rfl
@[simp] theorem setCore_scrubPos (i : Nat) (v : Core) : (s.setCore i v).scrubPos = s.scrubPos := rfl
@[simp] theorem setCore_hbms (i : Nat) (v : Core) : (s.setCore i v).hbms = s.hbms := rfl
@[simp] theorem setCore_spent (i : Nat) (v : Core) : (s.setCore i v).spent = s.spent := rfl
@[simp] theorem setCore_tolls (i : Nat) (v : Core) : (s.setCore i v).tolls = s.tolls := rfl
@[simp] theorem setCore_throttle (i : Nat) (v : Core) : (s.setCore i v).throttle = s.throttle := rfl
@[simp] theorem setCore_tide (i : Nat) (v : Core) : (s.setCore i v).tide = s.tide := rfl
@[simp] theorem setCore_gnorm (i : Nat) (v : Core) : (s.setCore i v).gnorm = s.gnorm := rfl
@[simp] theorem setCore_optHeld (i : Nat) (v : Core) : (s.setCore i v).optHeld = s.optHeld := rfl
@[simp] theorem setCore_ckpt (i : Nat) (v : Core) : (s.setCore i v).ckpt = s.ckpt := rfl
@[simp] theorem setCore_ports (i : Nat) (v : Core) : (s.setCore i v).ports = s.ports := rfl
@[simp] theorem setCore_census (i : Nat) (v : Core) : (s.setCore i v).census = s.census := rfl
@[simp] theorem setCore_cohwin (i : Nat) (v : Core) : (s.setCore i v).cohwin = s.cohwin := rfl
@[simp] theorem setCore_lines (i : Nat) (v : Core) : (s.setCore i v).lines = s.lines := rfl
@[simp] theorem setCore_slices (i : Nat) (v : Core) : (s.setCore i v).slices = s.slices := rfl
@[simp] theorem setCore_flushing (i : Nat) (v : Core) : (s.setCore i v).flushing = s.flushing := rfl
@[simp] theorem setCore_ctxs (i : Nat) (v : Core) : (s.setCore i v).ctxs = s.ctxs := rfl
@[simp] theorem setCore_reports (i : Nat) (v : Core) : (s.setCore i v).reports = s.reports := rfl
@[simp] theorem setCore_resets (i : Nat) (v : Core) : (s.setCore i v).resets = s.resets := rfl
@[simp] theorem setCore_hold (i : Nat) (v : Core) : (s.setCore i v).hold = s.hold := rfl
@[simp] theorem setCore_power (i : Nat) (v : Core) : (s.setCore i v).power = s.power := rfl
@[simp] theorem setCore_traces (i : Nat) (v : Core) : (s.setCore i v).traces = s.traces := rfl
@[simp] theorem setCore_log (i : Nat) (v : Core) : (s.setCore i v).log = s.log := rfl
@[simp] theorem setCore_fuses (i : Nat) (v : Core) : (s.setCore i v).fuses = s.fuses := rfl
@[simp] theorem setCore_flash (i : Nat) (v : Core) : (s.setCore i v).flash = s.flash := rfl
@[simp] theorem setCore_boot (i : Nat) (v : Core) : (s.setCore i v).boot = s.boot := rfl
@[simp] theorem setCore_pins (i : Nat) (v : Core) : (s.setCore i v).pins = s.pins := rfl
@[simp] theorem setCore_cells (i : Nat) (v : Core) : (s.setCore i v).cells = s.cells := rfl
@[simp] theorem setCore_margins (i : Nat) (v : Core) : (s.setCore i v).margins = s.margins := rfl
@[simp] theorem setCore_secHeld (i : Nat) (v : Core) : (s.setCore i v).secHeld = s.secHeld := rfl
@[simp] theorem setCore_owed (i : Nat) (v : Core) : (s.setCore i v).owed = s.owed := rfl
@[simp] theorem setCore_exempt (i : Nat) (v : Core) : (s.setCore i v).exempt = s.exempt := rfl
@[simp] theorem setCore_queued (i : Nat) (v : Core) : (s.setCore i v).queued = s.queued := rfl
@[simp] theorem setCore_busQ (i : Nat) (v : Core) : (s.setCore i v).busQ = s.busQ := rfl
@[simp] theorem setCore_imsic (i : Nat) (v : Core) : (s.setCore i v).imsic = s.imsic := rfl
@[simp] theorem setCore_aplic (i : Nat) (v : Core) : (s.setCore i v).aplic = s.aplic := rfl
@[simp] theorem setCore_wiping (i : Nat) (v : Core) : (s.setCore i v).wiping = s.wiping := rfl
@[simp] theorem setCore_out (i : Nat) (v : Core) : (s.setCore i v).out = s.out := rfl
@[simp] theorem setCore_free (i : Nat) (v : Core) : (s.setCore i v).free = s.free := rfl

/-! ### setEdge -/

@[simp] theorem setEdge_pending (i : Nat) (v : EdgeDir) : (s.setEdge i v).pending = s.pending := rfl
@[simp] theorem setEdge_regs (i : Nat) (v : EdgeDir) : (s.setEdge i v).regs = s.regs := rfl
@[simp] theorem setEdge_mem (i : Nat) (v : EdgeDir) : (s.setEdge i v).mem = s.mem := rfl
@[simp] theorem setEdge_streams (i : Nat) (v : EdgeDir) : (s.setEdge i v).streams = s.streams := rfl
@[simp] theorem setEdge_waiters (i : Nat) (v : EdgeDir) : (s.setEdge i v).waiters = s.waiters := rfl
@[simp] theorem setEdge_bollards (i : Nat) (v : EdgeDir) : (s.setEdge i v).bollards = s.bollards := rfl
@[simp] theorem setEdge_pilots (i : Nat) (v : EdgeDir) : (s.setEdge i v).pilots = s.pilots := rfl
@[simp] theorem setEdge_engines (i : Nat) (v : EdgeDir) : (s.setEdge i v).engines = s.engines := rfl
@[simp] theorem setEdge_cores (i : Nat) (v : EdgeDir) : (s.setEdge i v).cores = s.cores := rfl
@[simp] theorem setEdge_net (i : Nat) (v : EdgeDir) : (s.setEdge i v).net = s.net := rfl
@[simp] theorem setEdge_resps (i : Nat) (v : EdgeDir) : (s.setEdge i v).resps = s.resps := rfl
@[simp] theorem setEdge_ferries (i : Nat) (v : EdgeDir) : (s.setEdge i v).ferries = s.ferries := rfl
@[simp] theorem setEdge_landings (i : Nat) (v : EdgeDir) : (s.setEdge i v).landings = s.landings := rfl
@[simp] theorem setEdge_moorings (i : Nat) (v : EdgeDir) : (s.setEdge i v).moorings = s.moorings := rfl
@[simp] theorem setEdge_stages (i : Nat) (v : EdgeDir) : (s.setEdge i v).stages = s.stages := rfl
@[simp] theorem setEdge_pontoons (i : Nat) (v : EdgeDir) : (s.setEdge i v).pontoons = s.pontoons := rfl
@[simp] theorem setEdge_vetoes (i : Nat) (v : EdgeDir) : (s.setEdge i v).vetoes = s.vetoes := rfl
@[simp] theorem setEdge_banks (i : Nat) (v : EdgeDir) : (s.setEdge i v).banks = s.banks := rfl
@[simp] theorem setEdge_scrubPos (i : Nat) (v : EdgeDir) : (s.setEdge i v).scrubPos = s.scrubPos := rfl
@[simp] theorem setEdge_hbms (i : Nat) (v : EdgeDir) : (s.setEdge i v).hbms = s.hbms := rfl
@[simp] theorem setEdge_spent (i : Nat) (v : EdgeDir) : (s.setEdge i v).spent = s.spent := rfl
@[simp] theorem setEdge_tolls (i : Nat) (v : EdgeDir) : (s.setEdge i v).tolls = s.tolls := rfl
@[simp] theorem setEdge_throttle (i : Nat) (v : EdgeDir) : (s.setEdge i v).throttle = s.throttle := rfl
@[simp] theorem setEdge_tide (i : Nat) (v : EdgeDir) : (s.setEdge i v).tide = s.tide := rfl
@[simp] theorem setEdge_gnorm (i : Nat) (v : EdgeDir) : (s.setEdge i v).gnorm = s.gnorm := rfl
@[simp] theorem setEdge_optHeld (i : Nat) (v : EdgeDir) : (s.setEdge i v).optHeld = s.optHeld := rfl
@[simp] theorem setEdge_ckpt (i : Nat) (v : EdgeDir) : (s.setEdge i v).ckpt = s.ckpt := rfl
@[simp] theorem setEdge_ports (i : Nat) (v : EdgeDir) : (s.setEdge i v).ports = s.ports := rfl
@[simp] theorem setEdge_census (i : Nat) (v : EdgeDir) : (s.setEdge i v).census = s.census := rfl
@[simp] theorem setEdge_cohwin (i : Nat) (v : EdgeDir) : (s.setEdge i v).cohwin = s.cohwin := rfl
@[simp] theorem setEdge_lines (i : Nat) (v : EdgeDir) : (s.setEdge i v).lines = s.lines := rfl
@[simp] theorem setEdge_slices (i : Nat) (v : EdgeDir) : (s.setEdge i v).slices = s.slices := rfl
@[simp] theorem setEdge_flushing (i : Nat) (v : EdgeDir) : (s.setEdge i v).flushing = s.flushing := rfl
@[simp] theorem setEdge_ctxs (i : Nat) (v : EdgeDir) : (s.setEdge i v).ctxs = s.ctxs := rfl
@[simp] theorem setEdge_reports (i : Nat) (v : EdgeDir) : (s.setEdge i v).reports = s.reports := rfl
@[simp] theorem setEdge_resets (i : Nat) (v : EdgeDir) : (s.setEdge i v).resets = s.resets := rfl
@[simp] theorem setEdge_hold (i : Nat) (v : EdgeDir) : (s.setEdge i v).hold = s.hold := rfl
@[simp] theorem setEdge_power (i : Nat) (v : EdgeDir) : (s.setEdge i v).power = s.power := rfl
@[simp] theorem setEdge_traces (i : Nat) (v : EdgeDir) : (s.setEdge i v).traces = s.traces := rfl
@[simp] theorem setEdge_log (i : Nat) (v : EdgeDir) : (s.setEdge i v).log = s.log := rfl
@[simp] theorem setEdge_fuses (i : Nat) (v : EdgeDir) : (s.setEdge i v).fuses = s.fuses := rfl
@[simp] theorem setEdge_flash (i : Nat) (v : EdgeDir) : (s.setEdge i v).flash = s.flash := rfl
@[simp] theorem setEdge_boot (i : Nat) (v : EdgeDir) : (s.setEdge i v).boot = s.boot := rfl
@[simp] theorem setEdge_pins (i : Nat) (v : EdgeDir) : (s.setEdge i v).pins = s.pins := rfl
@[simp] theorem setEdge_cells (i : Nat) (v : EdgeDir) : (s.setEdge i v).cells = s.cells := rfl
@[simp] theorem setEdge_margins (i : Nat) (v : EdgeDir) : (s.setEdge i v).margins = s.margins := rfl
@[simp] theorem setEdge_secHeld (i : Nat) (v : EdgeDir) : (s.setEdge i v).secHeld = s.secHeld := rfl
@[simp] theorem setEdge_owed (i : Nat) (v : EdgeDir) : (s.setEdge i v).owed = s.owed := rfl
@[simp] theorem setEdge_exempt (i : Nat) (v : EdgeDir) : (s.setEdge i v).exempt = s.exempt := rfl
@[simp] theorem setEdge_queued (i : Nat) (v : EdgeDir) : (s.setEdge i v).queued = s.queued := rfl
@[simp] theorem setEdge_busQ (i : Nat) (v : EdgeDir) : (s.setEdge i v).busQ = s.busQ := rfl
@[simp] theorem setEdge_imsic (i : Nat) (v : EdgeDir) : (s.setEdge i v).imsic = s.imsic := rfl
@[simp] theorem setEdge_aplic (i : Nat) (v : EdgeDir) : (s.setEdge i v).aplic = s.aplic := rfl
@[simp] theorem setEdge_wiping (i : Nat) (v : EdgeDir) : (s.setEdge i v).wiping = s.wiping := rfl
@[simp] theorem setEdge_out (i : Nat) (v : EdgeDir) : (s.setEdge i v).out = s.out := rfl
@[simp] theorem setEdge_free (i : Nat) (v : EdgeDir) : (s.setEdge i v).free = s.free := rfl

/-! ### setFerry -/

@[simp] theorem setFerry_pending (i : Nat) (v : Ferry) : (s.setFerry i v).pending = s.pending := rfl
@[simp] theorem setFerry_regs (i : Nat) (v : Ferry) : (s.setFerry i v).regs = s.regs := rfl
@[simp] theorem setFerry_mem (i : Nat) (v : Ferry) : (s.setFerry i v).mem = s.mem := rfl
@[simp] theorem setFerry_streams (i : Nat) (v : Ferry) : (s.setFerry i v).streams = s.streams := rfl
@[simp] theorem setFerry_waiters (i : Nat) (v : Ferry) : (s.setFerry i v).waiters = s.waiters := rfl
@[simp] theorem setFerry_bollards (i : Nat) (v : Ferry) : (s.setFerry i v).bollards = s.bollards := rfl
@[simp] theorem setFerry_pilots (i : Nat) (v : Ferry) : (s.setFerry i v).pilots = s.pilots := rfl
@[simp] theorem setFerry_engines (i : Nat) (v : Ferry) : (s.setFerry i v).engines = s.engines := rfl
@[simp] theorem setFerry_cores (i : Nat) (v : Ferry) : (s.setFerry i v).cores = s.cores := rfl
@[simp] theorem setFerry_edges (i : Nat) (v : Ferry) : (s.setFerry i v).edges = s.edges := rfl
@[simp] theorem setFerry_net (i : Nat) (v : Ferry) : (s.setFerry i v).net = s.net := rfl
@[simp] theorem setFerry_resps (i : Nat) (v : Ferry) : (s.setFerry i v).resps = s.resps := rfl
@[simp] theorem setFerry_landings (i : Nat) (v : Ferry) : (s.setFerry i v).landings = s.landings := rfl
@[simp] theorem setFerry_moorings (i : Nat) (v : Ferry) : (s.setFerry i v).moorings = s.moorings := rfl
@[simp] theorem setFerry_stages (i : Nat) (v : Ferry) : (s.setFerry i v).stages = s.stages := rfl
@[simp] theorem setFerry_pontoons (i : Nat) (v : Ferry) : (s.setFerry i v).pontoons = s.pontoons := rfl
@[simp] theorem setFerry_vetoes (i : Nat) (v : Ferry) : (s.setFerry i v).vetoes = s.vetoes := rfl
@[simp] theorem setFerry_banks (i : Nat) (v : Ferry) : (s.setFerry i v).banks = s.banks := rfl
@[simp] theorem setFerry_scrubPos (i : Nat) (v : Ferry) : (s.setFerry i v).scrubPos = s.scrubPos := rfl
@[simp] theorem setFerry_hbms (i : Nat) (v : Ferry) : (s.setFerry i v).hbms = s.hbms := rfl
@[simp] theorem setFerry_spent (i : Nat) (v : Ferry) : (s.setFerry i v).spent = s.spent := rfl
@[simp] theorem setFerry_tolls (i : Nat) (v : Ferry) : (s.setFerry i v).tolls = s.tolls := rfl
@[simp] theorem setFerry_throttle (i : Nat) (v : Ferry) : (s.setFerry i v).throttle = s.throttle := rfl
@[simp] theorem setFerry_tide (i : Nat) (v : Ferry) : (s.setFerry i v).tide = s.tide := rfl
@[simp] theorem setFerry_gnorm (i : Nat) (v : Ferry) : (s.setFerry i v).gnorm = s.gnorm := rfl
@[simp] theorem setFerry_optHeld (i : Nat) (v : Ferry) : (s.setFerry i v).optHeld = s.optHeld := rfl
@[simp] theorem setFerry_ckpt (i : Nat) (v : Ferry) : (s.setFerry i v).ckpt = s.ckpt := rfl
@[simp] theorem setFerry_ports (i : Nat) (v : Ferry) : (s.setFerry i v).ports = s.ports := rfl
@[simp] theorem setFerry_census (i : Nat) (v : Ferry) : (s.setFerry i v).census = s.census := rfl
@[simp] theorem setFerry_cohwin (i : Nat) (v : Ferry) : (s.setFerry i v).cohwin = s.cohwin := rfl
@[simp] theorem setFerry_lines (i : Nat) (v : Ferry) : (s.setFerry i v).lines = s.lines := rfl
@[simp] theorem setFerry_slices (i : Nat) (v : Ferry) : (s.setFerry i v).slices = s.slices := rfl
@[simp] theorem setFerry_flushing (i : Nat) (v : Ferry) : (s.setFerry i v).flushing = s.flushing := rfl
@[simp] theorem setFerry_ctxs (i : Nat) (v : Ferry) : (s.setFerry i v).ctxs = s.ctxs := rfl
@[simp] theorem setFerry_reports (i : Nat) (v : Ferry) : (s.setFerry i v).reports = s.reports := rfl
@[simp] theorem setFerry_resets (i : Nat) (v : Ferry) : (s.setFerry i v).resets = s.resets := rfl
@[simp] theorem setFerry_hold (i : Nat) (v : Ferry) : (s.setFerry i v).hold = s.hold := rfl
@[simp] theorem setFerry_power (i : Nat) (v : Ferry) : (s.setFerry i v).power = s.power := rfl
@[simp] theorem setFerry_traces (i : Nat) (v : Ferry) : (s.setFerry i v).traces = s.traces := rfl
@[simp] theorem setFerry_log (i : Nat) (v : Ferry) : (s.setFerry i v).log = s.log := rfl
@[simp] theorem setFerry_fuses (i : Nat) (v : Ferry) : (s.setFerry i v).fuses = s.fuses := rfl
@[simp] theorem setFerry_flash (i : Nat) (v : Ferry) : (s.setFerry i v).flash = s.flash := rfl
@[simp] theorem setFerry_boot (i : Nat) (v : Ferry) : (s.setFerry i v).boot = s.boot := rfl
@[simp] theorem setFerry_pins (i : Nat) (v : Ferry) : (s.setFerry i v).pins = s.pins := rfl
@[simp] theorem setFerry_cells (i : Nat) (v : Ferry) : (s.setFerry i v).cells = s.cells := rfl
@[simp] theorem setFerry_margins (i : Nat) (v : Ferry) : (s.setFerry i v).margins = s.margins := rfl
@[simp] theorem setFerry_secHeld (i : Nat) (v : Ferry) : (s.setFerry i v).secHeld = s.secHeld := rfl
@[simp] theorem setFerry_owed (i : Nat) (v : Ferry) : (s.setFerry i v).owed = s.owed := rfl
@[simp] theorem setFerry_exempt (i : Nat) (v : Ferry) : (s.setFerry i v).exempt = s.exempt := rfl
@[simp] theorem setFerry_queued (i : Nat) (v : Ferry) : (s.setFerry i v).queued = s.queued := rfl
@[simp] theorem setFerry_busQ (i : Nat) (v : Ferry) : (s.setFerry i v).busQ = s.busQ := rfl
@[simp] theorem setFerry_imsic (i : Nat) (v : Ferry) : (s.setFerry i v).imsic = s.imsic := rfl
@[simp] theorem setFerry_aplic (i : Nat) (v : Ferry) : (s.setFerry i v).aplic = s.aplic := rfl
@[simp] theorem setFerry_wiping (i : Nat) (v : Ferry) : (s.setFerry i v).wiping = s.wiping := rfl
@[simp] theorem setFerry_out (i : Nat) (v : Ferry) : (s.setFerry i v).out = s.out := rfl
@[simp] theorem setFerry_free (i : Nat) (v : Ferry) : (s.setFerry i v).free = s.free := rfl

/-! ### setLanding -/

@[simp] theorem setLanding_pending (i : Nat) (v : Landing) : (s.setLanding i v).pending = s.pending := rfl
@[simp] theorem setLanding_regs (i : Nat) (v : Landing) : (s.setLanding i v).regs = s.regs := rfl
@[simp] theorem setLanding_mem (i : Nat) (v : Landing) : (s.setLanding i v).mem = s.mem := rfl
@[simp] theorem setLanding_streams (i : Nat) (v : Landing) : (s.setLanding i v).streams = s.streams := rfl
@[simp] theorem setLanding_waiters (i : Nat) (v : Landing) : (s.setLanding i v).waiters = s.waiters := rfl
@[simp] theorem setLanding_bollards (i : Nat) (v : Landing) : (s.setLanding i v).bollards = s.bollards := rfl
@[simp] theorem setLanding_pilots (i : Nat) (v : Landing) : (s.setLanding i v).pilots = s.pilots := rfl
@[simp] theorem setLanding_engines (i : Nat) (v : Landing) : (s.setLanding i v).engines = s.engines := rfl
@[simp] theorem setLanding_cores (i : Nat) (v : Landing) : (s.setLanding i v).cores = s.cores := rfl
@[simp] theorem setLanding_edges (i : Nat) (v : Landing) : (s.setLanding i v).edges = s.edges := rfl
@[simp] theorem setLanding_net (i : Nat) (v : Landing) : (s.setLanding i v).net = s.net := rfl
@[simp] theorem setLanding_resps (i : Nat) (v : Landing) : (s.setLanding i v).resps = s.resps := rfl
@[simp] theorem setLanding_ferries (i : Nat) (v : Landing) : (s.setLanding i v).ferries = s.ferries := rfl
@[simp] theorem setLanding_moorings (i : Nat) (v : Landing) : (s.setLanding i v).moorings = s.moorings := rfl
@[simp] theorem setLanding_stages (i : Nat) (v : Landing) : (s.setLanding i v).stages = s.stages := rfl
@[simp] theorem setLanding_pontoons (i : Nat) (v : Landing) : (s.setLanding i v).pontoons = s.pontoons := rfl
@[simp] theorem setLanding_vetoes (i : Nat) (v : Landing) : (s.setLanding i v).vetoes = s.vetoes := rfl
@[simp] theorem setLanding_banks (i : Nat) (v : Landing) : (s.setLanding i v).banks = s.banks := rfl
@[simp] theorem setLanding_scrubPos (i : Nat) (v : Landing) : (s.setLanding i v).scrubPos = s.scrubPos := rfl
@[simp] theorem setLanding_hbms (i : Nat) (v : Landing) : (s.setLanding i v).hbms = s.hbms := rfl
@[simp] theorem setLanding_spent (i : Nat) (v : Landing) : (s.setLanding i v).spent = s.spent := rfl
@[simp] theorem setLanding_tolls (i : Nat) (v : Landing) : (s.setLanding i v).tolls = s.tolls := rfl
@[simp] theorem setLanding_throttle (i : Nat) (v : Landing) : (s.setLanding i v).throttle = s.throttle := rfl
@[simp] theorem setLanding_tide (i : Nat) (v : Landing) : (s.setLanding i v).tide = s.tide := rfl
@[simp] theorem setLanding_gnorm (i : Nat) (v : Landing) : (s.setLanding i v).gnorm = s.gnorm := rfl
@[simp] theorem setLanding_optHeld (i : Nat) (v : Landing) : (s.setLanding i v).optHeld = s.optHeld := rfl
@[simp] theorem setLanding_ckpt (i : Nat) (v : Landing) : (s.setLanding i v).ckpt = s.ckpt := rfl
@[simp] theorem setLanding_ports (i : Nat) (v : Landing) : (s.setLanding i v).ports = s.ports := rfl
@[simp] theorem setLanding_census (i : Nat) (v : Landing) : (s.setLanding i v).census = s.census := rfl
@[simp] theorem setLanding_cohwin (i : Nat) (v : Landing) : (s.setLanding i v).cohwin = s.cohwin := rfl
@[simp] theorem setLanding_lines (i : Nat) (v : Landing) : (s.setLanding i v).lines = s.lines := rfl
@[simp] theorem setLanding_slices (i : Nat) (v : Landing) : (s.setLanding i v).slices = s.slices := rfl
@[simp] theorem setLanding_flushing (i : Nat) (v : Landing) : (s.setLanding i v).flushing = s.flushing := rfl
@[simp] theorem setLanding_ctxs (i : Nat) (v : Landing) : (s.setLanding i v).ctxs = s.ctxs := rfl
@[simp] theorem setLanding_reports (i : Nat) (v : Landing) : (s.setLanding i v).reports = s.reports := rfl
@[simp] theorem setLanding_resets (i : Nat) (v : Landing) : (s.setLanding i v).resets = s.resets := rfl
@[simp] theorem setLanding_hold (i : Nat) (v : Landing) : (s.setLanding i v).hold = s.hold := rfl
@[simp] theorem setLanding_power (i : Nat) (v : Landing) : (s.setLanding i v).power = s.power := rfl
@[simp] theorem setLanding_traces (i : Nat) (v : Landing) : (s.setLanding i v).traces = s.traces := rfl
@[simp] theorem setLanding_log (i : Nat) (v : Landing) : (s.setLanding i v).log = s.log := rfl
@[simp] theorem setLanding_fuses (i : Nat) (v : Landing) : (s.setLanding i v).fuses = s.fuses := rfl
@[simp] theorem setLanding_flash (i : Nat) (v : Landing) : (s.setLanding i v).flash = s.flash := rfl
@[simp] theorem setLanding_boot (i : Nat) (v : Landing) : (s.setLanding i v).boot = s.boot := rfl
@[simp] theorem setLanding_pins (i : Nat) (v : Landing) : (s.setLanding i v).pins = s.pins := rfl
@[simp] theorem setLanding_cells (i : Nat) (v : Landing) : (s.setLanding i v).cells = s.cells := rfl
@[simp] theorem setLanding_margins (i : Nat) (v : Landing) : (s.setLanding i v).margins = s.margins := rfl
@[simp] theorem setLanding_secHeld (i : Nat) (v : Landing) : (s.setLanding i v).secHeld = s.secHeld := rfl
@[simp] theorem setLanding_owed (i : Nat) (v : Landing) : (s.setLanding i v).owed = s.owed := rfl
@[simp] theorem setLanding_exempt (i : Nat) (v : Landing) : (s.setLanding i v).exempt = s.exempt := rfl
@[simp] theorem setLanding_queued (i : Nat) (v : Landing) : (s.setLanding i v).queued = s.queued := rfl
@[simp] theorem setLanding_busQ (i : Nat) (v : Landing) : (s.setLanding i v).busQ = s.busQ := rfl
@[simp] theorem setLanding_imsic (i : Nat) (v : Landing) : (s.setLanding i v).imsic = s.imsic := rfl
@[simp] theorem setLanding_aplic (i : Nat) (v : Landing) : (s.setLanding i v).aplic = s.aplic := rfl
@[simp] theorem setLanding_wiping (i : Nat) (v : Landing) : (s.setLanding i v).wiping = s.wiping := rfl
@[simp] theorem setLanding_out (i : Nat) (v : Landing) : (s.setLanding i v).out = s.out := rfl
@[simp] theorem setLanding_free (i : Nat) (v : Landing) : (s.setLanding i v).free = s.free := rfl

/-! ### setMooring -/

@[simp] theorem setMooring_pending (i : Nat) (v : Mooring) : (s.setMooring i v).pending = s.pending := rfl
@[simp] theorem setMooring_regs (i : Nat) (v : Mooring) : (s.setMooring i v).regs = s.regs := rfl
@[simp] theorem setMooring_mem (i : Nat) (v : Mooring) : (s.setMooring i v).mem = s.mem := rfl
@[simp] theorem setMooring_streams (i : Nat) (v : Mooring) : (s.setMooring i v).streams = s.streams := rfl
@[simp] theorem setMooring_waiters (i : Nat) (v : Mooring) : (s.setMooring i v).waiters = s.waiters := rfl
@[simp] theorem setMooring_bollards (i : Nat) (v : Mooring) : (s.setMooring i v).bollards = s.bollards := rfl
@[simp] theorem setMooring_pilots (i : Nat) (v : Mooring) : (s.setMooring i v).pilots = s.pilots := rfl
@[simp] theorem setMooring_engines (i : Nat) (v : Mooring) : (s.setMooring i v).engines = s.engines := rfl
@[simp] theorem setMooring_cores (i : Nat) (v : Mooring) : (s.setMooring i v).cores = s.cores := rfl
@[simp] theorem setMooring_edges (i : Nat) (v : Mooring) : (s.setMooring i v).edges = s.edges := rfl
@[simp] theorem setMooring_net (i : Nat) (v : Mooring) : (s.setMooring i v).net = s.net := rfl
@[simp] theorem setMooring_resps (i : Nat) (v : Mooring) : (s.setMooring i v).resps = s.resps := rfl
@[simp] theorem setMooring_ferries (i : Nat) (v : Mooring) : (s.setMooring i v).ferries = s.ferries := rfl
@[simp] theorem setMooring_landings (i : Nat) (v : Mooring) : (s.setMooring i v).landings = s.landings := rfl
@[simp] theorem setMooring_stages (i : Nat) (v : Mooring) : (s.setMooring i v).stages = s.stages := rfl
@[simp] theorem setMooring_pontoons (i : Nat) (v : Mooring) : (s.setMooring i v).pontoons = s.pontoons := rfl
@[simp] theorem setMooring_vetoes (i : Nat) (v : Mooring) : (s.setMooring i v).vetoes = s.vetoes := rfl
@[simp] theorem setMooring_banks (i : Nat) (v : Mooring) : (s.setMooring i v).banks = s.banks := rfl
@[simp] theorem setMooring_scrubPos (i : Nat) (v : Mooring) : (s.setMooring i v).scrubPos = s.scrubPos := rfl
@[simp] theorem setMooring_hbms (i : Nat) (v : Mooring) : (s.setMooring i v).hbms = s.hbms := rfl
@[simp] theorem setMooring_spent (i : Nat) (v : Mooring) : (s.setMooring i v).spent = s.spent := rfl
@[simp] theorem setMooring_tolls (i : Nat) (v : Mooring) : (s.setMooring i v).tolls = s.tolls := rfl
@[simp] theorem setMooring_throttle (i : Nat) (v : Mooring) : (s.setMooring i v).throttle = s.throttle := rfl
@[simp] theorem setMooring_tide (i : Nat) (v : Mooring) : (s.setMooring i v).tide = s.tide := rfl
@[simp] theorem setMooring_gnorm (i : Nat) (v : Mooring) : (s.setMooring i v).gnorm = s.gnorm := rfl
@[simp] theorem setMooring_optHeld (i : Nat) (v : Mooring) : (s.setMooring i v).optHeld = s.optHeld := rfl
@[simp] theorem setMooring_ckpt (i : Nat) (v : Mooring) : (s.setMooring i v).ckpt = s.ckpt := rfl
@[simp] theorem setMooring_ports (i : Nat) (v : Mooring) : (s.setMooring i v).ports = s.ports := rfl
@[simp] theorem setMooring_census (i : Nat) (v : Mooring) : (s.setMooring i v).census = s.census := rfl
@[simp] theorem setMooring_cohwin (i : Nat) (v : Mooring) : (s.setMooring i v).cohwin = s.cohwin := rfl
@[simp] theorem setMooring_lines (i : Nat) (v : Mooring) : (s.setMooring i v).lines = s.lines := rfl
@[simp] theorem setMooring_slices (i : Nat) (v : Mooring) : (s.setMooring i v).slices = s.slices := rfl
@[simp] theorem setMooring_flushing (i : Nat) (v : Mooring) : (s.setMooring i v).flushing = s.flushing := rfl
@[simp] theorem setMooring_ctxs (i : Nat) (v : Mooring) : (s.setMooring i v).ctxs = s.ctxs := rfl
@[simp] theorem setMooring_reports (i : Nat) (v : Mooring) : (s.setMooring i v).reports = s.reports := rfl
@[simp] theorem setMooring_resets (i : Nat) (v : Mooring) : (s.setMooring i v).resets = s.resets := rfl
@[simp] theorem setMooring_hold (i : Nat) (v : Mooring) : (s.setMooring i v).hold = s.hold := rfl
@[simp] theorem setMooring_power (i : Nat) (v : Mooring) : (s.setMooring i v).power = s.power := rfl
@[simp] theorem setMooring_traces (i : Nat) (v : Mooring) : (s.setMooring i v).traces = s.traces := rfl
@[simp] theorem setMooring_log (i : Nat) (v : Mooring) : (s.setMooring i v).log = s.log := rfl
@[simp] theorem setMooring_fuses (i : Nat) (v : Mooring) : (s.setMooring i v).fuses = s.fuses := rfl
@[simp] theorem setMooring_flash (i : Nat) (v : Mooring) : (s.setMooring i v).flash = s.flash := rfl
@[simp] theorem setMooring_boot (i : Nat) (v : Mooring) : (s.setMooring i v).boot = s.boot := rfl
@[simp] theorem setMooring_pins (i : Nat) (v : Mooring) : (s.setMooring i v).pins = s.pins := rfl
@[simp] theorem setMooring_cells (i : Nat) (v : Mooring) : (s.setMooring i v).cells = s.cells := rfl
@[simp] theorem setMooring_margins (i : Nat) (v : Mooring) : (s.setMooring i v).margins = s.margins := rfl
@[simp] theorem setMooring_secHeld (i : Nat) (v : Mooring) : (s.setMooring i v).secHeld = s.secHeld := rfl
@[simp] theorem setMooring_owed (i : Nat) (v : Mooring) : (s.setMooring i v).owed = s.owed := rfl
@[simp] theorem setMooring_exempt (i : Nat) (v : Mooring) : (s.setMooring i v).exempt = s.exempt := rfl
@[simp] theorem setMooring_queued (i : Nat) (v : Mooring) : (s.setMooring i v).queued = s.queued := rfl
@[simp] theorem setMooring_busQ (i : Nat) (v : Mooring) : (s.setMooring i v).busQ = s.busQ := rfl
@[simp] theorem setMooring_imsic (i : Nat) (v : Mooring) : (s.setMooring i v).imsic = s.imsic := rfl
@[simp] theorem setMooring_aplic (i : Nat) (v : Mooring) : (s.setMooring i v).aplic = s.aplic := rfl
@[simp] theorem setMooring_wiping (i : Nat) (v : Mooring) : (s.setMooring i v).wiping = s.wiping := rfl
@[simp] theorem setMooring_out (i : Nat) (v : Mooring) : (s.setMooring i v).out = s.out := rfl
@[simp] theorem setMooring_free (i : Nat) (v : Mooring) : (s.setMooring i v).free = s.free := rfl

/-! ### setStage -/

@[simp] theorem setStage_pending (i : Nat) (v : Stage) : (s.setStage i v).pending = s.pending := rfl
@[simp] theorem setStage_regs (i : Nat) (v : Stage) : (s.setStage i v).regs = s.regs := rfl
@[simp] theorem setStage_mem (i : Nat) (v : Stage) : (s.setStage i v).mem = s.mem := rfl
@[simp] theorem setStage_streams (i : Nat) (v : Stage) : (s.setStage i v).streams = s.streams := rfl
@[simp] theorem setStage_waiters (i : Nat) (v : Stage) : (s.setStage i v).waiters = s.waiters := rfl
@[simp] theorem setStage_bollards (i : Nat) (v : Stage) : (s.setStage i v).bollards = s.bollards := rfl
@[simp] theorem setStage_pilots (i : Nat) (v : Stage) : (s.setStage i v).pilots = s.pilots := rfl
@[simp] theorem setStage_engines (i : Nat) (v : Stage) : (s.setStage i v).engines = s.engines := rfl
@[simp] theorem setStage_cores (i : Nat) (v : Stage) : (s.setStage i v).cores = s.cores := rfl
@[simp] theorem setStage_edges (i : Nat) (v : Stage) : (s.setStage i v).edges = s.edges := rfl
@[simp] theorem setStage_net (i : Nat) (v : Stage) : (s.setStage i v).net = s.net := rfl
@[simp] theorem setStage_resps (i : Nat) (v : Stage) : (s.setStage i v).resps = s.resps := rfl
@[simp] theorem setStage_ferries (i : Nat) (v : Stage) : (s.setStage i v).ferries = s.ferries := rfl
@[simp] theorem setStage_landings (i : Nat) (v : Stage) : (s.setStage i v).landings = s.landings := rfl
@[simp] theorem setStage_moorings (i : Nat) (v : Stage) : (s.setStage i v).moorings = s.moorings := rfl
@[simp] theorem setStage_pontoons (i : Nat) (v : Stage) : (s.setStage i v).pontoons = s.pontoons := rfl
@[simp] theorem setStage_vetoes (i : Nat) (v : Stage) : (s.setStage i v).vetoes = s.vetoes := rfl
@[simp] theorem setStage_banks (i : Nat) (v : Stage) : (s.setStage i v).banks = s.banks := rfl
@[simp] theorem setStage_scrubPos (i : Nat) (v : Stage) : (s.setStage i v).scrubPos = s.scrubPos := rfl
@[simp] theorem setStage_hbms (i : Nat) (v : Stage) : (s.setStage i v).hbms = s.hbms := rfl
@[simp] theorem setStage_spent (i : Nat) (v : Stage) : (s.setStage i v).spent = s.spent := rfl
@[simp] theorem setStage_tolls (i : Nat) (v : Stage) : (s.setStage i v).tolls = s.tolls := rfl
@[simp] theorem setStage_throttle (i : Nat) (v : Stage) : (s.setStage i v).throttle = s.throttle := rfl
@[simp] theorem setStage_tide (i : Nat) (v : Stage) : (s.setStage i v).tide = s.tide := rfl
@[simp] theorem setStage_gnorm (i : Nat) (v : Stage) : (s.setStage i v).gnorm = s.gnorm := rfl
@[simp] theorem setStage_optHeld (i : Nat) (v : Stage) : (s.setStage i v).optHeld = s.optHeld := rfl
@[simp] theorem setStage_ckpt (i : Nat) (v : Stage) : (s.setStage i v).ckpt = s.ckpt := rfl
@[simp] theorem setStage_ports (i : Nat) (v : Stage) : (s.setStage i v).ports = s.ports := rfl
@[simp] theorem setStage_census (i : Nat) (v : Stage) : (s.setStage i v).census = s.census := rfl
@[simp] theorem setStage_cohwin (i : Nat) (v : Stage) : (s.setStage i v).cohwin = s.cohwin := rfl
@[simp] theorem setStage_lines (i : Nat) (v : Stage) : (s.setStage i v).lines = s.lines := rfl
@[simp] theorem setStage_slices (i : Nat) (v : Stage) : (s.setStage i v).slices = s.slices := rfl
@[simp] theorem setStage_flushing (i : Nat) (v : Stage) : (s.setStage i v).flushing = s.flushing := rfl
@[simp] theorem setStage_ctxs (i : Nat) (v : Stage) : (s.setStage i v).ctxs = s.ctxs := rfl
@[simp] theorem setStage_reports (i : Nat) (v : Stage) : (s.setStage i v).reports = s.reports := rfl
@[simp] theorem setStage_resets (i : Nat) (v : Stage) : (s.setStage i v).resets = s.resets := rfl
@[simp] theorem setStage_hold (i : Nat) (v : Stage) : (s.setStage i v).hold = s.hold := rfl
@[simp] theorem setStage_power (i : Nat) (v : Stage) : (s.setStage i v).power = s.power := rfl
@[simp] theorem setStage_traces (i : Nat) (v : Stage) : (s.setStage i v).traces = s.traces := rfl
@[simp] theorem setStage_log (i : Nat) (v : Stage) : (s.setStage i v).log = s.log := rfl
@[simp] theorem setStage_fuses (i : Nat) (v : Stage) : (s.setStage i v).fuses = s.fuses := rfl
@[simp] theorem setStage_flash (i : Nat) (v : Stage) : (s.setStage i v).flash = s.flash := rfl
@[simp] theorem setStage_boot (i : Nat) (v : Stage) : (s.setStage i v).boot = s.boot := rfl
@[simp] theorem setStage_pins (i : Nat) (v : Stage) : (s.setStage i v).pins = s.pins := rfl
@[simp] theorem setStage_cells (i : Nat) (v : Stage) : (s.setStage i v).cells = s.cells := rfl
@[simp] theorem setStage_margins (i : Nat) (v : Stage) : (s.setStage i v).margins = s.margins := rfl
@[simp] theorem setStage_secHeld (i : Nat) (v : Stage) : (s.setStage i v).secHeld = s.secHeld := rfl
@[simp] theorem setStage_owed (i : Nat) (v : Stage) : (s.setStage i v).owed = s.owed := rfl
@[simp] theorem setStage_exempt (i : Nat) (v : Stage) : (s.setStage i v).exempt = s.exempt := rfl
@[simp] theorem setStage_queued (i : Nat) (v : Stage) : (s.setStage i v).queued = s.queued := rfl
@[simp] theorem setStage_busQ (i : Nat) (v : Stage) : (s.setStage i v).busQ = s.busQ := rfl
@[simp] theorem setStage_imsic (i : Nat) (v : Stage) : (s.setStage i v).imsic = s.imsic := rfl
@[simp] theorem setStage_aplic (i : Nat) (v : Stage) : (s.setStage i v).aplic = s.aplic := rfl
@[simp] theorem setStage_wiping (i : Nat) (v : Stage) : (s.setStage i v).wiping = s.wiping := rfl
@[simp] theorem setStage_out (i : Nat) (v : Stage) : (s.setStage i v).out = s.out := rfl
@[simp] theorem setStage_free (i : Nat) (v : Stage) : (s.setStage i v).free = s.free := rfl

/-! ### setPontoon -/

@[simp] theorem setPontoon_pending (i : Nat) (v : Pontoon) : (s.setPontoon i v).pending = s.pending := rfl
@[simp] theorem setPontoon_regs (i : Nat) (v : Pontoon) : (s.setPontoon i v).regs = s.regs := rfl
@[simp] theorem setPontoon_mem (i : Nat) (v : Pontoon) : (s.setPontoon i v).mem = s.mem := rfl
@[simp] theorem setPontoon_streams (i : Nat) (v : Pontoon) : (s.setPontoon i v).streams = s.streams := rfl
@[simp] theorem setPontoon_waiters (i : Nat) (v : Pontoon) : (s.setPontoon i v).waiters = s.waiters := rfl
@[simp] theorem setPontoon_bollards (i : Nat) (v : Pontoon) : (s.setPontoon i v).bollards = s.bollards := rfl
@[simp] theorem setPontoon_pilots (i : Nat) (v : Pontoon) : (s.setPontoon i v).pilots = s.pilots := rfl
@[simp] theorem setPontoon_engines (i : Nat) (v : Pontoon) : (s.setPontoon i v).engines = s.engines := rfl
@[simp] theorem setPontoon_cores (i : Nat) (v : Pontoon) : (s.setPontoon i v).cores = s.cores := rfl
@[simp] theorem setPontoon_edges (i : Nat) (v : Pontoon) : (s.setPontoon i v).edges = s.edges := rfl
@[simp] theorem setPontoon_net (i : Nat) (v : Pontoon) : (s.setPontoon i v).net = s.net := rfl
@[simp] theorem setPontoon_resps (i : Nat) (v : Pontoon) : (s.setPontoon i v).resps = s.resps := rfl
@[simp] theorem setPontoon_ferries (i : Nat) (v : Pontoon) : (s.setPontoon i v).ferries = s.ferries := rfl
@[simp] theorem setPontoon_landings (i : Nat) (v : Pontoon) : (s.setPontoon i v).landings = s.landings := rfl
@[simp] theorem setPontoon_moorings (i : Nat) (v : Pontoon) : (s.setPontoon i v).moorings = s.moorings := rfl
@[simp] theorem setPontoon_stages (i : Nat) (v : Pontoon) : (s.setPontoon i v).stages = s.stages := rfl
@[simp] theorem setPontoon_vetoes (i : Nat) (v : Pontoon) : (s.setPontoon i v).vetoes = s.vetoes := rfl
@[simp] theorem setPontoon_banks (i : Nat) (v : Pontoon) : (s.setPontoon i v).banks = s.banks := rfl
@[simp] theorem setPontoon_scrubPos (i : Nat) (v : Pontoon) : (s.setPontoon i v).scrubPos = s.scrubPos := rfl
@[simp] theorem setPontoon_hbms (i : Nat) (v : Pontoon) : (s.setPontoon i v).hbms = s.hbms := rfl
@[simp] theorem setPontoon_spent (i : Nat) (v : Pontoon) : (s.setPontoon i v).spent = s.spent := rfl
@[simp] theorem setPontoon_tolls (i : Nat) (v : Pontoon) : (s.setPontoon i v).tolls = s.tolls := rfl
@[simp] theorem setPontoon_throttle (i : Nat) (v : Pontoon) : (s.setPontoon i v).throttle = s.throttle := rfl
@[simp] theorem setPontoon_tide (i : Nat) (v : Pontoon) : (s.setPontoon i v).tide = s.tide := rfl
@[simp] theorem setPontoon_gnorm (i : Nat) (v : Pontoon) : (s.setPontoon i v).gnorm = s.gnorm := rfl
@[simp] theorem setPontoon_optHeld (i : Nat) (v : Pontoon) : (s.setPontoon i v).optHeld = s.optHeld := rfl
@[simp] theorem setPontoon_ckpt (i : Nat) (v : Pontoon) : (s.setPontoon i v).ckpt = s.ckpt := rfl
@[simp] theorem setPontoon_ports (i : Nat) (v : Pontoon) : (s.setPontoon i v).ports = s.ports := rfl
@[simp] theorem setPontoon_census (i : Nat) (v : Pontoon) : (s.setPontoon i v).census = s.census := rfl
@[simp] theorem setPontoon_cohwin (i : Nat) (v : Pontoon) : (s.setPontoon i v).cohwin = s.cohwin := rfl
@[simp] theorem setPontoon_lines (i : Nat) (v : Pontoon) : (s.setPontoon i v).lines = s.lines := rfl
@[simp] theorem setPontoon_slices (i : Nat) (v : Pontoon) : (s.setPontoon i v).slices = s.slices := rfl
@[simp] theorem setPontoon_flushing (i : Nat) (v : Pontoon) : (s.setPontoon i v).flushing = s.flushing := rfl
@[simp] theorem setPontoon_ctxs (i : Nat) (v : Pontoon) : (s.setPontoon i v).ctxs = s.ctxs := rfl
@[simp] theorem setPontoon_reports (i : Nat) (v : Pontoon) : (s.setPontoon i v).reports = s.reports := rfl
@[simp] theorem setPontoon_resets (i : Nat) (v : Pontoon) : (s.setPontoon i v).resets = s.resets := rfl
@[simp] theorem setPontoon_hold (i : Nat) (v : Pontoon) : (s.setPontoon i v).hold = s.hold := rfl
@[simp] theorem setPontoon_power (i : Nat) (v : Pontoon) : (s.setPontoon i v).power = s.power := rfl
@[simp] theorem setPontoon_traces (i : Nat) (v : Pontoon) : (s.setPontoon i v).traces = s.traces := rfl
@[simp] theorem setPontoon_log (i : Nat) (v : Pontoon) : (s.setPontoon i v).log = s.log := rfl
@[simp] theorem setPontoon_fuses (i : Nat) (v : Pontoon) : (s.setPontoon i v).fuses = s.fuses := rfl
@[simp] theorem setPontoon_flash (i : Nat) (v : Pontoon) : (s.setPontoon i v).flash = s.flash := rfl
@[simp] theorem setPontoon_boot (i : Nat) (v : Pontoon) : (s.setPontoon i v).boot = s.boot := rfl
@[simp] theorem setPontoon_pins (i : Nat) (v : Pontoon) : (s.setPontoon i v).pins = s.pins := rfl
@[simp] theorem setPontoon_cells (i : Nat) (v : Pontoon) : (s.setPontoon i v).cells = s.cells := rfl
@[simp] theorem setPontoon_margins (i : Nat) (v : Pontoon) : (s.setPontoon i v).margins = s.margins := rfl
@[simp] theorem setPontoon_secHeld (i : Nat) (v : Pontoon) : (s.setPontoon i v).secHeld = s.secHeld := rfl
@[simp] theorem setPontoon_owed (i : Nat) (v : Pontoon) : (s.setPontoon i v).owed = s.owed := rfl
@[simp] theorem setPontoon_exempt (i : Nat) (v : Pontoon) : (s.setPontoon i v).exempt = s.exempt := rfl
@[simp] theorem setPontoon_queued (i : Nat) (v : Pontoon) : (s.setPontoon i v).queued = s.queued := rfl
@[simp] theorem setPontoon_busQ (i : Nat) (v : Pontoon) : (s.setPontoon i v).busQ = s.busQ := rfl
@[simp] theorem setPontoon_imsic (i : Nat) (v : Pontoon) : (s.setPontoon i v).imsic = s.imsic := rfl
@[simp] theorem setPontoon_aplic (i : Nat) (v : Pontoon) : (s.setPontoon i v).aplic = s.aplic := rfl
@[simp] theorem setPontoon_wiping (i : Nat) (v : Pontoon) : (s.setPontoon i v).wiping = s.wiping := rfl
@[simp] theorem setPontoon_out (i : Nat) (v : Pontoon) : (s.setPontoon i v).out = s.out := rfl
@[simp] theorem setPontoon_free (i : Nat) (v : Pontoon) : (s.setPontoon i v).free = s.free := rfl

/-! ### setVeto -/

@[simp] theorem setVeto_pending (i : Nat) (v : Veto) : (s.setVeto i v).pending = s.pending := rfl
@[simp] theorem setVeto_regs (i : Nat) (v : Veto) : (s.setVeto i v).regs = s.regs := rfl
@[simp] theorem setVeto_mem (i : Nat) (v : Veto) : (s.setVeto i v).mem = s.mem := rfl
@[simp] theorem setVeto_streams (i : Nat) (v : Veto) : (s.setVeto i v).streams = s.streams := rfl
@[simp] theorem setVeto_waiters (i : Nat) (v : Veto) : (s.setVeto i v).waiters = s.waiters := rfl
@[simp] theorem setVeto_bollards (i : Nat) (v : Veto) : (s.setVeto i v).bollards = s.bollards := rfl
@[simp] theorem setVeto_pilots (i : Nat) (v : Veto) : (s.setVeto i v).pilots = s.pilots := rfl
@[simp] theorem setVeto_engines (i : Nat) (v : Veto) : (s.setVeto i v).engines = s.engines := rfl
@[simp] theorem setVeto_cores (i : Nat) (v : Veto) : (s.setVeto i v).cores = s.cores := rfl
@[simp] theorem setVeto_edges (i : Nat) (v : Veto) : (s.setVeto i v).edges = s.edges := rfl
@[simp] theorem setVeto_net (i : Nat) (v : Veto) : (s.setVeto i v).net = s.net := rfl
@[simp] theorem setVeto_resps (i : Nat) (v : Veto) : (s.setVeto i v).resps = s.resps := rfl
@[simp] theorem setVeto_ferries (i : Nat) (v : Veto) : (s.setVeto i v).ferries = s.ferries := rfl
@[simp] theorem setVeto_landings (i : Nat) (v : Veto) : (s.setVeto i v).landings = s.landings := rfl
@[simp] theorem setVeto_moorings (i : Nat) (v : Veto) : (s.setVeto i v).moorings = s.moorings := rfl
@[simp] theorem setVeto_stages (i : Nat) (v : Veto) : (s.setVeto i v).stages = s.stages := rfl
@[simp] theorem setVeto_pontoons (i : Nat) (v : Veto) : (s.setVeto i v).pontoons = s.pontoons := rfl
@[simp] theorem setVeto_banks (i : Nat) (v : Veto) : (s.setVeto i v).banks = s.banks := rfl
@[simp] theorem setVeto_scrubPos (i : Nat) (v : Veto) : (s.setVeto i v).scrubPos = s.scrubPos := rfl
@[simp] theorem setVeto_hbms (i : Nat) (v : Veto) : (s.setVeto i v).hbms = s.hbms := rfl
@[simp] theorem setVeto_spent (i : Nat) (v : Veto) : (s.setVeto i v).spent = s.spent := rfl
@[simp] theorem setVeto_tolls (i : Nat) (v : Veto) : (s.setVeto i v).tolls = s.tolls := rfl
@[simp] theorem setVeto_throttle (i : Nat) (v : Veto) : (s.setVeto i v).throttle = s.throttle := rfl
@[simp] theorem setVeto_tide (i : Nat) (v : Veto) : (s.setVeto i v).tide = s.tide := rfl
@[simp] theorem setVeto_gnorm (i : Nat) (v : Veto) : (s.setVeto i v).gnorm = s.gnorm := rfl
@[simp] theorem setVeto_optHeld (i : Nat) (v : Veto) : (s.setVeto i v).optHeld = s.optHeld := rfl
@[simp] theorem setVeto_ckpt (i : Nat) (v : Veto) : (s.setVeto i v).ckpt = s.ckpt := rfl
@[simp] theorem setVeto_ports (i : Nat) (v : Veto) : (s.setVeto i v).ports = s.ports := rfl
@[simp] theorem setVeto_census (i : Nat) (v : Veto) : (s.setVeto i v).census = s.census := rfl
@[simp] theorem setVeto_cohwin (i : Nat) (v : Veto) : (s.setVeto i v).cohwin = s.cohwin := rfl
@[simp] theorem setVeto_lines (i : Nat) (v : Veto) : (s.setVeto i v).lines = s.lines := rfl
@[simp] theorem setVeto_slices (i : Nat) (v : Veto) : (s.setVeto i v).slices = s.slices := rfl
@[simp] theorem setVeto_flushing (i : Nat) (v : Veto) : (s.setVeto i v).flushing = s.flushing := rfl
@[simp] theorem setVeto_ctxs (i : Nat) (v : Veto) : (s.setVeto i v).ctxs = s.ctxs := rfl
@[simp] theorem setVeto_reports (i : Nat) (v : Veto) : (s.setVeto i v).reports = s.reports := rfl
@[simp] theorem setVeto_resets (i : Nat) (v : Veto) : (s.setVeto i v).resets = s.resets := rfl
@[simp] theorem setVeto_hold (i : Nat) (v : Veto) : (s.setVeto i v).hold = s.hold := rfl
@[simp] theorem setVeto_power (i : Nat) (v : Veto) : (s.setVeto i v).power = s.power := rfl
@[simp] theorem setVeto_traces (i : Nat) (v : Veto) : (s.setVeto i v).traces = s.traces := rfl
@[simp] theorem setVeto_log (i : Nat) (v : Veto) : (s.setVeto i v).log = s.log := rfl
@[simp] theorem setVeto_fuses (i : Nat) (v : Veto) : (s.setVeto i v).fuses = s.fuses := rfl
@[simp] theorem setVeto_flash (i : Nat) (v : Veto) : (s.setVeto i v).flash = s.flash := rfl
@[simp] theorem setVeto_boot (i : Nat) (v : Veto) : (s.setVeto i v).boot = s.boot := rfl
@[simp] theorem setVeto_pins (i : Nat) (v : Veto) : (s.setVeto i v).pins = s.pins := rfl
@[simp] theorem setVeto_cells (i : Nat) (v : Veto) : (s.setVeto i v).cells = s.cells := rfl
@[simp] theorem setVeto_margins (i : Nat) (v : Veto) : (s.setVeto i v).margins = s.margins := rfl
@[simp] theorem setVeto_secHeld (i : Nat) (v : Veto) : (s.setVeto i v).secHeld = s.secHeld := rfl
@[simp] theorem setVeto_owed (i : Nat) (v : Veto) : (s.setVeto i v).owed = s.owed := rfl
@[simp] theorem setVeto_exempt (i : Nat) (v : Veto) : (s.setVeto i v).exempt = s.exempt := rfl
@[simp] theorem setVeto_queued (i : Nat) (v : Veto) : (s.setVeto i v).queued = s.queued := rfl
@[simp] theorem setVeto_busQ (i : Nat) (v : Veto) : (s.setVeto i v).busQ = s.busQ := rfl
@[simp] theorem setVeto_imsic (i : Nat) (v : Veto) : (s.setVeto i v).imsic = s.imsic := rfl
@[simp] theorem setVeto_aplic (i : Nat) (v : Veto) : (s.setVeto i v).aplic = s.aplic := rfl
@[simp] theorem setVeto_wiping (i : Nat) (v : Veto) : (s.setVeto i v).wiping = s.wiping := rfl
@[simp] theorem setVeto_out (i : Nat) (v : Veto) : (s.setVeto i v).out = s.out := rfl
@[simp] theorem setVeto_free (i : Nat) (v : Veto) : (s.setVeto i v).free = s.free := rfl

/-! ### setBank -/

@[simp] theorem setBank_pending (i : Nat) (v : Bank) : (s.setBank i v).pending = s.pending := rfl
@[simp] theorem setBank_regs (i : Nat) (v : Bank) : (s.setBank i v).regs = s.regs := rfl
@[simp] theorem setBank_mem (i : Nat) (v : Bank) : (s.setBank i v).mem = s.mem := rfl
@[simp] theorem setBank_streams (i : Nat) (v : Bank) : (s.setBank i v).streams = s.streams := rfl
@[simp] theorem setBank_waiters (i : Nat) (v : Bank) : (s.setBank i v).waiters = s.waiters := rfl
@[simp] theorem setBank_bollards (i : Nat) (v : Bank) : (s.setBank i v).bollards = s.bollards := rfl
@[simp] theorem setBank_pilots (i : Nat) (v : Bank) : (s.setBank i v).pilots = s.pilots := rfl
@[simp] theorem setBank_engines (i : Nat) (v : Bank) : (s.setBank i v).engines = s.engines := rfl
@[simp] theorem setBank_cores (i : Nat) (v : Bank) : (s.setBank i v).cores = s.cores := rfl
@[simp] theorem setBank_edges (i : Nat) (v : Bank) : (s.setBank i v).edges = s.edges := rfl
@[simp] theorem setBank_net (i : Nat) (v : Bank) : (s.setBank i v).net = s.net := rfl
@[simp] theorem setBank_resps (i : Nat) (v : Bank) : (s.setBank i v).resps = s.resps := rfl
@[simp] theorem setBank_ferries (i : Nat) (v : Bank) : (s.setBank i v).ferries = s.ferries := rfl
@[simp] theorem setBank_landings (i : Nat) (v : Bank) : (s.setBank i v).landings = s.landings := rfl
@[simp] theorem setBank_moorings (i : Nat) (v : Bank) : (s.setBank i v).moorings = s.moorings := rfl
@[simp] theorem setBank_stages (i : Nat) (v : Bank) : (s.setBank i v).stages = s.stages := rfl
@[simp] theorem setBank_pontoons (i : Nat) (v : Bank) : (s.setBank i v).pontoons = s.pontoons := rfl
@[simp] theorem setBank_vetoes (i : Nat) (v : Bank) : (s.setBank i v).vetoes = s.vetoes := rfl
@[simp] theorem setBank_scrubPos (i : Nat) (v : Bank) : (s.setBank i v).scrubPos = s.scrubPos := rfl
@[simp] theorem setBank_hbms (i : Nat) (v : Bank) : (s.setBank i v).hbms = s.hbms := rfl
@[simp] theorem setBank_spent (i : Nat) (v : Bank) : (s.setBank i v).spent = s.spent := rfl
@[simp] theorem setBank_tolls (i : Nat) (v : Bank) : (s.setBank i v).tolls = s.tolls := rfl
@[simp] theorem setBank_throttle (i : Nat) (v : Bank) : (s.setBank i v).throttle = s.throttle := rfl
@[simp] theorem setBank_tide (i : Nat) (v : Bank) : (s.setBank i v).tide = s.tide := rfl
@[simp] theorem setBank_gnorm (i : Nat) (v : Bank) : (s.setBank i v).gnorm = s.gnorm := rfl
@[simp] theorem setBank_optHeld (i : Nat) (v : Bank) : (s.setBank i v).optHeld = s.optHeld := rfl
@[simp] theorem setBank_ckpt (i : Nat) (v : Bank) : (s.setBank i v).ckpt = s.ckpt := rfl
@[simp] theorem setBank_ports (i : Nat) (v : Bank) : (s.setBank i v).ports = s.ports := rfl
@[simp] theorem setBank_census (i : Nat) (v : Bank) : (s.setBank i v).census = s.census := rfl
@[simp] theorem setBank_cohwin (i : Nat) (v : Bank) : (s.setBank i v).cohwin = s.cohwin := rfl
@[simp] theorem setBank_lines (i : Nat) (v : Bank) : (s.setBank i v).lines = s.lines := rfl
@[simp] theorem setBank_slices (i : Nat) (v : Bank) : (s.setBank i v).slices = s.slices := rfl
@[simp] theorem setBank_flushing (i : Nat) (v : Bank) : (s.setBank i v).flushing = s.flushing := rfl
@[simp] theorem setBank_ctxs (i : Nat) (v : Bank) : (s.setBank i v).ctxs = s.ctxs := rfl
@[simp] theorem setBank_reports (i : Nat) (v : Bank) : (s.setBank i v).reports = s.reports := rfl
@[simp] theorem setBank_resets (i : Nat) (v : Bank) : (s.setBank i v).resets = s.resets := rfl
@[simp] theorem setBank_hold (i : Nat) (v : Bank) : (s.setBank i v).hold = s.hold := rfl
@[simp] theorem setBank_power (i : Nat) (v : Bank) : (s.setBank i v).power = s.power := rfl
@[simp] theorem setBank_traces (i : Nat) (v : Bank) : (s.setBank i v).traces = s.traces := rfl
@[simp] theorem setBank_log (i : Nat) (v : Bank) : (s.setBank i v).log = s.log := rfl
@[simp] theorem setBank_fuses (i : Nat) (v : Bank) : (s.setBank i v).fuses = s.fuses := rfl
@[simp] theorem setBank_flash (i : Nat) (v : Bank) : (s.setBank i v).flash = s.flash := rfl
@[simp] theorem setBank_boot (i : Nat) (v : Bank) : (s.setBank i v).boot = s.boot := rfl
@[simp] theorem setBank_pins (i : Nat) (v : Bank) : (s.setBank i v).pins = s.pins := rfl
@[simp] theorem setBank_cells (i : Nat) (v : Bank) : (s.setBank i v).cells = s.cells := rfl
@[simp] theorem setBank_margins (i : Nat) (v : Bank) : (s.setBank i v).margins = s.margins := rfl
@[simp] theorem setBank_secHeld (i : Nat) (v : Bank) : (s.setBank i v).secHeld = s.secHeld := rfl
@[simp] theorem setBank_owed (i : Nat) (v : Bank) : (s.setBank i v).owed = s.owed := rfl
@[simp] theorem setBank_exempt (i : Nat) (v : Bank) : (s.setBank i v).exempt = s.exempt := rfl
@[simp] theorem setBank_queued (i : Nat) (v : Bank) : (s.setBank i v).queued = s.queued := rfl
@[simp] theorem setBank_busQ (i : Nat) (v : Bank) : (s.setBank i v).busQ = s.busQ := rfl
@[simp] theorem setBank_imsic (i : Nat) (v : Bank) : (s.setBank i v).imsic = s.imsic := rfl
@[simp] theorem setBank_aplic (i : Nat) (v : Bank) : (s.setBank i v).aplic = s.aplic := rfl
@[simp] theorem setBank_wiping (i : Nat) (v : Bank) : (s.setBank i v).wiping = s.wiping := rfl
@[simp] theorem setBank_out (i : Nat) (v : Bank) : (s.setBank i v).out = s.out := rfl
@[simp] theorem setBank_free (i : Nat) (v : Bank) : (s.setBank i v).free = s.free := rfl

/-! ### setStack -/

@[simp] theorem setStack_pending (i : Nat) (v : Stack) : (s.setStack i v).pending = s.pending := rfl
@[simp] theorem setStack_regs (i : Nat) (v : Stack) : (s.setStack i v).regs = s.regs := rfl
@[simp] theorem setStack_mem (i : Nat) (v : Stack) : (s.setStack i v).mem = s.mem := rfl
@[simp] theorem setStack_streams (i : Nat) (v : Stack) : (s.setStack i v).streams = s.streams := rfl
@[simp] theorem setStack_waiters (i : Nat) (v : Stack) : (s.setStack i v).waiters = s.waiters := rfl
@[simp] theorem setStack_bollards (i : Nat) (v : Stack) : (s.setStack i v).bollards = s.bollards := rfl
@[simp] theorem setStack_pilots (i : Nat) (v : Stack) : (s.setStack i v).pilots = s.pilots := rfl
@[simp] theorem setStack_engines (i : Nat) (v : Stack) : (s.setStack i v).engines = s.engines := rfl
@[simp] theorem setStack_cores (i : Nat) (v : Stack) : (s.setStack i v).cores = s.cores := rfl
@[simp] theorem setStack_edges (i : Nat) (v : Stack) : (s.setStack i v).edges = s.edges := rfl
@[simp] theorem setStack_net (i : Nat) (v : Stack) : (s.setStack i v).net = s.net := rfl
@[simp] theorem setStack_resps (i : Nat) (v : Stack) : (s.setStack i v).resps = s.resps := rfl
@[simp] theorem setStack_ferries (i : Nat) (v : Stack) : (s.setStack i v).ferries = s.ferries := rfl
@[simp] theorem setStack_landings (i : Nat) (v : Stack) : (s.setStack i v).landings = s.landings := rfl
@[simp] theorem setStack_moorings (i : Nat) (v : Stack) : (s.setStack i v).moorings = s.moorings := rfl
@[simp] theorem setStack_stages (i : Nat) (v : Stack) : (s.setStack i v).stages = s.stages := rfl
@[simp] theorem setStack_pontoons (i : Nat) (v : Stack) : (s.setStack i v).pontoons = s.pontoons := rfl
@[simp] theorem setStack_vetoes (i : Nat) (v : Stack) : (s.setStack i v).vetoes = s.vetoes := rfl
@[simp] theorem setStack_banks (i : Nat) (v : Stack) : (s.setStack i v).banks = s.banks := rfl
@[simp] theorem setStack_scrubPos (i : Nat) (v : Stack) : (s.setStack i v).scrubPos = s.scrubPos := rfl
@[simp] theorem setStack_spent (i : Nat) (v : Stack) : (s.setStack i v).spent = s.spent := rfl
@[simp] theorem setStack_tolls (i : Nat) (v : Stack) : (s.setStack i v).tolls = s.tolls := rfl
@[simp] theorem setStack_throttle (i : Nat) (v : Stack) : (s.setStack i v).throttle = s.throttle := rfl
@[simp] theorem setStack_tide (i : Nat) (v : Stack) : (s.setStack i v).tide = s.tide := rfl
@[simp] theorem setStack_gnorm (i : Nat) (v : Stack) : (s.setStack i v).gnorm = s.gnorm := rfl
@[simp] theorem setStack_optHeld (i : Nat) (v : Stack) : (s.setStack i v).optHeld = s.optHeld := rfl
@[simp] theorem setStack_ckpt (i : Nat) (v : Stack) : (s.setStack i v).ckpt = s.ckpt := rfl
@[simp] theorem setStack_ports (i : Nat) (v : Stack) : (s.setStack i v).ports = s.ports := rfl
@[simp] theorem setStack_census (i : Nat) (v : Stack) : (s.setStack i v).census = s.census := rfl
@[simp] theorem setStack_cohwin (i : Nat) (v : Stack) : (s.setStack i v).cohwin = s.cohwin := rfl
@[simp] theorem setStack_lines (i : Nat) (v : Stack) : (s.setStack i v).lines = s.lines := rfl
@[simp] theorem setStack_slices (i : Nat) (v : Stack) : (s.setStack i v).slices = s.slices := rfl
@[simp] theorem setStack_flushing (i : Nat) (v : Stack) : (s.setStack i v).flushing = s.flushing := rfl
@[simp] theorem setStack_ctxs (i : Nat) (v : Stack) : (s.setStack i v).ctxs = s.ctxs := rfl
@[simp] theorem setStack_reports (i : Nat) (v : Stack) : (s.setStack i v).reports = s.reports := rfl
@[simp] theorem setStack_resets (i : Nat) (v : Stack) : (s.setStack i v).resets = s.resets := rfl
@[simp] theorem setStack_hold (i : Nat) (v : Stack) : (s.setStack i v).hold = s.hold := rfl
@[simp] theorem setStack_power (i : Nat) (v : Stack) : (s.setStack i v).power = s.power := rfl
@[simp] theorem setStack_traces (i : Nat) (v : Stack) : (s.setStack i v).traces = s.traces := rfl
@[simp] theorem setStack_log (i : Nat) (v : Stack) : (s.setStack i v).log = s.log := rfl
@[simp] theorem setStack_fuses (i : Nat) (v : Stack) : (s.setStack i v).fuses = s.fuses := rfl
@[simp] theorem setStack_flash (i : Nat) (v : Stack) : (s.setStack i v).flash = s.flash := rfl
@[simp] theorem setStack_boot (i : Nat) (v : Stack) : (s.setStack i v).boot = s.boot := rfl
@[simp] theorem setStack_pins (i : Nat) (v : Stack) : (s.setStack i v).pins = s.pins := rfl
@[simp] theorem setStack_cells (i : Nat) (v : Stack) : (s.setStack i v).cells = s.cells := rfl
@[simp] theorem setStack_margins (i : Nat) (v : Stack) : (s.setStack i v).margins = s.margins := rfl
@[simp] theorem setStack_secHeld (i : Nat) (v : Stack) : (s.setStack i v).secHeld = s.secHeld := rfl
@[simp] theorem setStack_owed (i : Nat) (v : Stack) : (s.setStack i v).owed = s.owed := rfl
@[simp] theorem setStack_exempt (i : Nat) (v : Stack) : (s.setStack i v).exempt = s.exempt := rfl
@[simp] theorem setStack_queued (i : Nat) (v : Stack) : (s.setStack i v).queued = s.queued := rfl
@[simp] theorem setStack_busQ (i : Nat) (v : Stack) : (s.setStack i v).busQ = s.busQ := rfl
@[simp] theorem setStack_imsic (i : Nat) (v : Stack) : (s.setStack i v).imsic = s.imsic := rfl
@[simp] theorem setStack_aplic (i : Nat) (v : Stack) : (s.setStack i v).aplic = s.aplic := rfl
@[simp] theorem setStack_wiping (i : Nat) (v : Stack) : (s.setStack i v).wiping = s.wiping := rfl
@[simp] theorem setStack_out (i : Nat) (v : Stack) : (s.setStack i v).out = s.out := rfl
@[simp] theorem setStack_free (i : Nat) (v : Stack) : (s.setStack i v).free = s.free := rfl

/-! ### setPort -/

@[simp] theorem setPort_pending (i : Nat) (v : Port) : (s.setPort i v).pending = s.pending := rfl
@[simp] theorem setPort_regs (i : Nat) (v : Port) : (s.setPort i v).regs = s.regs := rfl
@[simp] theorem setPort_mem (i : Nat) (v : Port) : (s.setPort i v).mem = s.mem := rfl
@[simp] theorem setPort_streams (i : Nat) (v : Port) : (s.setPort i v).streams = s.streams := rfl
@[simp] theorem setPort_waiters (i : Nat) (v : Port) : (s.setPort i v).waiters = s.waiters := rfl
@[simp] theorem setPort_bollards (i : Nat) (v : Port) : (s.setPort i v).bollards = s.bollards := rfl
@[simp] theorem setPort_pilots (i : Nat) (v : Port) : (s.setPort i v).pilots = s.pilots := rfl
@[simp] theorem setPort_engines (i : Nat) (v : Port) : (s.setPort i v).engines = s.engines := rfl
@[simp] theorem setPort_cores (i : Nat) (v : Port) : (s.setPort i v).cores = s.cores := rfl
@[simp] theorem setPort_edges (i : Nat) (v : Port) : (s.setPort i v).edges = s.edges := rfl
@[simp] theorem setPort_net (i : Nat) (v : Port) : (s.setPort i v).net = s.net := rfl
@[simp] theorem setPort_resps (i : Nat) (v : Port) : (s.setPort i v).resps = s.resps := rfl
@[simp] theorem setPort_ferries (i : Nat) (v : Port) : (s.setPort i v).ferries = s.ferries := rfl
@[simp] theorem setPort_landings (i : Nat) (v : Port) : (s.setPort i v).landings = s.landings := rfl
@[simp] theorem setPort_moorings (i : Nat) (v : Port) : (s.setPort i v).moorings = s.moorings := rfl
@[simp] theorem setPort_stages (i : Nat) (v : Port) : (s.setPort i v).stages = s.stages := rfl
@[simp] theorem setPort_pontoons (i : Nat) (v : Port) : (s.setPort i v).pontoons = s.pontoons := rfl
@[simp] theorem setPort_vetoes (i : Nat) (v : Port) : (s.setPort i v).vetoes = s.vetoes := rfl
@[simp] theorem setPort_banks (i : Nat) (v : Port) : (s.setPort i v).banks = s.banks := rfl
@[simp] theorem setPort_scrubPos (i : Nat) (v : Port) : (s.setPort i v).scrubPos = s.scrubPos := rfl
@[simp] theorem setPort_hbms (i : Nat) (v : Port) : (s.setPort i v).hbms = s.hbms := rfl
@[simp] theorem setPort_spent (i : Nat) (v : Port) : (s.setPort i v).spent = s.spent := rfl
@[simp] theorem setPort_tolls (i : Nat) (v : Port) : (s.setPort i v).tolls = s.tolls := rfl
@[simp] theorem setPort_throttle (i : Nat) (v : Port) : (s.setPort i v).throttle = s.throttle := rfl
@[simp] theorem setPort_tide (i : Nat) (v : Port) : (s.setPort i v).tide = s.tide := rfl
@[simp] theorem setPort_gnorm (i : Nat) (v : Port) : (s.setPort i v).gnorm = s.gnorm := rfl
@[simp] theorem setPort_optHeld (i : Nat) (v : Port) : (s.setPort i v).optHeld = s.optHeld := rfl
@[simp] theorem setPort_ckpt (i : Nat) (v : Port) : (s.setPort i v).ckpt = s.ckpt := rfl
@[simp] theorem setPort_census (i : Nat) (v : Port) : (s.setPort i v).census = s.census := rfl
@[simp] theorem setPort_cohwin (i : Nat) (v : Port) : (s.setPort i v).cohwin = s.cohwin := rfl
@[simp] theorem setPort_lines (i : Nat) (v : Port) : (s.setPort i v).lines = s.lines := rfl
@[simp] theorem setPort_slices (i : Nat) (v : Port) : (s.setPort i v).slices = s.slices := rfl
@[simp] theorem setPort_flushing (i : Nat) (v : Port) : (s.setPort i v).flushing = s.flushing := rfl
@[simp] theorem setPort_ctxs (i : Nat) (v : Port) : (s.setPort i v).ctxs = s.ctxs := rfl
@[simp] theorem setPort_reports (i : Nat) (v : Port) : (s.setPort i v).reports = s.reports := rfl
@[simp] theorem setPort_resets (i : Nat) (v : Port) : (s.setPort i v).resets = s.resets := rfl
@[simp] theorem setPort_hold (i : Nat) (v : Port) : (s.setPort i v).hold = s.hold := rfl
@[simp] theorem setPort_power (i : Nat) (v : Port) : (s.setPort i v).power = s.power := rfl
@[simp] theorem setPort_traces (i : Nat) (v : Port) : (s.setPort i v).traces = s.traces := rfl
@[simp] theorem setPort_log (i : Nat) (v : Port) : (s.setPort i v).log = s.log := rfl
@[simp] theorem setPort_fuses (i : Nat) (v : Port) : (s.setPort i v).fuses = s.fuses := rfl
@[simp] theorem setPort_flash (i : Nat) (v : Port) : (s.setPort i v).flash = s.flash := rfl
@[simp] theorem setPort_boot (i : Nat) (v : Port) : (s.setPort i v).boot = s.boot := rfl
@[simp] theorem setPort_pins (i : Nat) (v : Port) : (s.setPort i v).pins = s.pins := rfl
@[simp] theorem setPort_cells (i : Nat) (v : Port) : (s.setPort i v).cells = s.cells := rfl
@[simp] theorem setPort_margins (i : Nat) (v : Port) : (s.setPort i v).margins = s.margins := rfl
@[simp] theorem setPort_secHeld (i : Nat) (v : Port) : (s.setPort i v).secHeld = s.secHeld := rfl
@[simp] theorem setPort_owed (i : Nat) (v : Port) : (s.setPort i v).owed = s.owed := rfl
@[simp] theorem setPort_exempt (i : Nat) (v : Port) : (s.setPort i v).exempt = s.exempt := rfl
@[simp] theorem setPort_queued (i : Nat) (v : Port) : (s.setPort i v).queued = s.queued := rfl
@[simp] theorem setPort_busQ (i : Nat) (v : Port) : (s.setPort i v).busQ = s.busQ := rfl
@[simp] theorem setPort_imsic (i : Nat) (v : Port) : (s.setPort i v).imsic = s.imsic := rfl
@[simp] theorem setPort_aplic (i : Nat) (v : Port) : (s.setPort i v).aplic = s.aplic := rfl
@[simp] theorem setPort_wiping (i : Nat) (v : Port) : (s.setPort i v).wiping = s.wiping := rfl
@[simp] theorem setPort_out (i : Nat) (v : Port) : (s.setPort i v).out = s.out := rfl
@[simp] theorem setPort_free (i : Nat) (v : Port) : (s.setPort i v).free = s.free := rfl

/-! ### setLine -/

@[simp] theorem setLine_pending (i : Nat) (v : Line) : (s.setLine i v).pending = s.pending := rfl
@[simp] theorem setLine_regs (i : Nat) (v : Line) : (s.setLine i v).regs = s.regs := rfl
@[simp] theorem setLine_mem (i : Nat) (v : Line) : (s.setLine i v).mem = s.mem := rfl
@[simp] theorem setLine_streams (i : Nat) (v : Line) : (s.setLine i v).streams = s.streams := rfl
@[simp] theorem setLine_waiters (i : Nat) (v : Line) : (s.setLine i v).waiters = s.waiters := rfl
@[simp] theorem setLine_bollards (i : Nat) (v : Line) : (s.setLine i v).bollards = s.bollards := rfl
@[simp] theorem setLine_pilots (i : Nat) (v : Line) : (s.setLine i v).pilots = s.pilots := rfl
@[simp] theorem setLine_engines (i : Nat) (v : Line) : (s.setLine i v).engines = s.engines := rfl
@[simp] theorem setLine_cores (i : Nat) (v : Line) : (s.setLine i v).cores = s.cores := rfl
@[simp] theorem setLine_edges (i : Nat) (v : Line) : (s.setLine i v).edges = s.edges := rfl
@[simp] theorem setLine_net (i : Nat) (v : Line) : (s.setLine i v).net = s.net := rfl
@[simp] theorem setLine_resps (i : Nat) (v : Line) : (s.setLine i v).resps = s.resps := rfl
@[simp] theorem setLine_ferries (i : Nat) (v : Line) : (s.setLine i v).ferries = s.ferries := rfl
@[simp] theorem setLine_landings (i : Nat) (v : Line) : (s.setLine i v).landings = s.landings := rfl
@[simp] theorem setLine_moorings (i : Nat) (v : Line) : (s.setLine i v).moorings = s.moorings := rfl
@[simp] theorem setLine_stages (i : Nat) (v : Line) : (s.setLine i v).stages = s.stages := rfl
@[simp] theorem setLine_pontoons (i : Nat) (v : Line) : (s.setLine i v).pontoons = s.pontoons := rfl
@[simp] theorem setLine_vetoes (i : Nat) (v : Line) : (s.setLine i v).vetoes = s.vetoes := rfl
@[simp] theorem setLine_banks (i : Nat) (v : Line) : (s.setLine i v).banks = s.banks := rfl
@[simp] theorem setLine_scrubPos (i : Nat) (v : Line) : (s.setLine i v).scrubPos = s.scrubPos := rfl
@[simp] theorem setLine_hbms (i : Nat) (v : Line) : (s.setLine i v).hbms = s.hbms := rfl
@[simp] theorem setLine_spent (i : Nat) (v : Line) : (s.setLine i v).spent = s.spent := rfl
@[simp] theorem setLine_tolls (i : Nat) (v : Line) : (s.setLine i v).tolls = s.tolls := rfl
@[simp] theorem setLine_throttle (i : Nat) (v : Line) : (s.setLine i v).throttle = s.throttle := rfl
@[simp] theorem setLine_tide (i : Nat) (v : Line) : (s.setLine i v).tide = s.tide := rfl
@[simp] theorem setLine_gnorm (i : Nat) (v : Line) : (s.setLine i v).gnorm = s.gnorm := rfl
@[simp] theorem setLine_optHeld (i : Nat) (v : Line) : (s.setLine i v).optHeld = s.optHeld := rfl
@[simp] theorem setLine_ckpt (i : Nat) (v : Line) : (s.setLine i v).ckpt = s.ckpt := rfl
@[simp] theorem setLine_ports (i : Nat) (v : Line) : (s.setLine i v).ports = s.ports := rfl
@[simp] theorem setLine_census (i : Nat) (v : Line) : (s.setLine i v).census = s.census := rfl
@[simp] theorem setLine_cohwin (i : Nat) (v : Line) : (s.setLine i v).cohwin = s.cohwin := rfl
@[simp] theorem setLine_slices (i : Nat) (v : Line) : (s.setLine i v).slices = s.slices := rfl
@[simp] theorem setLine_flushing (i : Nat) (v : Line) : (s.setLine i v).flushing = s.flushing := rfl
@[simp] theorem setLine_ctxs (i : Nat) (v : Line) : (s.setLine i v).ctxs = s.ctxs := rfl
@[simp] theorem setLine_reports (i : Nat) (v : Line) : (s.setLine i v).reports = s.reports := rfl
@[simp] theorem setLine_resets (i : Nat) (v : Line) : (s.setLine i v).resets = s.resets := rfl
@[simp] theorem setLine_hold (i : Nat) (v : Line) : (s.setLine i v).hold = s.hold := rfl
@[simp] theorem setLine_power (i : Nat) (v : Line) : (s.setLine i v).power = s.power := rfl
@[simp] theorem setLine_traces (i : Nat) (v : Line) : (s.setLine i v).traces = s.traces := rfl
@[simp] theorem setLine_log (i : Nat) (v : Line) : (s.setLine i v).log = s.log := rfl
@[simp] theorem setLine_fuses (i : Nat) (v : Line) : (s.setLine i v).fuses = s.fuses := rfl
@[simp] theorem setLine_flash (i : Nat) (v : Line) : (s.setLine i v).flash = s.flash := rfl
@[simp] theorem setLine_boot (i : Nat) (v : Line) : (s.setLine i v).boot = s.boot := rfl
@[simp] theorem setLine_pins (i : Nat) (v : Line) : (s.setLine i v).pins = s.pins := rfl
@[simp] theorem setLine_cells (i : Nat) (v : Line) : (s.setLine i v).cells = s.cells := rfl
@[simp] theorem setLine_margins (i : Nat) (v : Line) : (s.setLine i v).margins = s.margins := rfl
@[simp] theorem setLine_secHeld (i : Nat) (v : Line) : (s.setLine i v).secHeld = s.secHeld := rfl
@[simp] theorem setLine_owed (i : Nat) (v : Line) : (s.setLine i v).owed = s.owed := rfl
@[simp] theorem setLine_exempt (i : Nat) (v : Line) : (s.setLine i v).exempt = s.exempt := rfl
@[simp] theorem setLine_queued (i : Nat) (v : Line) : (s.setLine i v).queued = s.queued := rfl
@[simp] theorem setLine_busQ (i : Nat) (v : Line) : (s.setLine i v).busQ = s.busQ := rfl
@[simp] theorem setLine_imsic (i : Nat) (v : Line) : (s.setLine i v).imsic = s.imsic := rfl
@[simp] theorem setLine_aplic (i : Nat) (v : Line) : (s.setLine i v).aplic = s.aplic := rfl
@[simp] theorem setLine_wiping (i : Nat) (v : Line) : (s.setLine i v).wiping = s.wiping := rfl
@[simp] theorem setLine_out (i : Nat) (v : Line) : (s.setLine i v).out = s.out := rfl
@[simp] theorem setLine_free (i : Nat) (v : Line) : (s.setLine i v).free = s.free := rfl

/-! ### setCtx -/

@[simp] theorem setCtx_pending (i : Nat) (v : Ctx) : (s.setCtx i v).pending = s.pending := rfl
@[simp] theorem setCtx_regs (i : Nat) (v : Ctx) : (s.setCtx i v).regs = s.regs := rfl
@[simp] theorem setCtx_mem (i : Nat) (v : Ctx) : (s.setCtx i v).mem = s.mem := rfl
@[simp] theorem setCtx_streams (i : Nat) (v : Ctx) : (s.setCtx i v).streams = s.streams := rfl
@[simp] theorem setCtx_waiters (i : Nat) (v : Ctx) : (s.setCtx i v).waiters = s.waiters := rfl
@[simp] theorem setCtx_bollards (i : Nat) (v : Ctx) : (s.setCtx i v).bollards = s.bollards := rfl
@[simp] theorem setCtx_pilots (i : Nat) (v : Ctx) : (s.setCtx i v).pilots = s.pilots := rfl
@[simp] theorem setCtx_engines (i : Nat) (v : Ctx) : (s.setCtx i v).engines = s.engines := rfl
@[simp] theorem setCtx_cores (i : Nat) (v : Ctx) : (s.setCtx i v).cores = s.cores := rfl
@[simp] theorem setCtx_edges (i : Nat) (v : Ctx) : (s.setCtx i v).edges = s.edges := rfl
@[simp] theorem setCtx_net (i : Nat) (v : Ctx) : (s.setCtx i v).net = s.net := rfl
@[simp] theorem setCtx_resps (i : Nat) (v : Ctx) : (s.setCtx i v).resps = s.resps := rfl
@[simp] theorem setCtx_ferries (i : Nat) (v : Ctx) : (s.setCtx i v).ferries = s.ferries := rfl
@[simp] theorem setCtx_landings (i : Nat) (v : Ctx) : (s.setCtx i v).landings = s.landings := rfl
@[simp] theorem setCtx_moorings (i : Nat) (v : Ctx) : (s.setCtx i v).moorings = s.moorings := rfl
@[simp] theorem setCtx_stages (i : Nat) (v : Ctx) : (s.setCtx i v).stages = s.stages := rfl
@[simp] theorem setCtx_pontoons (i : Nat) (v : Ctx) : (s.setCtx i v).pontoons = s.pontoons := rfl
@[simp] theorem setCtx_vetoes (i : Nat) (v : Ctx) : (s.setCtx i v).vetoes = s.vetoes := rfl
@[simp] theorem setCtx_banks (i : Nat) (v : Ctx) : (s.setCtx i v).banks = s.banks := rfl
@[simp] theorem setCtx_scrubPos (i : Nat) (v : Ctx) : (s.setCtx i v).scrubPos = s.scrubPos := rfl
@[simp] theorem setCtx_hbms (i : Nat) (v : Ctx) : (s.setCtx i v).hbms = s.hbms := rfl
@[simp] theorem setCtx_spent (i : Nat) (v : Ctx) : (s.setCtx i v).spent = s.spent := rfl
@[simp] theorem setCtx_tolls (i : Nat) (v : Ctx) : (s.setCtx i v).tolls = s.tolls := rfl
@[simp] theorem setCtx_throttle (i : Nat) (v : Ctx) : (s.setCtx i v).throttle = s.throttle := rfl
@[simp] theorem setCtx_tide (i : Nat) (v : Ctx) : (s.setCtx i v).tide = s.tide := rfl
@[simp] theorem setCtx_gnorm (i : Nat) (v : Ctx) : (s.setCtx i v).gnorm = s.gnorm := rfl
@[simp] theorem setCtx_optHeld (i : Nat) (v : Ctx) : (s.setCtx i v).optHeld = s.optHeld := rfl
@[simp] theorem setCtx_ckpt (i : Nat) (v : Ctx) : (s.setCtx i v).ckpt = s.ckpt := rfl
@[simp] theorem setCtx_ports (i : Nat) (v : Ctx) : (s.setCtx i v).ports = s.ports := rfl
@[simp] theorem setCtx_census (i : Nat) (v : Ctx) : (s.setCtx i v).census = s.census := rfl
@[simp] theorem setCtx_cohwin (i : Nat) (v : Ctx) : (s.setCtx i v).cohwin = s.cohwin := rfl
@[simp] theorem setCtx_lines (i : Nat) (v : Ctx) : (s.setCtx i v).lines = s.lines := rfl
@[simp] theorem setCtx_slices (i : Nat) (v : Ctx) : (s.setCtx i v).slices = s.slices := rfl
@[simp] theorem setCtx_flushing (i : Nat) (v : Ctx) : (s.setCtx i v).flushing = s.flushing := rfl
@[simp] theorem setCtx_reports (i : Nat) (v : Ctx) : (s.setCtx i v).reports = s.reports := rfl
@[simp] theorem setCtx_resets (i : Nat) (v : Ctx) : (s.setCtx i v).resets = s.resets := rfl
@[simp] theorem setCtx_hold (i : Nat) (v : Ctx) : (s.setCtx i v).hold = s.hold := rfl
@[simp] theorem setCtx_power (i : Nat) (v : Ctx) : (s.setCtx i v).power = s.power := rfl
@[simp] theorem setCtx_traces (i : Nat) (v : Ctx) : (s.setCtx i v).traces = s.traces := rfl
@[simp] theorem setCtx_log (i : Nat) (v : Ctx) : (s.setCtx i v).log = s.log := rfl
@[simp] theorem setCtx_fuses (i : Nat) (v : Ctx) : (s.setCtx i v).fuses = s.fuses := rfl
@[simp] theorem setCtx_flash (i : Nat) (v : Ctx) : (s.setCtx i v).flash = s.flash := rfl
@[simp] theorem setCtx_boot (i : Nat) (v : Ctx) : (s.setCtx i v).boot = s.boot := rfl
@[simp] theorem setCtx_pins (i : Nat) (v : Ctx) : (s.setCtx i v).pins = s.pins := rfl
@[simp] theorem setCtx_cells (i : Nat) (v : Ctx) : (s.setCtx i v).cells = s.cells := rfl
@[simp] theorem setCtx_margins (i : Nat) (v : Ctx) : (s.setCtx i v).margins = s.margins := rfl
@[simp] theorem setCtx_secHeld (i : Nat) (v : Ctx) : (s.setCtx i v).secHeld = s.secHeld := rfl
@[simp] theorem setCtx_owed (i : Nat) (v : Ctx) : (s.setCtx i v).owed = s.owed := rfl
@[simp] theorem setCtx_exempt (i : Nat) (v : Ctx) : (s.setCtx i v).exempt = s.exempt := rfl
@[simp] theorem setCtx_queued (i : Nat) (v : Ctx) : (s.setCtx i v).queued = s.queued := rfl
@[simp] theorem setCtx_busQ (i : Nat) (v : Ctx) : (s.setCtx i v).busQ = s.busQ := rfl
@[simp] theorem setCtx_imsic (i : Nat) (v : Ctx) : (s.setCtx i v).imsic = s.imsic := rfl
@[simp] theorem setCtx_aplic (i : Nat) (v : Ctx) : (s.setCtx i v).aplic = s.aplic := rfl
@[simp] theorem setCtx_wiping (i : Nat) (v : Ctx) : (s.setCtx i v).wiping = s.wiping := rfl
@[simp] theorem setCtx_out (i : Nat) (v : Ctx) : (s.setCtx i v).out = s.out := rfl
@[simp] theorem setCtx_free (i : Nat) (v : Ctx) : (s.setCtx i v).free = s.free := rfl

/-! ### setTraceBuf -/

@[simp] theorem setTraceBuf_pending (i : Nat) (v : Trace) : (s.setTraceBuf i v).pending = s.pending := rfl
@[simp] theorem setTraceBuf_regs (i : Nat) (v : Trace) : (s.setTraceBuf i v).regs = s.regs := rfl
@[simp] theorem setTraceBuf_mem (i : Nat) (v : Trace) : (s.setTraceBuf i v).mem = s.mem := rfl
@[simp] theorem setTraceBuf_streams (i : Nat) (v : Trace) : (s.setTraceBuf i v).streams = s.streams := rfl
@[simp] theorem setTraceBuf_waiters (i : Nat) (v : Trace) : (s.setTraceBuf i v).waiters = s.waiters := rfl
@[simp] theorem setTraceBuf_bollards (i : Nat) (v : Trace) : (s.setTraceBuf i v).bollards = s.bollards := rfl
@[simp] theorem setTraceBuf_pilots (i : Nat) (v : Trace) : (s.setTraceBuf i v).pilots = s.pilots := rfl
@[simp] theorem setTraceBuf_engines (i : Nat) (v : Trace) : (s.setTraceBuf i v).engines = s.engines := rfl
@[simp] theorem setTraceBuf_cores (i : Nat) (v : Trace) : (s.setTraceBuf i v).cores = s.cores := rfl
@[simp] theorem setTraceBuf_edges (i : Nat) (v : Trace) : (s.setTraceBuf i v).edges = s.edges := rfl
@[simp] theorem setTraceBuf_net (i : Nat) (v : Trace) : (s.setTraceBuf i v).net = s.net := rfl
@[simp] theorem setTraceBuf_resps (i : Nat) (v : Trace) : (s.setTraceBuf i v).resps = s.resps := rfl
@[simp] theorem setTraceBuf_ferries (i : Nat) (v : Trace) : (s.setTraceBuf i v).ferries = s.ferries := rfl
@[simp] theorem setTraceBuf_landings (i : Nat) (v : Trace) : (s.setTraceBuf i v).landings = s.landings := rfl
@[simp] theorem setTraceBuf_moorings (i : Nat) (v : Trace) : (s.setTraceBuf i v).moorings = s.moorings := rfl
@[simp] theorem setTraceBuf_stages (i : Nat) (v : Trace) : (s.setTraceBuf i v).stages = s.stages := rfl
@[simp] theorem setTraceBuf_pontoons (i : Nat) (v : Trace) : (s.setTraceBuf i v).pontoons = s.pontoons := rfl
@[simp] theorem setTraceBuf_vetoes (i : Nat) (v : Trace) : (s.setTraceBuf i v).vetoes = s.vetoes := rfl
@[simp] theorem setTraceBuf_banks (i : Nat) (v : Trace) : (s.setTraceBuf i v).banks = s.banks := rfl
@[simp] theorem setTraceBuf_scrubPos (i : Nat) (v : Trace) : (s.setTraceBuf i v).scrubPos = s.scrubPos := rfl
@[simp] theorem setTraceBuf_hbms (i : Nat) (v : Trace) : (s.setTraceBuf i v).hbms = s.hbms := rfl
@[simp] theorem setTraceBuf_spent (i : Nat) (v : Trace) : (s.setTraceBuf i v).spent = s.spent := rfl
@[simp] theorem setTraceBuf_tolls (i : Nat) (v : Trace) : (s.setTraceBuf i v).tolls = s.tolls := rfl
@[simp] theorem setTraceBuf_throttle (i : Nat) (v : Trace) : (s.setTraceBuf i v).throttle = s.throttle := rfl
@[simp] theorem setTraceBuf_tide (i : Nat) (v : Trace) : (s.setTraceBuf i v).tide = s.tide := rfl
@[simp] theorem setTraceBuf_gnorm (i : Nat) (v : Trace) : (s.setTraceBuf i v).gnorm = s.gnorm := rfl
@[simp] theorem setTraceBuf_optHeld (i : Nat) (v : Trace) : (s.setTraceBuf i v).optHeld = s.optHeld := rfl
@[simp] theorem setTraceBuf_ckpt (i : Nat) (v : Trace) : (s.setTraceBuf i v).ckpt = s.ckpt := rfl
@[simp] theorem setTraceBuf_ports (i : Nat) (v : Trace) : (s.setTraceBuf i v).ports = s.ports := rfl
@[simp] theorem setTraceBuf_census (i : Nat) (v : Trace) : (s.setTraceBuf i v).census = s.census := rfl
@[simp] theorem setTraceBuf_cohwin (i : Nat) (v : Trace) : (s.setTraceBuf i v).cohwin = s.cohwin := rfl
@[simp] theorem setTraceBuf_lines (i : Nat) (v : Trace) : (s.setTraceBuf i v).lines = s.lines := rfl
@[simp] theorem setTraceBuf_slices (i : Nat) (v : Trace) : (s.setTraceBuf i v).slices = s.slices := rfl
@[simp] theorem setTraceBuf_flushing (i : Nat) (v : Trace) : (s.setTraceBuf i v).flushing = s.flushing := rfl
@[simp] theorem setTraceBuf_ctxs (i : Nat) (v : Trace) : (s.setTraceBuf i v).ctxs = s.ctxs := rfl
@[simp] theorem setTraceBuf_reports (i : Nat) (v : Trace) : (s.setTraceBuf i v).reports = s.reports := rfl
@[simp] theorem setTraceBuf_resets (i : Nat) (v : Trace) : (s.setTraceBuf i v).resets = s.resets := rfl
@[simp] theorem setTraceBuf_hold (i : Nat) (v : Trace) : (s.setTraceBuf i v).hold = s.hold := rfl
@[simp] theorem setTraceBuf_power (i : Nat) (v : Trace) : (s.setTraceBuf i v).power = s.power := rfl
@[simp] theorem setTraceBuf_log (i : Nat) (v : Trace) : (s.setTraceBuf i v).log = s.log := rfl
@[simp] theorem setTraceBuf_fuses (i : Nat) (v : Trace) : (s.setTraceBuf i v).fuses = s.fuses := rfl
@[simp] theorem setTraceBuf_flash (i : Nat) (v : Trace) : (s.setTraceBuf i v).flash = s.flash := rfl
@[simp] theorem setTraceBuf_boot (i : Nat) (v : Trace) : (s.setTraceBuf i v).boot = s.boot := rfl
@[simp] theorem setTraceBuf_pins (i : Nat) (v : Trace) : (s.setTraceBuf i v).pins = s.pins := rfl
@[simp] theorem setTraceBuf_cells (i : Nat) (v : Trace) : (s.setTraceBuf i v).cells = s.cells := rfl
@[simp] theorem setTraceBuf_margins (i : Nat) (v : Trace) : (s.setTraceBuf i v).margins = s.margins := rfl
@[simp] theorem setTraceBuf_secHeld (i : Nat) (v : Trace) : (s.setTraceBuf i v).secHeld = s.secHeld := rfl
@[simp] theorem setTraceBuf_owed (i : Nat) (v : Trace) : (s.setTraceBuf i v).owed = s.owed := rfl
@[simp] theorem setTraceBuf_exempt (i : Nat) (v : Trace) : (s.setTraceBuf i v).exempt = s.exempt := rfl
@[simp] theorem setTraceBuf_queued (i : Nat) (v : Trace) : (s.setTraceBuf i v).queued = s.queued := rfl
@[simp] theorem setTraceBuf_busQ (i : Nat) (v : Trace) : (s.setTraceBuf i v).busQ = s.busQ := rfl
@[simp] theorem setTraceBuf_imsic (i : Nat) (v : Trace) : (s.setTraceBuf i v).imsic = s.imsic := rfl
@[simp] theorem setTraceBuf_aplic (i : Nat) (v : Trace) : (s.setTraceBuf i v).aplic = s.aplic := rfl
@[simp] theorem setTraceBuf_wiping (i : Nat) (v : Trace) : (s.setTraceBuf i v).wiping = s.wiping := rfl
@[simp] theorem setTraceBuf_out (i : Nat) (v : Trace) : (s.setTraceBuf i v).out = s.out := rfl
@[simp] theorem setTraceBuf_free (i : Nat) (v : Trace) : (s.setTraceBuf i v).free = s.free := rfl

/-! ### setReg -/

@[simp] theorem setReg_pending (k : Nat) (w : Word) : (s.setReg k w).pending = s.pending := rfl
@[simp] theorem setReg_mem (k : Nat) (w : Word) : (s.setReg k w).mem = s.mem := rfl
@[simp] theorem setReg_streams (k : Nat) (w : Word) : (s.setReg k w).streams = s.streams := rfl
@[simp] theorem setReg_waiters (k : Nat) (w : Word) : (s.setReg k w).waiters = s.waiters := rfl
@[simp] theorem setReg_bollards (k : Nat) (w : Word) : (s.setReg k w).bollards = s.bollards := rfl
@[simp] theorem setReg_pilots (k : Nat) (w : Word) : (s.setReg k w).pilots = s.pilots := rfl
@[simp] theorem setReg_engines (k : Nat) (w : Word) : (s.setReg k w).engines = s.engines := rfl
@[simp] theorem setReg_cores (k : Nat) (w : Word) : (s.setReg k w).cores = s.cores := rfl
@[simp] theorem setReg_edges (k : Nat) (w : Word) : (s.setReg k w).edges = s.edges := rfl
@[simp] theorem setReg_net (k : Nat) (w : Word) : (s.setReg k w).net = s.net := rfl
@[simp] theorem setReg_resps (k : Nat) (w : Word) : (s.setReg k w).resps = s.resps := rfl
@[simp] theorem setReg_ferries (k : Nat) (w : Word) : (s.setReg k w).ferries = s.ferries := rfl
@[simp] theorem setReg_landings (k : Nat) (w : Word) : (s.setReg k w).landings = s.landings := rfl
@[simp] theorem setReg_moorings (k : Nat) (w : Word) : (s.setReg k w).moorings = s.moorings := rfl
@[simp] theorem setReg_stages (k : Nat) (w : Word) : (s.setReg k w).stages = s.stages := rfl
@[simp] theorem setReg_pontoons (k : Nat) (w : Word) : (s.setReg k w).pontoons = s.pontoons := rfl
@[simp] theorem setReg_vetoes (k : Nat) (w : Word) : (s.setReg k w).vetoes = s.vetoes := rfl
@[simp] theorem setReg_banks (k : Nat) (w : Word) : (s.setReg k w).banks = s.banks := rfl
@[simp] theorem setReg_scrubPos (k : Nat) (w : Word) : (s.setReg k w).scrubPos = s.scrubPos := rfl
@[simp] theorem setReg_hbms (k : Nat) (w : Word) : (s.setReg k w).hbms = s.hbms := rfl
@[simp] theorem setReg_spent (k : Nat) (w : Word) : (s.setReg k w).spent = s.spent := rfl
@[simp] theorem setReg_tolls (k : Nat) (w : Word) : (s.setReg k w).tolls = s.tolls := rfl
@[simp] theorem setReg_throttle (k : Nat) (w : Word) : (s.setReg k w).throttle = s.throttle := rfl
@[simp] theorem setReg_tide (k : Nat) (w : Word) : (s.setReg k w).tide = s.tide := rfl
@[simp] theorem setReg_gnorm (k : Nat) (w : Word) : (s.setReg k w).gnorm = s.gnorm := rfl
@[simp] theorem setReg_optHeld (k : Nat) (w : Word) : (s.setReg k w).optHeld = s.optHeld := rfl
@[simp] theorem setReg_ckpt (k : Nat) (w : Word) : (s.setReg k w).ckpt = s.ckpt := rfl
@[simp] theorem setReg_ports (k : Nat) (w : Word) : (s.setReg k w).ports = s.ports := rfl
@[simp] theorem setReg_census (k : Nat) (w : Word) : (s.setReg k w).census = s.census := rfl
@[simp] theorem setReg_cohwin (k : Nat) (w : Word) : (s.setReg k w).cohwin = s.cohwin := rfl
@[simp] theorem setReg_lines (k : Nat) (w : Word) : (s.setReg k w).lines = s.lines := rfl
@[simp] theorem setReg_slices (k : Nat) (w : Word) : (s.setReg k w).slices = s.slices := rfl
@[simp] theorem setReg_flushing (k : Nat) (w : Word) : (s.setReg k w).flushing = s.flushing := rfl
@[simp] theorem setReg_ctxs (k : Nat) (w : Word) : (s.setReg k w).ctxs = s.ctxs := rfl
@[simp] theorem setReg_reports (k : Nat) (w : Word) : (s.setReg k w).reports = s.reports := rfl
@[simp] theorem setReg_resets (k : Nat) (w : Word) : (s.setReg k w).resets = s.resets := rfl
@[simp] theorem setReg_hold (k : Nat) (w : Word) : (s.setReg k w).hold = s.hold := rfl
@[simp] theorem setReg_power (k : Nat) (w : Word) : (s.setReg k w).power = s.power := rfl
@[simp] theorem setReg_traces (k : Nat) (w : Word) : (s.setReg k w).traces = s.traces := rfl
@[simp] theorem setReg_log (k : Nat) (w : Word) : (s.setReg k w).log = s.log := rfl
@[simp] theorem setReg_fuses (k : Nat) (w : Word) : (s.setReg k w).fuses = s.fuses := rfl
@[simp] theorem setReg_flash (k : Nat) (w : Word) : (s.setReg k w).flash = s.flash := rfl
@[simp] theorem setReg_boot (k : Nat) (w : Word) : (s.setReg k w).boot = s.boot := rfl
@[simp] theorem setReg_pins (k : Nat) (w : Word) : (s.setReg k w).pins = s.pins := rfl
@[simp] theorem setReg_cells (k : Nat) (w : Word) : (s.setReg k w).cells = s.cells := rfl
@[simp] theorem setReg_margins (k : Nat) (w : Word) : (s.setReg k w).margins = s.margins := rfl
@[simp] theorem setReg_secHeld (k : Nat) (w : Word) : (s.setReg k w).secHeld = s.secHeld := rfl
@[simp] theorem setReg_owed (k : Nat) (w : Word) : (s.setReg k w).owed = s.owed := rfl
@[simp] theorem setReg_exempt (k : Nat) (w : Word) : (s.setReg k w).exempt = s.exempt := rfl
@[simp] theorem setReg_queued (k : Nat) (w : Word) : (s.setReg k w).queued = s.queued := rfl
@[simp] theorem setReg_busQ (k : Nat) (w : Word) : (s.setReg k w).busQ = s.busQ := rfl
@[simp] theorem setReg_imsic (k : Nat) (w : Word) : (s.setReg k w).imsic = s.imsic := rfl
@[simp] theorem setReg_aplic (k : Nat) (w : Word) : (s.setReg k w).aplic = s.aplic := rfl
@[simp] theorem setReg_wiping (k : Nat) (w : Word) : (s.setReg k w).wiping = s.wiping := rfl
@[simp] theorem setReg_out (k : Nat) (w : Word) : (s.setReg k w).out = s.out := rfl
@[simp] theorem setReg_free (k : Nat) (w : Word) : (s.setReg k w).free = s.free := rfl

/-! ### wr -/

@[simp] theorem wr_pending (f : FieldRef) (i j n : Nat) : (s.wr f i j n).pending = s.pending := setReg_pending s _ _
@[simp] theorem wr_mem (f : FieldRef) (i j n : Nat) : (s.wr f i j n).mem = s.mem := setReg_mem s _ _
@[simp] theorem wr_streams (f : FieldRef) (i j n : Nat) : (s.wr f i j n).streams = s.streams := setReg_streams s _ _
@[simp] theorem wr_waiters (f : FieldRef) (i j n : Nat) : (s.wr f i j n).waiters = s.waiters := setReg_waiters s _ _
@[simp] theorem wr_bollards (f : FieldRef) (i j n : Nat) : (s.wr f i j n).bollards = s.bollards := setReg_bollards s _ _
@[simp] theorem wr_pilots (f : FieldRef) (i j n : Nat) : (s.wr f i j n).pilots = s.pilots := setReg_pilots s _ _
@[simp] theorem wr_engines (f : FieldRef) (i j n : Nat) : (s.wr f i j n).engines = s.engines := setReg_engines s _ _
@[simp] theorem wr_cores (f : FieldRef) (i j n : Nat) : (s.wr f i j n).cores = s.cores := setReg_cores s _ _
@[simp] theorem wr_edges (f : FieldRef) (i j n : Nat) : (s.wr f i j n).edges = s.edges := setReg_edges s _ _
@[simp] theorem wr_net (f : FieldRef) (i j n : Nat) : (s.wr f i j n).net = s.net := setReg_net s _ _
@[simp] theorem wr_resps (f : FieldRef) (i j n : Nat) : (s.wr f i j n).resps = s.resps := setReg_resps s _ _
@[simp] theorem wr_ferries (f : FieldRef) (i j n : Nat) : (s.wr f i j n).ferries = s.ferries := setReg_ferries s _ _
@[simp] theorem wr_landings (f : FieldRef) (i j n : Nat) : (s.wr f i j n).landings = s.landings := setReg_landings s _ _
@[simp] theorem wr_moorings (f : FieldRef) (i j n : Nat) : (s.wr f i j n).moorings = s.moorings := setReg_moorings s _ _
@[simp] theorem wr_stages (f : FieldRef) (i j n : Nat) : (s.wr f i j n).stages = s.stages := setReg_stages s _ _
@[simp] theorem wr_pontoons (f : FieldRef) (i j n : Nat) : (s.wr f i j n).pontoons = s.pontoons := setReg_pontoons s _ _
@[simp] theorem wr_vetoes (f : FieldRef) (i j n : Nat) : (s.wr f i j n).vetoes = s.vetoes := setReg_vetoes s _ _
@[simp] theorem wr_banks (f : FieldRef) (i j n : Nat) : (s.wr f i j n).banks = s.banks := setReg_banks s _ _
@[simp] theorem wr_scrubPos (f : FieldRef) (i j n : Nat) : (s.wr f i j n).scrubPos = s.scrubPos := setReg_scrubPos s _ _
@[simp] theorem wr_hbms (f : FieldRef) (i j n : Nat) : (s.wr f i j n).hbms = s.hbms := setReg_hbms s _ _
@[simp] theorem wr_spent (f : FieldRef) (i j n : Nat) : (s.wr f i j n).spent = s.spent := setReg_spent s _ _
@[simp] theorem wr_tolls (f : FieldRef) (i j n : Nat) : (s.wr f i j n).tolls = s.tolls := setReg_tolls s _ _
@[simp] theorem wr_throttle (f : FieldRef) (i j n : Nat) : (s.wr f i j n).throttle = s.throttle := setReg_throttle s _ _
@[simp] theorem wr_tide (f : FieldRef) (i j n : Nat) : (s.wr f i j n).tide = s.tide := setReg_tide s _ _
@[simp] theorem wr_gnorm (f : FieldRef) (i j n : Nat) : (s.wr f i j n).gnorm = s.gnorm := setReg_gnorm s _ _
@[simp] theorem wr_optHeld (f : FieldRef) (i j n : Nat) : (s.wr f i j n).optHeld = s.optHeld := setReg_optHeld s _ _
@[simp] theorem wr_ckpt (f : FieldRef) (i j n : Nat) : (s.wr f i j n).ckpt = s.ckpt := setReg_ckpt s _ _
@[simp] theorem wr_ports (f : FieldRef) (i j n : Nat) : (s.wr f i j n).ports = s.ports := setReg_ports s _ _
@[simp] theorem wr_census (f : FieldRef) (i j n : Nat) : (s.wr f i j n).census = s.census := setReg_census s _ _
@[simp] theorem wr_cohwin (f : FieldRef) (i j n : Nat) : (s.wr f i j n).cohwin = s.cohwin := setReg_cohwin s _ _
@[simp] theorem wr_lines (f : FieldRef) (i j n : Nat) : (s.wr f i j n).lines = s.lines := setReg_lines s _ _
@[simp] theorem wr_slices (f : FieldRef) (i j n : Nat) : (s.wr f i j n).slices = s.slices := setReg_slices s _ _
@[simp] theorem wr_flushing (f : FieldRef) (i j n : Nat) : (s.wr f i j n).flushing = s.flushing := setReg_flushing s _ _
@[simp] theorem wr_ctxs (f : FieldRef) (i j n : Nat) : (s.wr f i j n).ctxs = s.ctxs := setReg_ctxs s _ _
@[simp] theorem wr_reports (f : FieldRef) (i j n : Nat) : (s.wr f i j n).reports = s.reports := setReg_reports s _ _
@[simp] theorem wr_resets (f : FieldRef) (i j n : Nat) : (s.wr f i j n).resets = s.resets := setReg_resets s _ _
@[simp] theorem wr_hold (f : FieldRef) (i j n : Nat) : (s.wr f i j n).hold = s.hold := setReg_hold s _ _
@[simp] theorem wr_power (f : FieldRef) (i j n : Nat) : (s.wr f i j n).power = s.power := setReg_power s _ _
@[simp] theorem wr_traces (f : FieldRef) (i j n : Nat) : (s.wr f i j n).traces = s.traces := setReg_traces s _ _
@[simp] theorem wr_log (f : FieldRef) (i j n : Nat) : (s.wr f i j n).log = s.log := setReg_log s _ _
@[simp] theorem wr_fuses (f : FieldRef) (i j n : Nat) : (s.wr f i j n).fuses = s.fuses := setReg_fuses s _ _
@[simp] theorem wr_flash (f : FieldRef) (i j n : Nat) : (s.wr f i j n).flash = s.flash := setReg_flash s _ _
@[simp] theorem wr_boot (f : FieldRef) (i j n : Nat) : (s.wr f i j n).boot = s.boot := setReg_boot s _ _
@[simp] theorem wr_pins (f : FieldRef) (i j n : Nat) : (s.wr f i j n).pins = s.pins := setReg_pins s _ _
@[simp] theorem wr_cells (f : FieldRef) (i j n : Nat) : (s.wr f i j n).cells = s.cells := setReg_cells s _ _
@[simp] theorem wr_margins (f : FieldRef) (i j n : Nat) : (s.wr f i j n).margins = s.margins := setReg_margins s _ _
@[simp] theorem wr_secHeld (f : FieldRef) (i j n : Nat) : (s.wr f i j n).secHeld = s.secHeld := setReg_secHeld s _ _
@[simp] theorem wr_owed (f : FieldRef) (i j n : Nat) : (s.wr f i j n).owed = s.owed := setReg_owed s _ _
@[simp] theorem wr_exempt (f : FieldRef) (i j n : Nat) : (s.wr f i j n).exempt = s.exempt := setReg_exempt s _ _
@[simp] theorem wr_queued (f : FieldRef) (i j n : Nat) : (s.wr f i j n).queued = s.queued := setReg_queued s _ _
@[simp] theorem wr_busQ (f : FieldRef) (i j n : Nat) : (s.wr f i j n).busQ = s.busQ := setReg_busQ s _ _
@[simp] theorem wr_imsic (f : FieldRef) (i j n : Nat) : (s.wr f i j n).imsic = s.imsic := setReg_imsic s _ _
@[simp] theorem wr_aplic (f : FieldRef) (i j n : Nat) : (s.wr f i j n).aplic = s.aplic := setReg_aplic s _ _
@[simp] theorem wr_wiping (f : FieldRef) (i j n : Nat) : (s.wr f i j n).wiping = s.wiping := setReg_wiping s _ _
@[simp] theorem wr_out (f : FieldRef) (i j n : Nat) : (s.wr f i j n).out = s.out := setReg_out s _ _
@[simp] theorem wr_free (f : FieldRef) (i j n : Nat) : (s.wr f i j n).free = s.free := setReg_free s _ _

/-! ### poke -/

@[simp] theorem poke_pending (a : Nat) (bs : List Byte) : (s.poke a bs).pending = s.pending := rfl
@[simp] theorem poke_regs (a : Nat) (bs : List Byte) : (s.poke a bs).regs = s.regs := rfl
@[simp] theorem poke_streams (a : Nat) (bs : List Byte) : (s.poke a bs).streams = s.streams := rfl
@[simp] theorem poke_waiters (a : Nat) (bs : List Byte) : (s.poke a bs).waiters = s.waiters := rfl
@[simp] theorem poke_bollards (a : Nat) (bs : List Byte) : (s.poke a bs).bollards = s.bollards := rfl
@[simp] theorem poke_pilots (a : Nat) (bs : List Byte) : (s.poke a bs).pilots = s.pilots := rfl
@[simp] theorem poke_engines (a : Nat) (bs : List Byte) : (s.poke a bs).engines = s.engines := rfl
@[simp] theorem poke_cores (a : Nat) (bs : List Byte) : (s.poke a bs).cores = s.cores := rfl
@[simp] theorem poke_edges (a : Nat) (bs : List Byte) : (s.poke a bs).edges = s.edges := rfl
@[simp] theorem poke_net (a : Nat) (bs : List Byte) : (s.poke a bs).net = s.net := rfl
@[simp] theorem poke_resps (a : Nat) (bs : List Byte) : (s.poke a bs).resps = s.resps := rfl
@[simp] theorem poke_ferries (a : Nat) (bs : List Byte) : (s.poke a bs).ferries = s.ferries := rfl
@[simp] theorem poke_landings (a : Nat) (bs : List Byte) : (s.poke a bs).landings = s.landings := rfl
@[simp] theorem poke_moorings (a : Nat) (bs : List Byte) : (s.poke a bs).moorings = s.moorings := rfl
@[simp] theorem poke_stages (a : Nat) (bs : List Byte) : (s.poke a bs).stages = s.stages := rfl
@[simp] theorem poke_pontoons (a : Nat) (bs : List Byte) : (s.poke a bs).pontoons = s.pontoons := rfl
@[simp] theorem poke_vetoes (a : Nat) (bs : List Byte) : (s.poke a bs).vetoes = s.vetoes := rfl
@[simp] theorem poke_banks (a : Nat) (bs : List Byte) : (s.poke a bs).banks = s.banks := rfl
@[simp] theorem poke_scrubPos (a : Nat) (bs : List Byte) : (s.poke a bs).scrubPos = s.scrubPos := rfl
@[simp] theorem poke_hbms (a : Nat) (bs : List Byte) : (s.poke a bs).hbms = s.hbms := rfl
@[simp] theorem poke_spent (a : Nat) (bs : List Byte) : (s.poke a bs).spent = s.spent := rfl
@[simp] theorem poke_tolls (a : Nat) (bs : List Byte) : (s.poke a bs).tolls = s.tolls := rfl
@[simp] theorem poke_throttle (a : Nat) (bs : List Byte) : (s.poke a bs).throttle = s.throttle := rfl
@[simp] theorem poke_tide (a : Nat) (bs : List Byte) : (s.poke a bs).tide = s.tide := rfl
@[simp] theorem poke_gnorm (a : Nat) (bs : List Byte) : (s.poke a bs).gnorm = s.gnorm := rfl
@[simp] theorem poke_optHeld (a : Nat) (bs : List Byte) : (s.poke a bs).optHeld = s.optHeld := rfl
@[simp] theorem poke_ckpt (a : Nat) (bs : List Byte) : (s.poke a bs).ckpt = s.ckpt := rfl
@[simp] theorem poke_ports (a : Nat) (bs : List Byte) : (s.poke a bs).ports = s.ports := rfl
@[simp] theorem poke_census (a : Nat) (bs : List Byte) : (s.poke a bs).census = s.census := rfl
@[simp] theorem poke_cohwin (a : Nat) (bs : List Byte) : (s.poke a bs).cohwin = s.cohwin := rfl
@[simp] theorem poke_lines (a : Nat) (bs : List Byte) : (s.poke a bs).lines = s.lines := rfl
@[simp] theorem poke_slices (a : Nat) (bs : List Byte) : (s.poke a bs).slices = s.slices := rfl
@[simp] theorem poke_flushing (a : Nat) (bs : List Byte) : (s.poke a bs).flushing = s.flushing := rfl
@[simp] theorem poke_ctxs (a : Nat) (bs : List Byte) : (s.poke a bs).ctxs = s.ctxs := rfl
@[simp] theorem poke_reports (a : Nat) (bs : List Byte) : (s.poke a bs).reports = s.reports := rfl
@[simp] theorem poke_resets (a : Nat) (bs : List Byte) : (s.poke a bs).resets = s.resets := rfl
@[simp] theorem poke_hold (a : Nat) (bs : List Byte) : (s.poke a bs).hold = s.hold := rfl
@[simp] theorem poke_power (a : Nat) (bs : List Byte) : (s.poke a bs).power = s.power := rfl
@[simp] theorem poke_traces (a : Nat) (bs : List Byte) : (s.poke a bs).traces = s.traces := rfl
@[simp] theorem poke_log (a : Nat) (bs : List Byte) : (s.poke a bs).log = s.log := rfl
@[simp] theorem poke_fuses (a : Nat) (bs : List Byte) : (s.poke a bs).fuses = s.fuses := rfl
@[simp] theorem poke_flash (a : Nat) (bs : List Byte) : (s.poke a bs).flash = s.flash := rfl
@[simp] theorem poke_boot (a : Nat) (bs : List Byte) : (s.poke a bs).boot = s.boot := rfl
@[simp] theorem poke_pins (a : Nat) (bs : List Byte) : (s.poke a bs).pins = s.pins := rfl
@[simp] theorem poke_cells (a : Nat) (bs : List Byte) : (s.poke a bs).cells = s.cells := rfl
@[simp] theorem poke_margins (a : Nat) (bs : List Byte) : (s.poke a bs).margins = s.margins := rfl
@[simp] theorem poke_secHeld (a : Nat) (bs : List Byte) : (s.poke a bs).secHeld = s.secHeld := rfl
@[simp] theorem poke_owed (a : Nat) (bs : List Byte) : (s.poke a bs).owed = s.owed := rfl
@[simp] theorem poke_exempt (a : Nat) (bs : List Byte) : (s.poke a bs).exempt = s.exempt := rfl
@[simp] theorem poke_queued (a : Nat) (bs : List Byte) : (s.poke a bs).queued = s.queued := rfl
@[simp] theorem poke_busQ (a : Nat) (bs : List Byte) : (s.poke a bs).busQ = s.busQ := rfl
@[simp] theorem poke_imsic (a : Nat) (bs : List Byte) : (s.poke a bs).imsic = s.imsic := rfl
@[simp] theorem poke_aplic (a : Nat) (bs : List Byte) : (s.poke a bs).aplic = s.aplic := rfl
@[simp] theorem poke_wiping (a : Nat) (bs : List Byte) : (s.poke a bs).wiping = s.wiping := rfl
@[simp] theorem poke_out (a : Nat) (bs : List Byte) : (s.poke a bs).out = s.out := rfl
@[simp] theorem poke_free (a : Nat) (bs : List Byte) : (s.poke a bs).free = s.free := rfl

/-! ### clearRange -/

@[simp] theorem clearRange_pending (a b : Nat) : (s.clearRange a b).pending = s.pending := rfl
@[simp] theorem clearRange_regs (a b : Nat) : (s.clearRange a b).regs = s.regs := rfl
@[simp] theorem clearRange_streams (a b : Nat) : (s.clearRange a b).streams = s.streams := rfl
@[simp] theorem clearRange_waiters (a b : Nat) : (s.clearRange a b).waiters = s.waiters := rfl
@[simp] theorem clearRange_bollards (a b : Nat) : (s.clearRange a b).bollards = s.bollards := rfl
@[simp] theorem clearRange_pilots (a b : Nat) : (s.clearRange a b).pilots = s.pilots := rfl
@[simp] theorem clearRange_engines (a b : Nat) : (s.clearRange a b).engines = s.engines := rfl
@[simp] theorem clearRange_cores (a b : Nat) : (s.clearRange a b).cores = s.cores := rfl
@[simp] theorem clearRange_edges (a b : Nat) : (s.clearRange a b).edges = s.edges := rfl
@[simp] theorem clearRange_net (a b : Nat) : (s.clearRange a b).net = s.net := rfl
@[simp] theorem clearRange_resps (a b : Nat) : (s.clearRange a b).resps = s.resps := rfl
@[simp] theorem clearRange_ferries (a b : Nat) : (s.clearRange a b).ferries = s.ferries := rfl
@[simp] theorem clearRange_landings (a b : Nat) : (s.clearRange a b).landings = s.landings := rfl
@[simp] theorem clearRange_moorings (a b : Nat) : (s.clearRange a b).moorings = s.moorings := rfl
@[simp] theorem clearRange_stages (a b : Nat) : (s.clearRange a b).stages = s.stages := rfl
@[simp] theorem clearRange_pontoons (a b : Nat) : (s.clearRange a b).pontoons = s.pontoons := rfl
@[simp] theorem clearRange_vetoes (a b : Nat) : (s.clearRange a b).vetoes = s.vetoes := rfl
@[simp] theorem clearRange_banks (a b : Nat) : (s.clearRange a b).banks = s.banks := rfl
@[simp] theorem clearRange_scrubPos (a b : Nat) : (s.clearRange a b).scrubPos = s.scrubPos := rfl
@[simp] theorem clearRange_hbms (a b : Nat) : (s.clearRange a b).hbms = s.hbms := rfl
@[simp] theorem clearRange_spent (a b : Nat) : (s.clearRange a b).spent = s.spent := rfl
@[simp] theorem clearRange_tolls (a b : Nat) : (s.clearRange a b).tolls = s.tolls := rfl
@[simp] theorem clearRange_throttle (a b : Nat) : (s.clearRange a b).throttle = s.throttle := rfl
@[simp] theorem clearRange_tide (a b : Nat) : (s.clearRange a b).tide = s.tide := rfl
@[simp] theorem clearRange_gnorm (a b : Nat) : (s.clearRange a b).gnorm = s.gnorm := rfl
@[simp] theorem clearRange_optHeld (a b : Nat) : (s.clearRange a b).optHeld = s.optHeld := rfl
@[simp] theorem clearRange_ckpt (a b : Nat) : (s.clearRange a b).ckpt = s.ckpt := rfl
@[simp] theorem clearRange_ports (a b : Nat) : (s.clearRange a b).ports = s.ports := rfl
@[simp] theorem clearRange_census (a b : Nat) : (s.clearRange a b).census = s.census := rfl
@[simp] theorem clearRange_cohwin (a b : Nat) : (s.clearRange a b).cohwin = s.cohwin := rfl
@[simp] theorem clearRange_lines (a b : Nat) : (s.clearRange a b).lines = s.lines := rfl
@[simp] theorem clearRange_slices (a b : Nat) : (s.clearRange a b).slices = s.slices := rfl
@[simp] theorem clearRange_flushing (a b : Nat) : (s.clearRange a b).flushing = s.flushing := rfl
@[simp] theorem clearRange_ctxs (a b : Nat) : (s.clearRange a b).ctxs = s.ctxs := rfl
@[simp] theorem clearRange_reports (a b : Nat) : (s.clearRange a b).reports = s.reports := rfl
@[simp] theorem clearRange_resets (a b : Nat) : (s.clearRange a b).resets = s.resets := rfl
@[simp] theorem clearRange_hold (a b : Nat) : (s.clearRange a b).hold = s.hold := rfl
@[simp] theorem clearRange_power (a b : Nat) : (s.clearRange a b).power = s.power := rfl
@[simp] theorem clearRange_traces (a b : Nat) : (s.clearRange a b).traces = s.traces := rfl
@[simp] theorem clearRange_log (a b : Nat) : (s.clearRange a b).log = s.log := rfl
@[simp] theorem clearRange_fuses (a b : Nat) : (s.clearRange a b).fuses = s.fuses := rfl
@[simp] theorem clearRange_flash (a b : Nat) : (s.clearRange a b).flash = s.flash := rfl
@[simp] theorem clearRange_boot (a b : Nat) : (s.clearRange a b).boot = s.boot := rfl
@[simp] theorem clearRange_pins (a b : Nat) : (s.clearRange a b).pins = s.pins := rfl
@[simp] theorem clearRange_cells (a b : Nat) : (s.clearRange a b).cells = s.cells := rfl
@[simp] theorem clearRange_margins (a b : Nat) : (s.clearRange a b).margins = s.margins := rfl
@[simp] theorem clearRange_secHeld (a b : Nat) : (s.clearRange a b).secHeld = s.secHeld := rfl
@[simp] theorem clearRange_owed (a b : Nat) : (s.clearRange a b).owed = s.owed := rfl
@[simp] theorem clearRange_exempt (a b : Nat) : (s.clearRange a b).exempt = s.exempt := rfl
@[simp] theorem clearRange_queued (a b : Nat) : (s.clearRange a b).queued = s.queued := rfl
@[simp] theorem clearRange_busQ (a b : Nat) : (s.clearRange a b).busQ = s.busQ := rfl
@[simp] theorem clearRange_imsic (a b : Nat) : (s.clearRange a b).imsic = s.imsic := rfl
@[simp] theorem clearRange_aplic (a b : Nat) : (s.clearRange a b).aplic = s.aplic := rfl
@[simp] theorem clearRange_wiping (a b : Nat) : (s.clearRange a b).wiping = s.wiping := rfl
@[simp] theorem clearRange_out (a b : Nat) : (s.clearRange a b).out = s.out := rfl
@[simp] theorem clearRange_free (a b : Nat) : (s.clearRange a b).free = s.free := rfl

/-! ### raise -/

@[simp] theorem raise_pending (ctx cls block inst addr man : Nat) : (s.raise ctx cls block inst addr man).pending = s.pending := rfl
@[simp] theorem raise_regs (ctx cls block inst addr man : Nat) : (s.raise ctx cls block inst addr man).regs = s.regs := rfl
@[simp] theorem raise_mem (ctx cls block inst addr man : Nat) : (s.raise ctx cls block inst addr man).mem = s.mem := rfl
@[simp] theorem raise_streams (ctx cls block inst addr man : Nat) : (s.raise ctx cls block inst addr man).streams = s.streams := rfl
@[simp] theorem raise_waiters (ctx cls block inst addr man : Nat) : (s.raise ctx cls block inst addr man).waiters = s.waiters := rfl
@[simp] theorem raise_bollards (ctx cls block inst addr man : Nat) : (s.raise ctx cls block inst addr man).bollards = s.bollards := rfl
@[simp] theorem raise_pilots (ctx cls block inst addr man : Nat) : (s.raise ctx cls block inst addr man).pilots = s.pilots := rfl
@[simp] theorem raise_engines (ctx cls block inst addr man : Nat) : (s.raise ctx cls block inst addr man).engines = s.engines := rfl
@[simp] theorem raise_cores (ctx cls block inst addr man : Nat) : (s.raise ctx cls block inst addr man).cores = s.cores := rfl
@[simp] theorem raise_edges (ctx cls block inst addr man : Nat) : (s.raise ctx cls block inst addr man).edges = s.edges := rfl
@[simp] theorem raise_net (ctx cls block inst addr man : Nat) : (s.raise ctx cls block inst addr man).net = s.net := rfl
@[simp] theorem raise_resps (ctx cls block inst addr man : Nat) : (s.raise ctx cls block inst addr man).resps = s.resps := rfl
@[simp] theorem raise_ferries (ctx cls block inst addr man : Nat) : (s.raise ctx cls block inst addr man).ferries = s.ferries := rfl
@[simp] theorem raise_landings (ctx cls block inst addr man : Nat) : (s.raise ctx cls block inst addr man).landings = s.landings := rfl
@[simp] theorem raise_moorings (ctx cls block inst addr man : Nat) : (s.raise ctx cls block inst addr man).moorings = s.moorings := rfl
@[simp] theorem raise_stages (ctx cls block inst addr man : Nat) : (s.raise ctx cls block inst addr man).stages = s.stages := rfl
@[simp] theorem raise_pontoons (ctx cls block inst addr man : Nat) : (s.raise ctx cls block inst addr man).pontoons = s.pontoons := rfl
@[simp] theorem raise_vetoes (ctx cls block inst addr man : Nat) : (s.raise ctx cls block inst addr man).vetoes = s.vetoes := rfl
@[simp] theorem raise_banks (ctx cls block inst addr man : Nat) : (s.raise ctx cls block inst addr man).banks = s.banks := rfl
@[simp] theorem raise_scrubPos (ctx cls block inst addr man : Nat) : (s.raise ctx cls block inst addr man).scrubPos = s.scrubPos := rfl
@[simp] theorem raise_hbms (ctx cls block inst addr man : Nat) : (s.raise ctx cls block inst addr man).hbms = s.hbms := rfl
@[simp] theorem raise_spent (ctx cls block inst addr man : Nat) : (s.raise ctx cls block inst addr man).spent = s.spent := rfl
@[simp] theorem raise_tolls (ctx cls block inst addr man : Nat) : (s.raise ctx cls block inst addr man).tolls = s.tolls := rfl
@[simp] theorem raise_throttle (ctx cls block inst addr man : Nat) : (s.raise ctx cls block inst addr man).throttle = s.throttle := rfl
@[simp] theorem raise_tide (ctx cls block inst addr man : Nat) : (s.raise ctx cls block inst addr man).tide = s.tide := rfl
@[simp] theorem raise_gnorm (ctx cls block inst addr man : Nat) : (s.raise ctx cls block inst addr man).gnorm = s.gnorm := rfl
@[simp] theorem raise_optHeld (ctx cls block inst addr man : Nat) : (s.raise ctx cls block inst addr man).optHeld = s.optHeld := rfl
@[simp] theorem raise_ckpt (ctx cls block inst addr man : Nat) : (s.raise ctx cls block inst addr man).ckpt = s.ckpt := rfl
@[simp] theorem raise_ports (ctx cls block inst addr man : Nat) : (s.raise ctx cls block inst addr man).ports = s.ports := rfl
@[simp] theorem raise_census (ctx cls block inst addr man : Nat) : (s.raise ctx cls block inst addr man).census = s.census := rfl
@[simp] theorem raise_cohwin (ctx cls block inst addr man : Nat) : (s.raise ctx cls block inst addr man).cohwin = s.cohwin := rfl
@[simp] theorem raise_lines (ctx cls block inst addr man : Nat) : (s.raise ctx cls block inst addr man).lines = s.lines := rfl
@[simp] theorem raise_slices (ctx cls block inst addr man : Nat) : (s.raise ctx cls block inst addr man).slices = s.slices := rfl
@[simp] theorem raise_flushing (ctx cls block inst addr man : Nat) : (s.raise ctx cls block inst addr man).flushing = s.flushing := rfl
@[simp] theorem raise_ctxs (ctx cls block inst addr man : Nat) : (s.raise ctx cls block inst addr man).ctxs = s.ctxs := rfl
@[simp] theorem raise_resets (ctx cls block inst addr man : Nat) : (s.raise ctx cls block inst addr man).resets = s.resets := rfl
@[simp] theorem raise_hold (ctx cls block inst addr man : Nat) : (s.raise ctx cls block inst addr man).hold = s.hold := rfl
@[simp] theorem raise_power (ctx cls block inst addr man : Nat) : (s.raise ctx cls block inst addr man).power = s.power := rfl
@[simp] theorem raise_traces (ctx cls block inst addr man : Nat) : (s.raise ctx cls block inst addr man).traces = s.traces := rfl
@[simp] theorem raise_log (ctx cls block inst addr man : Nat) : (s.raise ctx cls block inst addr man).log = s.log := rfl
@[simp] theorem raise_fuses (ctx cls block inst addr man : Nat) : (s.raise ctx cls block inst addr man).fuses = s.fuses := rfl
@[simp] theorem raise_flash (ctx cls block inst addr man : Nat) : (s.raise ctx cls block inst addr man).flash = s.flash := rfl
@[simp] theorem raise_boot (ctx cls block inst addr man : Nat) : (s.raise ctx cls block inst addr man).boot = s.boot := rfl
@[simp] theorem raise_pins (ctx cls block inst addr man : Nat) : (s.raise ctx cls block inst addr man).pins = s.pins := rfl
@[simp] theorem raise_cells (ctx cls block inst addr man : Nat) : (s.raise ctx cls block inst addr man).cells = s.cells := rfl
@[simp] theorem raise_margins (ctx cls block inst addr man : Nat) : (s.raise ctx cls block inst addr man).margins = s.margins := rfl
@[simp] theorem raise_secHeld (ctx cls block inst addr man : Nat) : (s.raise ctx cls block inst addr man).secHeld = s.secHeld := rfl
@[simp] theorem raise_owed (ctx cls block inst addr man : Nat) : (s.raise ctx cls block inst addr man).owed = s.owed := rfl
@[simp] theorem raise_exempt (ctx cls block inst addr man : Nat) : (s.raise ctx cls block inst addr man).exempt = s.exempt := rfl
@[simp] theorem raise_queued (ctx cls block inst addr man : Nat) : (s.raise ctx cls block inst addr man).queued = s.queued := rfl
@[simp] theorem raise_busQ (ctx cls block inst addr man : Nat) : (s.raise ctx cls block inst addr man).busQ = s.busQ := rfl
@[simp] theorem raise_imsic (ctx cls block inst addr man : Nat) : (s.raise ctx cls block inst addr man).imsic = s.imsic := rfl
@[simp] theorem raise_aplic (ctx cls block inst addr man : Nat) : (s.raise ctx cls block inst addr man).aplic = s.aplic := rfl
@[simp] theorem raise_wiping (ctx cls block inst addr man : Nat) : (s.raise ctx cls block inst addr man).wiping = s.wiping := rfl
@[simp] theorem raise_out (ctx cls block inst addr man : Nat) : (s.raise ctx cls block inst addr man).out = s.out := rfl
@[simp] theorem raise_free (ctx cls block inst addr man : Nat) : (s.raise ctx cls block inst addr man).free = s.free := rfl

/-! ### Accessors -/

@[simp] theorem setStream_get_bollard (i : Nat) (v : Stream) (m : Nat) : (s.setStream i v).bollard m = s.bollard m := rfl
@[simp] theorem setStream_get_pilot (i : Nat) (v : Stream) (m : Nat) : (s.setStream i v).pilot m = s.pilot m := rfl
@[simp] theorem setStream_get_engineQ (i : Nat) (v : Stream) (m : Nat) : (s.setStream i v).engineQ m = s.engineQ m := rfl
@[simp] theorem setStream_get_core (i : Nat) (v : Stream) (m : Nat) : (s.setStream i v).core m = s.core m := rfl
@[simp] theorem setStream_get_edge (i : Nat) (v : Stream) (m : Nat) : (s.setStream i v).edge m = s.edge m := rfl
@[simp] theorem setStream_get_ferry (i : Nat) (v : Stream) (m : Nat) : (s.setStream i v).ferry m = s.ferry m := rfl
@[simp] theorem setStream_get_landing (i : Nat) (v : Stream) (m : Nat) : (s.setStream i v).landing m = s.landing m := rfl
@[simp] theorem setStream_get_mooring (i : Nat) (v : Stream) (m : Nat) : (s.setStream i v).mooring m = s.mooring m := rfl
@[simp] theorem setStream_get_stage (i : Nat) (v : Stream) (m : Nat) : (s.setStream i v).stage m = s.stage m := rfl
@[simp] theorem setStream_get_pontoon (i : Nat) (v : Stream) (m : Nat) : (s.setStream i v).pontoon m = s.pontoon m := rfl
@[simp] theorem setStream_get_veto (i : Nat) (v : Stream) (m : Nat) : (s.setStream i v).veto m = s.veto m := rfl
@[simp] theorem setStream_get_bank (i : Nat) (v : Stream) (m : Nat) : (s.setStream i v).bank m = s.bank m := rfl
@[simp] theorem setStream_get_stack (i : Nat) (v : Stream) (m : Nat) : (s.setStream i v).stack m = s.stack m := rfl
@[simp] theorem setStream_get_port (i : Nat) (v : Stream) (m : Nat) : (s.setStream i v).port m = s.port m := rfl
@[simp] theorem setStream_get_line (i : Nat) (v : Stream) (m : Nat) : (s.setStream i v).line m = s.line m := rfl
@[simp] theorem setStream_get_ctx (i : Nat) (v : Stream) (m : Nat) : (s.setStream i v).ctx m = s.ctx m := rfl
@[simp] theorem setStream_get_traceBuf (i : Nat) (v : Stream) (m : Nat) : (s.setStream i v).traceBuf m = s.traceBuf m := rfl
@[simp] theorem stream_self (i : Nat) (v : Stream) : (s.setStream i v).stream i = v := sparse_get_put_self _ _ _ _
theorem stream_ne (i : Nat) (v : Stream) {m : Nat} (h : m ≠ i) : (s.setStream i v).stream m = s.stream m := sparse_get_put_ne _ _ _ h
@[simp] theorem setStream_reg (i : Nat) (v : Stream) (m : Nat) : (s.setStream i v).reg m = s.reg m := rfl
@[simp] theorem setStream_rd (i : Nat) (v : Stream) (g : FieldRef) (x y : Nat) : (s.setStream i v).rd g x y = s.rd g x y := rfl
@[simp] theorem setStream_byte (i : Nat) (v : Stream) (m : Nat) : (s.setStream i v).byte m = s.byte m := rfl
@[simp] theorem setBollard_get_stream (i : Nat) (v : Bollard) (m : Nat) : (s.setBollard i v).stream m = s.stream m := rfl
@[simp] theorem setBollard_get_pilot (i : Nat) (v : Bollard) (m : Nat) : (s.setBollard i v).pilot m = s.pilot m := rfl
@[simp] theorem setBollard_get_engineQ (i : Nat) (v : Bollard) (m : Nat) : (s.setBollard i v).engineQ m = s.engineQ m := rfl
@[simp] theorem setBollard_get_core (i : Nat) (v : Bollard) (m : Nat) : (s.setBollard i v).core m = s.core m := rfl
@[simp] theorem setBollard_get_edge (i : Nat) (v : Bollard) (m : Nat) : (s.setBollard i v).edge m = s.edge m := rfl
@[simp] theorem setBollard_get_ferry (i : Nat) (v : Bollard) (m : Nat) : (s.setBollard i v).ferry m = s.ferry m := rfl
@[simp] theorem setBollard_get_landing (i : Nat) (v : Bollard) (m : Nat) : (s.setBollard i v).landing m = s.landing m := rfl
@[simp] theorem setBollard_get_mooring (i : Nat) (v : Bollard) (m : Nat) : (s.setBollard i v).mooring m = s.mooring m := rfl
@[simp] theorem setBollard_get_stage (i : Nat) (v : Bollard) (m : Nat) : (s.setBollard i v).stage m = s.stage m := rfl
@[simp] theorem setBollard_get_pontoon (i : Nat) (v : Bollard) (m : Nat) : (s.setBollard i v).pontoon m = s.pontoon m := rfl
@[simp] theorem setBollard_get_veto (i : Nat) (v : Bollard) (m : Nat) : (s.setBollard i v).veto m = s.veto m := rfl
@[simp] theorem setBollard_get_bank (i : Nat) (v : Bollard) (m : Nat) : (s.setBollard i v).bank m = s.bank m := rfl
@[simp] theorem setBollard_get_stack (i : Nat) (v : Bollard) (m : Nat) : (s.setBollard i v).stack m = s.stack m := rfl
@[simp] theorem setBollard_get_port (i : Nat) (v : Bollard) (m : Nat) : (s.setBollard i v).port m = s.port m := rfl
@[simp] theorem setBollard_get_line (i : Nat) (v : Bollard) (m : Nat) : (s.setBollard i v).line m = s.line m := rfl
@[simp] theorem setBollard_get_ctx (i : Nat) (v : Bollard) (m : Nat) : (s.setBollard i v).ctx m = s.ctx m := rfl
@[simp] theorem setBollard_get_traceBuf (i : Nat) (v : Bollard) (m : Nat) : (s.setBollard i v).traceBuf m = s.traceBuf m := rfl
@[simp] theorem bollard_self (i : Nat) (v : Bollard) : (s.setBollard i v).bollard i = v := sparse_get_put_self _ _ _ _
theorem bollard_ne (i : Nat) (v : Bollard) {m : Nat} (h : m ≠ i) : (s.setBollard i v).bollard m = s.bollard m := sparse_get_put_ne _ _ _ h
@[simp] theorem setBollard_reg (i : Nat) (v : Bollard) (m : Nat) : (s.setBollard i v).reg m = s.reg m := rfl
@[simp] theorem setBollard_rd (i : Nat) (v : Bollard) (g : FieldRef) (x y : Nat) : (s.setBollard i v).rd g x y = s.rd g x y := rfl
@[simp] theorem setBollard_byte (i : Nat) (v : Bollard) (m : Nat) : (s.setBollard i v).byte m = s.byte m := rfl
@[simp] theorem setPilot_get_stream (i : Nat) (v : Pilot) (m : Nat) : (s.setPilot i v).stream m = s.stream m := rfl
@[simp] theorem setPilot_get_bollard (i : Nat) (v : Pilot) (m : Nat) : (s.setPilot i v).bollard m = s.bollard m := rfl
@[simp] theorem setPilot_get_engineQ (i : Nat) (v : Pilot) (m : Nat) : (s.setPilot i v).engineQ m = s.engineQ m := rfl
@[simp] theorem setPilot_get_core (i : Nat) (v : Pilot) (m : Nat) : (s.setPilot i v).core m = s.core m := rfl
@[simp] theorem setPilot_get_edge (i : Nat) (v : Pilot) (m : Nat) : (s.setPilot i v).edge m = s.edge m := rfl
@[simp] theorem setPilot_get_ferry (i : Nat) (v : Pilot) (m : Nat) : (s.setPilot i v).ferry m = s.ferry m := rfl
@[simp] theorem setPilot_get_landing (i : Nat) (v : Pilot) (m : Nat) : (s.setPilot i v).landing m = s.landing m := rfl
@[simp] theorem setPilot_get_mooring (i : Nat) (v : Pilot) (m : Nat) : (s.setPilot i v).mooring m = s.mooring m := rfl
@[simp] theorem setPilot_get_stage (i : Nat) (v : Pilot) (m : Nat) : (s.setPilot i v).stage m = s.stage m := rfl
@[simp] theorem setPilot_get_pontoon (i : Nat) (v : Pilot) (m : Nat) : (s.setPilot i v).pontoon m = s.pontoon m := rfl
@[simp] theorem setPilot_get_veto (i : Nat) (v : Pilot) (m : Nat) : (s.setPilot i v).veto m = s.veto m := rfl
@[simp] theorem setPilot_get_bank (i : Nat) (v : Pilot) (m : Nat) : (s.setPilot i v).bank m = s.bank m := rfl
@[simp] theorem setPilot_get_stack (i : Nat) (v : Pilot) (m : Nat) : (s.setPilot i v).stack m = s.stack m := rfl
@[simp] theorem setPilot_get_port (i : Nat) (v : Pilot) (m : Nat) : (s.setPilot i v).port m = s.port m := rfl
@[simp] theorem setPilot_get_line (i : Nat) (v : Pilot) (m : Nat) : (s.setPilot i v).line m = s.line m := rfl
@[simp] theorem setPilot_get_ctx (i : Nat) (v : Pilot) (m : Nat) : (s.setPilot i v).ctx m = s.ctx m := rfl
@[simp] theorem setPilot_get_traceBuf (i : Nat) (v : Pilot) (m : Nat) : (s.setPilot i v).traceBuf m = s.traceBuf m := rfl
@[simp] theorem pilot_self (i : Nat) (v : Pilot) : (s.setPilot i v).pilot i = v := sparse_get_put_self _ _ _ _
theorem pilot_ne (i : Nat) (v : Pilot) {m : Nat} (h : m ≠ i) : (s.setPilot i v).pilot m = s.pilot m := sparse_get_put_ne _ _ _ h
@[simp] theorem setPilot_reg (i : Nat) (v : Pilot) (m : Nat) : (s.setPilot i v).reg m = s.reg m := rfl
@[simp] theorem setPilot_rd (i : Nat) (v : Pilot) (g : FieldRef) (x y : Nat) : (s.setPilot i v).rd g x y = s.rd g x y := rfl
@[simp] theorem setPilot_byte (i : Nat) (v : Pilot) (m : Nat) : (s.setPilot i v).byte m = s.byte m := rfl
@[simp] theorem setEngineQ_get_stream (i : Nat) (v : EngineQ) (m : Nat) : (s.setEngineQ i v).stream m = s.stream m := rfl
@[simp] theorem setEngineQ_get_bollard (i : Nat) (v : EngineQ) (m : Nat) : (s.setEngineQ i v).bollard m = s.bollard m := rfl
@[simp] theorem setEngineQ_get_pilot (i : Nat) (v : EngineQ) (m : Nat) : (s.setEngineQ i v).pilot m = s.pilot m := rfl
@[simp] theorem setEngineQ_get_core (i : Nat) (v : EngineQ) (m : Nat) : (s.setEngineQ i v).core m = s.core m := rfl
@[simp] theorem setEngineQ_get_edge (i : Nat) (v : EngineQ) (m : Nat) : (s.setEngineQ i v).edge m = s.edge m := rfl
@[simp] theorem setEngineQ_get_ferry (i : Nat) (v : EngineQ) (m : Nat) : (s.setEngineQ i v).ferry m = s.ferry m := rfl
@[simp] theorem setEngineQ_get_landing (i : Nat) (v : EngineQ) (m : Nat) : (s.setEngineQ i v).landing m = s.landing m := rfl
@[simp] theorem setEngineQ_get_mooring (i : Nat) (v : EngineQ) (m : Nat) : (s.setEngineQ i v).mooring m = s.mooring m := rfl
@[simp] theorem setEngineQ_get_stage (i : Nat) (v : EngineQ) (m : Nat) : (s.setEngineQ i v).stage m = s.stage m := rfl
@[simp] theorem setEngineQ_get_pontoon (i : Nat) (v : EngineQ) (m : Nat) : (s.setEngineQ i v).pontoon m = s.pontoon m := rfl
@[simp] theorem setEngineQ_get_veto (i : Nat) (v : EngineQ) (m : Nat) : (s.setEngineQ i v).veto m = s.veto m := rfl
@[simp] theorem setEngineQ_get_bank (i : Nat) (v : EngineQ) (m : Nat) : (s.setEngineQ i v).bank m = s.bank m := rfl
@[simp] theorem setEngineQ_get_stack (i : Nat) (v : EngineQ) (m : Nat) : (s.setEngineQ i v).stack m = s.stack m := rfl
@[simp] theorem setEngineQ_get_port (i : Nat) (v : EngineQ) (m : Nat) : (s.setEngineQ i v).port m = s.port m := rfl
@[simp] theorem setEngineQ_get_line (i : Nat) (v : EngineQ) (m : Nat) : (s.setEngineQ i v).line m = s.line m := rfl
@[simp] theorem setEngineQ_get_ctx (i : Nat) (v : EngineQ) (m : Nat) : (s.setEngineQ i v).ctx m = s.ctx m := rfl
@[simp] theorem setEngineQ_get_traceBuf (i : Nat) (v : EngineQ) (m : Nat) : (s.setEngineQ i v).traceBuf m = s.traceBuf m := rfl
@[simp] theorem engineQ_self (i : Nat) (v : EngineQ) : (s.setEngineQ i v).engineQ i = v := sparse_get_put_self _ _ _ _
theorem engineQ_ne (i : Nat) (v : EngineQ) {m : Nat} (h : m ≠ i) : (s.setEngineQ i v).engineQ m = s.engineQ m := sparse_get_put_ne _ _ _ h
@[simp] theorem setEngineQ_reg (i : Nat) (v : EngineQ) (m : Nat) : (s.setEngineQ i v).reg m = s.reg m := rfl
@[simp] theorem setEngineQ_rd (i : Nat) (v : EngineQ) (g : FieldRef) (x y : Nat) : (s.setEngineQ i v).rd g x y = s.rd g x y := rfl
@[simp] theorem setEngineQ_byte (i : Nat) (v : EngineQ) (m : Nat) : (s.setEngineQ i v).byte m = s.byte m := rfl
@[simp] theorem setCore_get_stream (i : Nat) (v : Core) (m : Nat) : (s.setCore i v).stream m = s.stream m := rfl
@[simp] theorem setCore_get_bollard (i : Nat) (v : Core) (m : Nat) : (s.setCore i v).bollard m = s.bollard m := rfl
@[simp] theorem setCore_get_pilot (i : Nat) (v : Core) (m : Nat) : (s.setCore i v).pilot m = s.pilot m := rfl
@[simp] theorem setCore_get_engineQ (i : Nat) (v : Core) (m : Nat) : (s.setCore i v).engineQ m = s.engineQ m := rfl
@[simp] theorem setCore_get_edge (i : Nat) (v : Core) (m : Nat) : (s.setCore i v).edge m = s.edge m := rfl
@[simp] theorem setCore_get_ferry (i : Nat) (v : Core) (m : Nat) : (s.setCore i v).ferry m = s.ferry m := rfl
@[simp] theorem setCore_get_landing (i : Nat) (v : Core) (m : Nat) : (s.setCore i v).landing m = s.landing m := rfl
@[simp] theorem setCore_get_mooring (i : Nat) (v : Core) (m : Nat) : (s.setCore i v).mooring m = s.mooring m := rfl
@[simp] theorem setCore_get_stage (i : Nat) (v : Core) (m : Nat) : (s.setCore i v).stage m = s.stage m := rfl
@[simp] theorem setCore_get_pontoon (i : Nat) (v : Core) (m : Nat) : (s.setCore i v).pontoon m = s.pontoon m := rfl
@[simp] theorem setCore_get_veto (i : Nat) (v : Core) (m : Nat) : (s.setCore i v).veto m = s.veto m := rfl
@[simp] theorem setCore_get_bank (i : Nat) (v : Core) (m : Nat) : (s.setCore i v).bank m = s.bank m := rfl
@[simp] theorem setCore_get_stack (i : Nat) (v : Core) (m : Nat) : (s.setCore i v).stack m = s.stack m := rfl
@[simp] theorem setCore_get_port (i : Nat) (v : Core) (m : Nat) : (s.setCore i v).port m = s.port m := rfl
@[simp] theorem setCore_get_line (i : Nat) (v : Core) (m : Nat) : (s.setCore i v).line m = s.line m := rfl
@[simp] theorem setCore_get_ctx (i : Nat) (v : Core) (m : Nat) : (s.setCore i v).ctx m = s.ctx m := rfl
@[simp] theorem setCore_get_traceBuf (i : Nat) (v : Core) (m : Nat) : (s.setCore i v).traceBuf m = s.traceBuf m := rfl
@[simp] theorem core_self (i : Nat) (v : Core) : (s.setCore i v).core i = v := sparse_get_put_self _ _ _ _
theorem core_ne (i : Nat) (v : Core) {m : Nat} (h : m ≠ i) : (s.setCore i v).core m = s.core m := sparse_get_put_ne _ _ _ h
@[simp] theorem setCore_reg (i : Nat) (v : Core) (m : Nat) : (s.setCore i v).reg m = s.reg m := rfl
@[simp] theorem setCore_rd (i : Nat) (v : Core) (g : FieldRef) (x y : Nat) : (s.setCore i v).rd g x y = s.rd g x y := rfl
@[simp] theorem setCore_byte (i : Nat) (v : Core) (m : Nat) : (s.setCore i v).byte m = s.byte m := rfl
@[simp] theorem setEdge_get_stream (i : Nat) (v : EdgeDir) (m : Nat) : (s.setEdge i v).stream m = s.stream m := rfl
@[simp] theorem setEdge_get_bollard (i : Nat) (v : EdgeDir) (m : Nat) : (s.setEdge i v).bollard m = s.bollard m := rfl
@[simp] theorem setEdge_get_pilot (i : Nat) (v : EdgeDir) (m : Nat) : (s.setEdge i v).pilot m = s.pilot m := rfl
@[simp] theorem setEdge_get_engineQ (i : Nat) (v : EdgeDir) (m : Nat) : (s.setEdge i v).engineQ m = s.engineQ m := rfl
@[simp] theorem setEdge_get_core (i : Nat) (v : EdgeDir) (m : Nat) : (s.setEdge i v).core m = s.core m := rfl
@[simp] theorem setEdge_get_ferry (i : Nat) (v : EdgeDir) (m : Nat) : (s.setEdge i v).ferry m = s.ferry m := rfl
@[simp] theorem setEdge_get_landing (i : Nat) (v : EdgeDir) (m : Nat) : (s.setEdge i v).landing m = s.landing m := rfl
@[simp] theorem setEdge_get_mooring (i : Nat) (v : EdgeDir) (m : Nat) : (s.setEdge i v).mooring m = s.mooring m := rfl
@[simp] theorem setEdge_get_stage (i : Nat) (v : EdgeDir) (m : Nat) : (s.setEdge i v).stage m = s.stage m := rfl
@[simp] theorem setEdge_get_pontoon (i : Nat) (v : EdgeDir) (m : Nat) : (s.setEdge i v).pontoon m = s.pontoon m := rfl
@[simp] theorem setEdge_get_veto (i : Nat) (v : EdgeDir) (m : Nat) : (s.setEdge i v).veto m = s.veto m := rfl
@[simp] theorem setEdge_get_bank (i : Nat) (v : EdgeDir) (m : Nat) : (s.setEdge i v).bank m = s.bank m := rfl
@[simp] theorem setEdge_get_stack (i : Nat) (v : EdgeDir) (m : Nat) : (s.setEdge i v).stack m = s.stack m := rfl
@[simp] theorem setEdge_get_port (i : Nat) (v : EdgeDir) (m : Nat) : (s.setEdge i v).port m = s.port m := rfl
@[simp] theorem setEdge_get_line (i : Nat) (v : EdgeDir) (m : Nat) : (s.setEdge i v).line m = s.line m := rfl
@[simp] theorem setEdge_get_ctx (i : Nat) (v : EdgeDir) (m : Nat) : (s.setEdge i v).ctx m = s.ctx m := rfl
@[simp] theorem setEdge_get_traceBuf (i : Nat) (v : EdgeDir) (m : Nat) : (s.setEdge i v).traceBuf m = s.traceBuf m := rfl
@[simp] theorem edge_self (i : Nat) (v : EdgeDir) : (s.setEdge i v).edge i = v := sparse_get_put_self _ _ _ _
theorem edge_ne (i : Nat) (v : EdgeDir) {m : Nat} (h : m ≠ i) : (s.setEdge i v).edge m = s.edge m := sparse_get_put_ne _ _ _ h
@[simp] theorem setEdge_reg (i : Nat) (v : EdgeDir) (m : Nat) : (s.setEdge i v).reg m = s.reg m := rfl
@[simp] theorem setEdge_rd (i : Nat) (v : EdgeDir) (g : FieldRef) (x y : Nat) : (s.setEdge i v).rd g x y = s.rd g x y := rfl
@[simp] theorem setEdge_byte (i : Nat) (v : EdgeDir) (m : Nat) : (s.setEdge i v).byte m = s.byte m := rfl
@[simp] theorem setFerry_get_stream (i : Nat) (v : Ferry) (m : Nat) : (s.setFerry i v).stream m = s.stream m := rfl
@[simp] theorem setFerry_get_bollard (i : Nat) (v : Ferry) (m : Nat) : (s.setFerry i v).bollard m = s.bollard m := rfl
@[simp] theorem setFerry_get_pilot (i : Nat) (v : Ferry) (m : Nat) : (s.setFerry i v).pilot m = s.pilot m := rfl
@[simp] theorem setFerry_get_engineQ (i : Nat) (v : Ferry) (m : Nat) : (s.setFerry i v).engineQ m = s.engineQ m := rfl
@[simp] theorem setFerry_get_core (i : Nat) (v : Ferry) (m : Nat) : (s.setFerry i v).core m = s.core m := rfl
@[simp] theorem setFerry_get_edge (i : Nat) (v : Ferry) (m : Nat) : (s.setFerry i v).edge m = s.edge m := rfl
@[simp] theorem setFerry_get_landing (i : Nat) (v : Ferry) (m : Nat) : (s.setFerry i v).landing m = s.landing m := rfl
@[simp] theorem setFerry_get_mooring (i : Nat) (v : Ferry) (m : Nat) : (s.setFerry i v).mooring m = s.mooring m := rfl
@[simp] theorem setFerry_get_stage (i : Nat) (v : Ferry) (m : Nat) : (s.setFerry i v).stage m = s.stage m := rfl
@[simp] theorem setFerry_get_pontoon (i : Nat) (v : Ferry) (m : Nat) : (s.setFerry i v).pontoon m = s.pontoon m := rfl
@[simp] theorem setFerry_get_veto (i : Nat) (v : Ferry) (m : Nat) : (s.setFerry i v).veto m = s.veto m := rfl
@[simp] theorem setFerry_get_bank (i : Nat) (v : Ferry) (m : Nat) : (s.setFerry i v).bank m = s.bank m := rfl
@[simp] theorem setFerry_get_stack (i : Nat) (v : Ferry) (m : Nat) : (s.setFerry i v).stack m = s.stack m := rfl
@[simp] theorem setFerry_get_port (i : Nat) (v : Ferry) (m : Nat) : (s.setFerry i v).port m = s.port m := rfl
@[simp] theorem setFerry_get_line (i : Nat) (v : Ferry) (m : Nat) : (s.setFerry i v).line m = s.line m := rfl
@[simp] theorem setFerry_get_ctx (i : Nat) (v : Ferry) (m : Nat) : (s.setFerry i v).ctx m = s.ctx m := rfl
@[simp] theorem setFerry_get_traceBuf (i : Nat) (v : Ferry) (m : Nat) : (s.setFerry i v).traceBuf m = s.traceBuf m := rfl
@[simp] theorem ferry_self (i : Nat) (v : Ferry) : (s.setFerry i v).ferry i = v := sparse_get_put_self _ _ _ _
theorem ferry_ne (i : Nat) (v : Ferry) {m : Nat} (h : m ≠ i) : (s.setFerry i v).ferry m = s.ferry m := sparse_get_put_ne _ _ _ h
@[simp] theorem setFerry_reg (i : Nat) (v : Ferry) (m : Nat) : (s.setFerry i v).reg m = s.reg m := rfl
@[simp] theorem setFerry_rd (i : Nat) (v : Ferry) (g : FieldRef) (x y : Nat) : (s.setFerry i v).rd g x y = s.rd g x y := rfl
@[simp] theorem setFerry_byte (i : Nat) (v : Ferry) (m : Nat) : (s.setFerry i v).byte m = s.byte m := rfl
@[simp] theorem setLanding_get_stream (i : Nat) (v : Landing) (m : Nat) : (s.setLanding i v).stream m = s.stream m := rfl
@[simp] theorem setLanding_get_bollard (i : Nat) (v : Landing) (m : Nat) : (s.setLanding i v).bollard m = s.bollard m := rfl
@[simp] theorem setLanding_get_pilot (i : Nat) (v : Landing) (m : Nat) : (s.setLanding i v).pilot m = s.pilot m := rfl
@[simp] theorem setLanding_get_engineQ (i : Nat) (v : Landing) (m : Nat) : (s.setLanding i v).engineQ m = s.engineQ m := rfl
@[simp] theorem setLanding_get_core (i : Nat) (v : Landing) (m : Nat) : (s.setLanding i v).core m = s.core m := rfl
@[simp] theorem setLanding_get_edge (i : Nat) (v : Landing) (m : Nat) : (s.setLanding i v).edge m = s.edge m := rfl
@[simp] theorem setLanding_get_ferry (i : Nat) (v : Landing) (m : Nat) : (s.setLanding i v).ferry m = s.ferry m := rfl
@[simp] theorem setLanding_get_mooring (i : Nat) (v : Landing) (m : Nat) : (s.setLanding i v).mooring m = s.mooring m := rfl
@[simp] theorem setLanding_get_stage (i : Nat) (v : Landing) (m : Nat) : (s.setLanding i v).stage m = s.stage m := rfl
@[simp] theorem setLanding_get_pontoon (i : Nat) (v : Landing) (m : Nat) : (s.setLanding i v).pontoon m = s.pontoon m := rfl
@[simp] theorem setLanding_get_veto (i : Nat) (v : Landing) (m : Nat) : (s.setLanding i v).veto m = s.veto m := rfl
@[simp] theorem setLanding_get_bank (i : Nat) (v : Landing) (m : Nat) : (s.setLanding i v).bank m = s.bank m := rfl
@[simp] theorem setLanding_get_stack (i : Nat) (v : Landing) (m : Nat) : (s.setLanding i v).stack m = s.stack m := rfl
@[simp] theorem setLanding_get_port (i : Nat) (v : Landing) (m : Nat) : (s.setLanding i v).port m = s.port m := rfl
@[simp] theorem setLanding_get_line (i : Nat) (v : Landing) (m : Nat) : (s.setLanding i v).line m = s.line m := rfl
@[simp] theorem setLanding_get_ctx (i : Nat) (v : Landing) (m : Nat) : (s.setLanding i v).ctx m = s.ctx m := rfl
@[simp] theorem setLanding_get_traceBuf (i : Nat) (v : Landing) (m : Nat) : (s.setLanding i v).traceBuf m = s.traceBuf m := rfl
@[simp] theorem landing_self (i : Nat) (v : Landing) : (s.setLanding i v).landing i = v := sparse_get_put_self _ _ _ _
theorem landing_ne (i : Nat) (v : Landing) {m : Nat} (h : m ≠ i) : (s.setLanding i v).landing m = s.landing m := sparse_get_put_ne _ _ _ h
@[simp] theorem setLanding_reg (i : Nat) (v : Landing) (m : Nat) : (s.setLanding i v).reg m = s.reg m := rfl
@[simp] theorem setLanding_rd (i : Nat) (v : Landing) (g : FieldRef) (x y : Nat) : (s.setLanding i v).rd g x y = s.rd g x y := rfl
@[simp] theorem setLanding_byte (i : Nat) (v : Landing) (m : Nat) : (s.setLanding i v).byte m = s.byte m := rfl
@[simp] theorem setMooring_get_stream (i : Nat) (v : Mooring) (m : Nat) : (s.setMooring i v).stream m = s.stream m := rfl
@[simp] theorem setMooring_get_bollard (i : Nat) (v : Mooring) (m : Nat) : (s.setMooring i v).bollard m = s.bollard m := rfl
@[simp] theorem setMooring_get_pilot (i : Nat) (v : Mooring) (m : Nat) : (s.setMooring i v).pilot m = s.pilot m := rfl
@[simp] theorem setMooring_get_engineQ (i : Nat) (v : Mooring) (m : Nat) : (s.setMooring i v).engineQ m = s.engineQ m := rfl
@[simp] theorem setMooring_get_core (i : Nat) (v : Mooring) (m : Nat) : (s.setMooring i v).core m = s.core m := rfl
@[simp] theorem setMooring_get_edge (i : Nat) (v : Mooring) (m : Nat) : (s.setMooring i v).edge m = s.edge m := rfl
@[simp] theorem setMooring_get_ferry (i : Nat) (v : Mooring) (m : Nat) : (s.setMooring i v).ferry m = s.ferry m := rfl
@[simp] theorem setMooring_get_landing (i : Nat) (v : Mooring) (m : Nat) : (s.setMooring i v).landing m = s.landing m := rfl
@[simp] theorem setMooring_get_stage (i : Nat) (v : Mooring) (m : Nat) : (s.setMooring i v).stage m = s.stage m := rfl
@[simp] theorem setMooring_get_pontoon (i : Nat) (v : Mooring) (m : Nat) : (s.setMooring i v).pontoon m = s.pontoon m := rfl
@[simp] theorem setMooring_get_veto (i : Nat) (v : Mooring) (m : Nat) : (s.setMooring i v).veto m = s.veto m := rfl
@[simp] theorem setMooring_get_bank (i : Nat) (v : Mooring) (m : Nat) : (s.setMooring i v).bank m = s.bank m := rfl
@[simp] theorem setMooring_get_stack (i : Nat) (v : Mooring) (m : Nat) : (s.setMooring i v).stack m = s.stack m := rfl
@[simp] theorem setMooring_get_port (i : Nat) (v : Mooring) (m : Nat) : (s.setMooring i v).port m = s.port m := rfl
@[simp] theorem setMooring_get_line (i : Nat) (v : Mooring) (m : Nat) : (s.setMooring i v).line m = s.line m := rfl
@[simp] theorem setMooring_get_ctx (i : Nat) (v : Mooring) (m : Nat) : (s.setMooring i v).ctx m = s.ctx m := rfl
@[simp] theorem setMooring_get_traceBuf (i : Nat) (v : Mooring) (m : Nat) : (s.setMooring i v).traceBuf m = s.traceBuf m := rfl
@[simp] theorem mooring_self (i : Nat) (v : Mooring) : (s.setMooring i v).mooring i = v := sparse_get_put_self _ _ _ _
theorem mooring_ne (i : Nat) (v : Mooring) {m : Nat} (h : m ≠ i) : (s.setMooring i v).mooring m = s.mooring m := sparse_get_put_ne _ _ _ h
@[simp] theorem setMooring_reg (i : Nat) (v : Mooring) (m : Nat) : (s.setMooring i v).reg m = s.reg m := rfl
@[simp] theorem setMooring_rd (i : Nat) (v : Mooring) (g : FieldRef) (x y : Nat) : (s.setMooring i v).rd g x y = s.rd g x y := rfl
@[simp] theorem setMooring_byte (i : Nat) (v : Mooring) (m : Nat) : (s.setMooring i v).byte m = s.byte m := rfl
@[simp] theorem setStage_get_stream (i : Nat) (v : Stage) (m : Nat) : (s.setStage i v).stream m = s.stream m := rfl
@[simp] theorem setStage_get_bollard (i : Nat) (v : Stage) (m : Nat) : (s.setStage i v).bollard m = s.bollard m := rfl
@[simp] theorem setStage_get_pilot (i : Nat) (v : Stage) (m : Nat) : (s.setStage i v).pilot m = s.pilot m := rfl
@[simp] theorem setStage_get_engineQ (i : Nat) (v : Stage) (m : Nat) : (s.setStage i v).engineQ m = s.engineQ m := rfl
@[simp] theorem setStage_get_core (i : Nat) (v : Stage) (m : Nat) : (s.setStage i v).core m = s.core m := rfl
@[simp] theorem setStage_get_edge (i : Nat) (v : Stage) (m : Nat) : (s.setStage i v).edge m = s.edge m := rfl
@[simp] theorem setStage_get_ferry (i : Nat) (v : Stage) (m : Nat) : (s.setStage i v).ferry m = s.ferry m := rfl
@[simp] theorem setStage_get_landing (i : Nat) (v : Stage) (m : Nat) : (s.setStage i v).landing m = s.landing m := rfl
@[simp] theorem setStage_get_mooring (i : Nat) (v : Stage) (m : Nat) : (s.setStage i v).mooring m = s.mooring m := rfl
@[simp] theorem setStage_get_pontoon (i : Nat) (v : Stage) (m : Nat) : (s.setStage i v).pontoon m = s.pontoon m := rfl
@[simp] theorem setStage_get_veto (i : Nat) (v : Stage) (m : Nat) : (s.setStage i v).veto m = s.veto m := rfl
@[simp] theorem setStage_get_bank (i : Nat) (v : Stage) (m : Nat) : (s.setStage i v).bank m = s.bank m := rfl
@[simp] theorem setStage_get_stack (i : Nat) (v : Stage) (m : Nat) : (s.setStage i v).stack m = s.stack m := rfl
@[simp] theorem setStage_get_port (i : Nat) (v : Stage) (m : Nat) : (s.setStage i v).port m = s.port m := rfl
@[simp] theorem setStage_get_line (i : Nat) (v : Stage) (m : Nat) : (s.setStage i v).line m = s.line m := rfl
@[simp] theorem setStage_get_ctx (i : Nat) (v : Stage) (m : Nat) : (s.setStage i v).ctx m = s.ctx m := rfl
@[simp] theorem setStage_get_traceBuf (i : Nat) (v : Stage) (m : Nat) : (s.setStage i v).traceBuf m = s.traceBuf m := rfl
@[simp] theorem stage_self (i : Nat) (v : Stage) : (s.setStage i v).stage i = v := sparse_get_put_self _ _ _ _
theorem stage_ne (i : Nat) (v : Stage) {m : Nat} (h : m ≠ i) : (s.setStage i v).stage m = s.stage m := sparse_get_put_ne _ _ _ h
@[simp] theorem setStage_reg (i : Nat) (v : Stage) (m : Nat) : (s.setStage i v).reg m = s.reg m := rfl
@[simp] theorem setStage_rd (i : Nat) (v : Stage) (g : FieldRef) (x y : Nat) : (s.setStage i v).rd g x y = s.rd g x y := rfl
@[simp] theorem setStage_byte (i : Nat) (v : Stage) (m : Nat) : (s.setStage i v).byte m = s.byte m := rfl
@[simp] theorem setPontoon_get_stream (i : Nat) (v : Pontoon) (m : Nat) : (s.setPontoon i v).stream m = s.stream m := rfl
@[simp] theorem setPontoon_get_bollard (i : Nat) (v : Pontoon) (m : Nat) : (s.setPontoon i v).bollard m = s.bollard m := rfl
@[simp] theorem setPontoon_get_pilot (i : Nat) (v : Pontoon) (m : Nat) : (s.setPontoon i v).pilot m = s.pilot m := rfl
@[simp] theorem setPontoon_get_engineQ (i : Nat) (v : Pontoon) (m : Nat) : (s.setPontoon i v).engineQ m = s.engineQ m := rfl
@[simp] theorem setPontoon_get_core (i : Nat) (v : Pontoon) (m : Nat) : (s.setPontoon i v).core m = s.core m := rfl
@[simp] theorem setPontoon_get_edge (i : Nat) (v : Pontoon) (m : Nat) : (s.setPontoon i v).edge m = s.edge m := rfl
@[simp] theorem setPontoon_get_ferry (i : Nat) (v : Pontoon) (m : Nat) : (s.setPontoon i v).ferry m = s.ferry m := rfl
@[simp] theorem setPontoon_get_landing (i : Nat) (v : Pontoon) (m : Nat) : (s.setPontoon i v).landing m = s.landing m := rfl
@[simp] theorem setPontoon_get_mooring (i : Nat) (v : Pontoon) (m : Nat) : (s.setPontoon i v).mooring m = s.mooring m := rfl
@[simp] theorem setPontoon_get_stage (i : Nat) (v : Pontoon) (m : Nat) : (s.setPontoon i v).stage m = s.stage m := rfl
@[simp] theorem setPontoon_get_veto (i : Nat) (v : Pontoon) (m : Nat) : (s.setPontoon i v).veto m = s.veto m := rfl
@[simp] theorem setPontoon_get_bank (i : Nat) (v : Pontoon) (m : Nat) : (s.setPontoon i v).bank m = s.bank m := rfl
@[simp] theorem setPontoon_get_stack (i : Nat) (v : Pontoon) (m : Nat) : (s.setPontoon i v).stack m = s.stack m := rfl
@[simp] theorem setPontoon_get_port (i : Nat) (v : Pontoon) (m : Nat) : (s.setPontoon i v).port m = s.port m := rfl
@[simp] theorem setPontoon_get_line (i : Nat) (v : Pontoon) (m : Nat) : (s.setPontoon i v).line m = s.line m := rfl
@[simp] theorem setPontoon_get_ctx (i : Nat) (v : Pontoon) (m : Nat) : (s.setPontoon i v).ctx m = s.ctx m := rfl
@[simp] theorem setPontoon_get_traceBuf (i : Nat) (v : Pontoon) (m : Nat) : (s.setPontoon i v).traceBuf m = s.traceBuf m := rfl
@[simp] theorem pontoon_self (i : Nat) (v : Pontoon) : (s.setPontoon i v).pontoon i = v := sparse_get_put_self _ _ _ _
theorem pontoon_ne (i : Nat) (v : Pontoon) {m : Nat} (h : m ≠ i) : (s.setPontoon i v).pontoon m = s.pontoon m := sparse_get_put_ne _ _ _ h
@[simp] theorem setPontoon_reg (i : Nat) (v : Pontoon) (m : Nat) : (s.setPontoon i v).reg m = s.reg m := rfl
@[simp] theorem setPontoon_rd (i : Nat) (v : Pontoon) (g : FieldRef) (x y : Nat) : (s.setPontoon i v).rd g x y = s.rd g x y := rfl
@[simp] theorem setPontoon_byte (i : Nat) (v : Pontoon) (m : Nat) : (s.setPontoon i v).byte m = s.byte m := rfl
@[simp] theorem setVeto_get_stream (i : Nat) (v : Veto) (m : Nat) : (s.setVeto i v).stream m = s.stream m := rfl
@[simp] theorem setVeto_get_bollard (i : Nat) (v : Veto) (m : Nat) : (s.setVeto i v).bollard m = s.bollard m := rfl
@[simp] theorem setVeto_get_pilot (i : Nat) (v : Veto) (m : Nat) : (s.setVeto i v).pilot m = s.pilot m := rfl
@[simp] theorem setVeto_get_engineQ (i : Nat) (v : Veto) (m : Nat) : (s.setVeto i v).engineQ m = s.engineQ m := rfl
@[simp] theorem setVeto_get_core (i : Nat) (v : Veto) (m : Nat) : (s.setVeto i v).core m = s.core m := rfl
@[simp] theorem setVeto_get_edge (i : Nat) (v : Veto) (m : Nat) : (s.setVeto i v).edge m = s.edge m := rfl
@[simp] theorem setVeto_get_ferry (i : Nat) (v : Veto) (m : Nat) : (s.setVeto i v).ferry m = s.ferry m := rfl
@[simp] theorem setVeto_get_landing (i : Nat) (v : Veto) (m : Nat) : (s.setVeto i v).landing m = s.landing m := rfl
@[simp] theorem setVeto_get_mooring (i : Nat) (v : Veto) (m : Nat) : (s.setVeto i v).mooring m = s.mooring m := rfl
@[simp] theorem setVeto_get_stage (i : Nat) (v : Veto) (m : Nat) : (s.setVeto i v).stage m = s.stage m := rfl
@[simp] theorem setVeto_get_pontoon (i : Nat) (v : Veto) (m : Nat) : (s.setVeto i v).pontoon m = s.pontoon m := rfl
@[simp] theorem setVeto_get_bank (i : Nat) (v : Veto) (m : Nat) : (s.setVeto i v).bank m = s.bank m := rfl
@[simp] theorem setVeto_get_stack (i : Nat) (v : Veto) (m : Nat) : (s.setVeto i v).stack m = s.stack m := rfl
@[simp] theorem setVeto_get_port (i : Nat) (v : Veto) (m : Nat) : (s.setVeto i v).port m = s.port m := rfl
@[simp] theorem setVeto_get_line (i : Nat) (v : Veto) (m : Nat) : (s.setVeto i v).line m = s.line m := rfl
@[simp] theorem setVeto_get_ctx (i : Nat) (v : Veto) (m : Nat) : (s.setVeto i v).ctx m = s.ctx m := rfl
@[simp] theorem setVeto_get_traceBuf (i : Nat) (v : Veto) (m : Nat) : (s.setVeto i v).traceBuf m = s.traceBuf m := rfl
@[simp] theorem veto_self (i : Nat) (v : Veto) : (s.setVeto i v).veto i = v := sparse_get_put_self _ _ _ _
theorem veto_ne (i : Nat) (v : Veto) {m : Nat} (h : m ≠ i) : (s.setVeto i v).veto m = s.veto m := sparse_get_put_ne _ _ _ h
@[simp] theorem setVeto_reg (i : Nat) (v : Veto) (m : Nat) : (s.setVeto i v).reg m = s.reg m := rfl
@[simp] theorem setVeto_rd (i : Nat) (v : Veto) (g : FieldRef) (x y : Nat) : (s.setVeto i v).rd g x y = s.rd g x y := rfl
@[simp] theorem setVeto_byte (i : Nat) (v : Veto) (m : Nat) : (s.setVeto i v).byte m = s.byte m := rfl
@[simp] theorem setBank_get_stream (i : Nat) (v : Bank) (m : Nat) : (s.setBank i v).stream m = s.stream m := rfl
@[simp] theorem setBank_get_bollard (i : Nat) (v : Bank) (m : Nat) : (s.setBank i v).bollard m = s.bollard m := rfl
@[simp] theorem setBank_get_pilot (i : Nat) (v : Bank) (m : Nat) : (s.setBank i v).pilot m = s.pilot m := rfl
@[simp] theorem setBank_get_engineQ (i : Nat) (v : Bank) (m : Nat) : (s.setBank i v).engineQ m = s.engineQ m := rfl
@[simp] theorem setBank_get_core (i : Nat) (v : Bank) (m : Nat) : (s.setBank i v).core m = s.core m := rfl
@[simp] theorem setBank_get_edge (i : Nat) (v : Bank) (m : Nat) : (s.setBank i v).edge m = s.edge m := rfl
@[simp] theorem setBank_get_ferry (i : Nat) (v : Bank) (m : Nat) : (s.setBank i v).ferry m = s.ferry m := rfl
@[simp] theorem setBank_get_landing (i : Nat) (v : Bank) (m : Nat) : (s.setBank i v).landing m = s.landing m := rfl
@[simp] theorem setBank_get_mooring (i : Nat) (v : Bank) (m : Nat) : (s.setBank i v).mooring m = s.mooring m := rfl
@[simp] theorem setBank_get_stage (i : Nat) (v : Bank) (m : Nat) : (s.setBank i v).stage m = s.stage m := rfl
@[simp] theorem setBank_get_pontoon (i : Nat) (v : Bank) (m : Nat) : (s.setBank i v).pontoon m = s.pontoon m := rfl
@[simp] theorem setBank_get_veto (i : Nat) (v : Bank) (m : Nat) : (s.setBank i v).veto m = s.veto m := rfl
@[simp] theorem setBank_get_stack (i : Nat) (v : Bank) (m : Nat) : (s.setBank i v).stack m = s.stack m := rfl
@[simp] theorem setBank_get_port (i : Nat) (v : Bank) (m : Nat) : (s.setBank i v).port m = s.port m := rfl
@[simp] theorem setBank_get_line (i : Nat) (v : Bank) (m : Nat) : (s.setBank i v).line m = s.line m := rfl
@[simp] theorem setBank_get_ctx (i : Nat) (v : Bank) (m : Nat) : (s.setBank i v).ctx m = s.ctx m := rfl
@[simp] theorem setBank_get_traceBuf (i : Nat) (v : Bank) (m : Nat) : (s.setBank i v).traceBuf m = s.traceBuf m := rfl
@[simp] theorem bank_self (i : Nat) (v : Bank) : (s.setBank i v).bank i = v := sparse_get_put_self _ _ _ _
theorem bank_ne (i : Nat) (v : Bank) {m : Nat} (h : m ≠ i) : (s.setBank i v).bank m = s.bank m := sparse_get_put_ne _ _ _ h
@[simp] theorem setBank_reg (i : Nat) (v : Bank) (m : Nat) : (s.setBank i v).reg m = s.reg m := rfl
@[simp] theorem setBank_rd (i : Nat) (v : Bank) (g : FieldRef) (x y : Nat) : (s.setBank i v).rd g x y = s.rd g x y := rfl
@[simp] theorem setBank_byte (i : Nat) (v : Bank) (m : Nat) : (s.setBank i v).byte m = s.byte m := rfl
@[simp] theorem setStack_get_stream (i : Nat) (v : Stack) (m : Nat) : (s.setStack i v).stream m = s.stream m := rfl
@[simp] theorem setStack_get_bollard (i : Nat) (v : Stack) (m : Nat) : (s.setStack i v).bollard m = s.bollard m := rfl
@[simp] theorem setStack_get_pilot (i : Nat) (v : Stack) (m : Nat) : (s.setStack i v).pilot m = s.pilot m := rfl
@[simp] theorem setStack_get_engineQ (i : Nat) (v : Stack) (m : Nat) : (s.setStack i v).engineQ m = s.engineQ m := rfl
@[simp] theorem setStack_get_core (i : Nat) (v : Stack) (m : Nat) : (s.setStack i v).core m = s.core m := rfl
@[simp] theorem setStack_get_edge (i : Nat) (v : Stack) (m : Nat) : (s.setStack i v).edge m = s.edge m := rfl
@[simp] theorem setStack_get_ferry (i : Nat) (v : Stack) (m : Nat) : (s.setStack i v).ferry m = s.ferry m := rfl
@[simp] theorem setStack_get_landing (i : Nat) (v : Stack) (m : Nat) : (s.setStack i v).landing m = s.landing m := rfl
@[simp] theorem setStack_get_mooring (i : Nat) (v : Stack) (m : Nat) : (s.setStack i v).mooring m = s.mooring m := rfl
@[simp] theorem setStack_get_stage (i : Nat) (v : Stack) (m : Nat) : (s.setStack i v).stage m = s.stage m := rfl
@[simp] theorem setStack_get_pontoon (i : Nat) (v : Stack) (m : Nat) : (s.setStack i v).pontoon m = s.pontoon m := rfl
@[simp] theorem setStack_get_veto (i : Nat) (v : Stack) (m : Nat) : (s.setStack i v).veto m = s.veto m := rfl
@[simp] theorem setStack_get_bank (i : Nat) (v : Stack) (m : Nat) : (s.setStack i v).bank m = s.bank m := rfl
@[simp] theorem setStack_get_port (i : Nat) (v : Stack) (m : Nat) : (s.setStack i v).port m = s.port m := rfl
@[simp] theorem setStack_get_line (i : Nat) (v : Stack) (m : Nat) : (s.setStack i v).line m = s.line m := rfl
@[simp] theorem setStack_get_ctx (i : Nat) (v : Stack) (m : Nat) : (s.setStack i v).ctx m = s.ctx m := rfl
@[simp] theorem setStack_get_traceBuf (i : Nat) (v : Stack) (m : Nat) : (s.setStack i v).traceBuf m = s.traceBuf m := rfl
@[simp] theorem stack_self (i : Nat) (v : Stack) : (s.setStack i v).stack i = v := sparse_get_put_self _ _ _ _
theorem stack_ne (i : Nat) (v : Stack) {m : Nat} (h : m ≠ i) : (s.setStack i v).stack m = s.stack m := sparse_get_put_ne _ _ _ h
@[simp] theorem setStack_reg (i : Nat) (v : Stack) (m : Nat) : (s.setStack i v).reg m = s.reg m := rfl
@[simp] theorem setStack_rd (i : Nat) (v : Stack) (g : FieldRef) (x y : Nat) : (s.setStack i v).rd g x y = s.rd g x y := rfl
@[simp] theorem setStack_byte (i : Nat) (v : Stack) (m : Nat) : (s.setStack i v).byte m = s.byte m := rfl
@[simp] theorem setPort_get_stream (i : Nat) (v : Port) (m : Nat) : (s.setPort i v).stream m = s.stream m := rfl
@[simp] theorem setPort_get_bollard (i : Nat) (v : Port) (m : Nat) : (s.setPort i v).bollard m = s.bollard m := rfl
@[simp] theorem setPort_get_pilot (i : Nat) (v : Port) (m : Nat) : (s.setPort i v).pilot m = s.pilot m := rfl
@[simp] theorem setPort_get_engineQ (i : Nat) (v : Port) (m : Nat) : (s.setPort i v).engineQ m = s.engineQ m := rfl
@[simp] theorem setPort_get_core (i : Nat) (v : Port) (m : Nat) : (s.setPort i v).core m = s.core m := rfl
@[simp] theorem setPort_get_edge (i : Nat) (v : Port) (m : Nat) : (s.setPort i v).edge m = s.edge m := rfl
@[simp] theorem setPort_get_ferry (i : Nat) (v : Port) (m : Nat) : (s.setPort i v).ferry m = s.ferry m := rfl
@[simp] theorem setPort_get_landing (i : Nat) (v : Port) (m : Nat) : (s.setPort i v).landing m = s.landing m := rfl
@[simp] theorem setPort_get_mooring (i : Nat) (v : Port) (m : Nat) : (s.setPort i v).mooring m = s.mooring m := rfl
@[simp] theorem setPort_get_stage (i : Nat) (v : Port) (m : Nat) : (s.setPort i v).stage m = s.stage m := rfl
@[simp] theorem setPort_get_pontoon (i : Nat) (v : Port) (m : Nat) : (s.setPort i v).pontoon m = s.pontoon m := rfl
@[simp] theorem setPort_get_veto (i : Nat) (v : Port) (m : Nat) : (s.setPort i v).veto m = s.veto m := rfl
@[simp] theorem setPort_get_bank (i : Nat) (v : Port) (m : Nat) : (s.setPort i v).bank m = s.bank m := rfl
@[simp] theorem setPort_get_stack (i : Nat) (v : Port) (m : Nat) : (s.setPort i v).stack m = s.stack m := rfl
@[simp] theorem setPort_get_line (i : Nat) (v : Port) (m : Nat) : (s.setPort i v).line m = s.line m := rfl
@[simp] theorem setPort_get_ctx (i : Nat) (v : Port) (m : Nat) : (s.setPort i v).ctx m = s.ctx m := rfl
@[simp] theorem setPort_get_traceBuf (i : Nat) (v : Port) (m : Nat) : (s.setPort i v).traceBuf m = s.traceBuf m := rfl
@[simp] theorem port_self (i : Nat) (v : Port) : (s.setPort i v).port i = v := sparse_get_put_self _ _ _ _
theorem port_ne (i : Nat) (v : Port) {m : Nat} (h : m ≠ i) : (s.setPort i v).port m = s.port m := sparse_get_put_ne _ _ _ h
@[simp] theorem setPort_reg (i : Nat) (v : Port) (m : Nat) : (s.setPort i v).reg m = s.reg m := rfl
@[simp] theorem setPort_rd (i : Nat) (v : Port) (g : FieldRef) (x y : Nat) : (s.setPort i v).rd g x y = s.rd g x y := rfl
@[simp] theorem setPort_byte (i : Nat) (v : Port) (m : Nat) : (s.setPort i v).byte m = s.byte m := rfl
@[simp] theorem setLine_get_stream (i : Nat) (v : Line) (m : Nat) : (s.setLine i v).stream m = s.stream m := rfl
@[simp] theorem setLine_get_bollard (i : Nat) (v : Line) (m : Nat) : (s.setLine i v).bollard m = s.bollard m := rfl
@[simp] theorem setLine_get_pilot (i : Nat) (v : Line) (m : Nat) : (s.setLine i v).pilot m = s.pilot m := rfl
@[simp] theorem setLine_get_engineQ (i : Nat) (v : Line) (m : Nat) : (s.setLine i v).engineQ m = s.engineQ m := rfl
@[simp] theorem setLine_get_core (i : Nat) (v : Line) (m : Nat) : (s.setLine i v).core m = s.core m := rfl
@[simp] theorem setLine_get_edge (i : Nat) (v : Line) (m : Nat) : (s.setLine i v).edge m = s.edge m := rfl
@[simp] theorem setLine_get_ferry (i : Nat) (v : Line) (m : Nat) : (s.setLine i v).ferry m = s.ferry m := rfl
@[simp] theorem setLine_get_landing (i : Nat) (v : Line) (m : Nat) : (s.setLine i v).landing m = s.landing m := rfl
@[simp] theorem setLine_get_mooring (i : Nat) (v : Line) (m : Nat) : (s.setLine i v).mooring m = s.mooring m := rfl
@[simp] theorem setLine_get_stage (i : Nat) (v : Line) (m : Nat) : (s.setLine i v).stage m = s.stage m := rfl
@[simp] theorem setLine_get_pontoon (i : Nat) (v : Line) (m : Nat) : (s.setLine i v).pontoon m = s.pontoon m := rfl
@[simp] theorem setLine_get_veto (i : Nat) (v : Line) (m : Nat) : (s.setLine i v).veto m = s.veto m := rfl
@[simp] theorem setLine_get_bank (i : Nat) (v : Line) (m : Nat) : (s.setLine i v).bank m = s.bank m := rfl
@[simp] theorem setLine_get_stack (i : Nat) (v : Line) (m : Nat) : (s.setLine i v).stack m = s.stack m := rfl
@[simp] theorem setLine_get_port (i : Nat) (v : Line) (m : Nat) : (s.setLine i v).port m = s.port m := rfl
@[simp] theorem setLine_get_ctx (i : Nat) (v : Line) (m : Nat) : (s.setLine i v).ctx m = s.ctx m := rfl
@[simp] theorem setLine_get_traceBuf (i : Nat) (v : Line) (m : Nat) : (s.setLine i v).traceBuf m = s.traceBuf m := rfl
@[simp] theorem line_self (i : Nat) (v : Line) : (s.setLine i v).line i = v := sparse_get_put_self _ _ _ _
theorem line_ne (i : Nat) (v : Line) {m : Nat} (h : m ≠ i) : (s.setLine i v).line m = s.line m := sparse_get_put_ne _ _ _ h
@[simp] theorem setLine_reg (i : Nat) (v : Line) (m : Nat) : (s.setLine i v).reg m = s.reg m := rfl
@[simp] theorem setLine_rd (i : Nat) (v : Line) (g : FieldRef) (x y : Nat) : (s.setLine i v).rd g x y = s.rd g x y := rfl
@[simp] theorem setLine_byte (i : Nat) (v : Line) (m : Nat) : (s.setLine i v).byte m = s.byte m := rfl
@[simp] theorem setCtx_get_stream (i : Nat) (v : Ctx) (m : Nat) : (s.setCtx i v).stream m = s.stream m := rfl
@[simp] theorem setCtx_get_bollard (i : Nat) (v : Ctx) (m : Nat) : (s.setCtx i v).bollard m = s.bollard m := rfl
@[simp] theorem setCtx_get_pilot (i : Nat) (v : Ctx) (m : Nat) : (s.setCtx i v).pilot m = s.pilot m := rfl
@[simp] theorem setCtx_get_engineQ (i : Nat) (v : Ctx) (m : Nat) : (s.setCtx i v).engineQ m = s.engineQ m := rfl
@[simp] theorem setCtx_get_core (i : Nat) (v : Ctx) (m : Nat) : (s.setCtx i v).core m = s.core m := rfl
@[simp] theorem setCtx_get_edge (i : Nat) (v : Ctx) (m : Nat) : (s.setCtx i v).edge m = s.edge m := rfl
@[simp] theorem setCtx_get_ferry (i : Nat) (v : Ctx) (m : Nat) : (s.setCtx i v).ferry m = s.ferry m := rfl
@[simp] theorem setCtx_get_landing (i : Nat) (v : Ctx) (m : Nat) : (s.setCtx i v).landing m = s.landing m := rfl
@[simp] theorem setCtx_get_mooring (i : Nat) (v : Ctx) (m : Nat) : (s.setCtx i v).mooring m = s.mooring m := rfl
@[simp] theorem setCtx_get_stage (i : Nat) (v : Ctx) (m : Nat) : (s.setCtx i v).stage m = s.stage m := rfl
@[simp] theorem setCtx_get_pontoon (i : Nat) (v : Ctx) (m : Nat) : (s.setCtx i v).pontoon m = s.pontoon m := rfl
@[simp] theorem setCtx_get_veto (i : Nat) (v : Ctx) (m : Nat) : (s.setCtx i v).veto m = s.veto m := rfl
@[simp] theorem setCtx_get_bank (i : Nat) (v : Ctx) (m : Nat) : (s.setCtx i v).bank m = s.bank m := rfl
@[simp] theorem setCtx_get_stack (i : Nat) (v : Ctx) (m : Nat) : (s.setCtx i v).stack m = s.stack m := rfl
@[simp] theorem setCtx_get_port (i : Nat) (v : Ctx) (m : Nat) : (s.setCtx i v).port m = s.port m := rfl
@[simp] theorem setCtx_get_line (i : Nat) (v : Ctx) (m : Nat) : (s.setCtx i v).line m = s.line m := rfl
@[simp] theorem setCtx_get_traceBuf (i : Nat) (v : Ctx) (m : Nat) : (s.setCtx i v).traceBuf m = s.traceBuf m := rfl
@[simp] theorem ctx_self (i : Nat) (v : Ctx) : (s.setCtx i v).ctx i = v := sparse_get_put_self _ _ _ _
theorem ctx_ne (i : Nat) (v : Ctx) {m : Nat} (h : m ≠ i) : (s.setCtx i v).ctx m = s.ctx m := sparse_get_put_ne _ _ _ h
@[simp] theorem setCtx_reg (i : Nat) (v : Ctx) (m : Nat) : (s.setCtx i v).reg m = s.reg m := rfl
@[simp] theorem setCtx_rd (i : Nat) (v : Ctx) (g : FieldRef) (x y : Nat) : (s.setCtx i v).rd g x y = s.rd g x y := rfl
@[simp] theorem setCtx_byte (i : Nat) (v : Ctx) (m : Nat) : (s.setCtx i v).byte m = s.byte m := rfl
@[simp] theorem setTraceBuf_get_stream (i : Nat) (v : Trace) (m : Nat) : (s.setTraceBuf i v).stream m = s.stream m := rfl
@[simp] theorem setTraceBuf_get_bollard (i : Nat) (v : Trace) (m : Nat) : (s.setTraceBuf i v).bollard m = s.bollard m := rfl
@[simp] theorem setTraceBuf_get_pilot (i : Nat) (v : Trace) (m : Nat) : (s.setTraceBuf i v).pilot m = s.pilot m := rfl
@[simp] theorem setTraceBuf_get_engineQ (i : Nat) (v : Trace) (m : Nat) : (s.setTraceBuf i v).engineQ m = s.engineQ m := rfl
@[simp] theorem setTraceBuf_get_core (i : Nat) (v : Trace) (m : Nat) : (s.setTraceBuf i v).core m = s.core m := rfl
@[simp] theorem setTraceBuf_get_edge (i : Nat) (v : Trace) (m : Nat) : (s.setTraceBuf i v).edge m = s.edge m := rfl
@[simp] theorem setTraceBuf_get_ferry (i : Nat) (v : Trace) (m : Nat) : (s.setTraceBuf i v).ferry m = s.ferry m := rfl
@[simp] theorem setTraceBuf_get_landing (i : Nat) (v : Trace) (m : Nat) : (s.setTraceBuf i v).landing m = s.landing m := rfl
@[simp] theorem setTraceBuf_get_mooring (i : Nat) (v : Trace) (m : Nat) : (s.setTraceBuf i v).mooring m = s.mooring m := rfl
@[simp] theorem setTraceBuf_get_stage (i : Nat) (v : Trace) (m : Nat) : (s.setTraceBuf i v).stage m = s.stage m := rfl
@[simp] theorem setTraceBuf_get_pontoon (i : Nat) (v : Trace) (m : Nat) : (s.setTraceBuf i v).pontoon m = s.pontoon m := rfl
@[simp] theorem setTraceBuf_get_veto (i : Nat) (v : Trace) (m : Nat) : (s.setTraceBuf i v).veto m = s.veto m := rfl
@[simp] theorem setTraceBuf_get_bank (i : Nat) (v : Trace) (m : Nat) : (s.setTraceBuf i v).bank m = s.bank m := rfl
@[simp] theorem setTraceBuf_get_stack (i : Nat) (v : Trace) (m : Nat) : (s.setTraceBuf i v).stack m = s.stack m := rfl
@[simp] theorem setTraceBuf_get_port (i : Nat) (v : Trace) (m : Nat) : (s.setTraceBuf i v).port m = s.port m := rfl
@[simp] theorem setTraceBuf_get_line (i : Nat) (v : Trace) (m : Nat) : (s.setTraceBuf i v).line m = s.line m := rfl
@[simp] theorem setTraceBuf_get_ctx (i : Nat) (v : Trace) (m : Nat) : (s.setTraceBuf i v).ctx m = s.ctx m := rfl
@[simp] theorem traceBuf_self (i : Nat) (v : Trace) : (s.setTraceBuf i v).traceBuf i = v := sparse_get_put_self _ _ _ _
theorem traceBuf_ne (i : Nat) (v : Trace) {m : Nat} (h : m ≠ i) : (s.setTraceBuf i v).traceBuf m = s.traceBuf m := sparse_get_put_ne _ _ _ h
@[simp] theorem setTraceBuf_reg (i : Nat) (v : Trace) (m : Nat) : (s.setTraceBuf i v).reg m = s.reg m := rfl
@[simp] theorem setTraceBuf_rd (i : Nat) (v : Trace) (g : FieldRef) (x y : Nat) : (s.setTraceBuf i v).rd g x y = s.rd g x y := rfl
@[simp] theorem setTraceBuf_byte (i : Nat) (v : Trace) (m : Nat) : (s.setTraceBuf i v).byte m = s.byte m := rfl
@[simp] theorem setReg_get_stream (k : Nat) (w : Word) (m : Nat) : (s.setReg k w).stream m = s.stream m := rfl
@[simp] theorem setReg_get_bollard (k : Nat) (w : Word) (m : Nat) : (s.setReg k w).bollard m = s.bollard m := rfl
@[simp] theorem setReg_get_pilot (k : Nat) (w : Word) (m : Nat) : (s.setReg k w).pilot m = s.pilot m := rfl
@[simp] theorem setReg_get_engineQ (k : Nat) (w : Word) (m : Nat) : (s.setReg k w).engineQ m = s.engineQ m := rfl
@[simp] theorem setReg_get_core (k : Nat) (w : Word) (m : Nat) : (s.setReg k w).core m = s.core m := rfl
@[simp] theorem setReg_get_edge (k : Nat) (w : Word) (m : Nat) : (s.setReg k w).edge m = s.edge m := rfl
@[simp] theorem setReg_get_ferry (k : Nat) (w : Word) (m : Nat) : (s.setReg k w).ferry m = s.ferry m := rfl
@[simp] theorem setReg_get_landing (k : Nat) (w : Word) (m : Nat) : (s.setReg k w).landing m = s.landing m := rfl
@[simp] theorem setReg_get_mooring (k : Nat) (w : Word) (m : Nat) : (s.setReg k w).mooring m = s.mooring m := rfl
@[simp] theorem setReg_get_stage (k : Nat) (w : Word) (m : Nat) : (s.setReg k w).stage m = s.stage m := rfl
@[simp] theorem setReg_get_pontoon (k : Nat) (w : Word) (m : Nat) : (s.setReg k w).pontoon m = s.pontoon m := rfl
@[simp] theorem setReg_get_veto (k : Nat) (w : Word) (m : Nat) : (s.setReg k w).veto m = s.veto m := rfl
@[simp] theorem setReg_get_bank (k : Nat) (w : Word) (m : Nat) : (s.setReg k w).bank m = s.bank m := rfl
@[simp] theorem setReg_get_stack (k : Nat) (w : Word) (m : Nat) : (s.setReg k w).stack m = s.stack m := rfl
@[simp] theorem setReg_get_port (k : Nat) (w : Word) (m : Nat) : (s.setReg k w).port m = s.port m := rfl
@[simp] theorem setReg_get_line (k : Nat) (w : Word) (m : Nat) : (s.setReg k w).line m = s.line m := rfl
@[simp] theorem setReg_get_ctx (k : Nat) (w : Word) (m : Nat) : (s.setReg k w).ctx m = s.ctx m := rfl
@[simp] theorem setReg_get_traceBuf (k : Nat) (w : Word) (m : Nat) : (s.setReg k w).traceBuf m = s.traceBuf m := rfl
@[simp] theorem setReg_byte (k : Nat) (w : Word) (m : Nat) : (s.setReg k w).byte m = s.byte m := rfl
@[simp] theorem wr_get_stream (f : FieldRef) (i j n : Nat) (m : Nat) : (s.wr f i j n).stream m = s.stream m := setReg_get_stream s _ _ m
@[simp] theorem wr_get_bollard (f : FieldRef) (i j n : Nat) (m : Nat) : (s.wr f i j n).bollard m = s.bollard m := setReg_get_bollard s _ _ m
@[simp] theorem wr_get_pilot (f : FieldRef) (i j n : Nat) (m : Nat) : (s.wr f i j n).pilot m = s.pilot m := setReg_get_pilot s _ _ m
@[simp] theorem wr_get_engineQ (f : FieldRef) (i j n : Nat) (m : Nat) : (s.wr f i j n).engineQ m = s.engineQ m := setReg_get_engineQ s _ _ m
@[simp] theorem wr_get_core (f : FieldRef) (i j n : Nat) (m : Nat) : (s.wr f i j n).core m = s.core m := setReg_get_core s _ _ m
@[simp] theorem wr_get_edge (f : FieldRef) (i j n : Nat) (m : Nat) : (s.wr f i j n).edge m = s.edge m := setReg_get_edge s _ _ m
@[simp] theorem wr_get_ferry (f : FieldRef) (i j n : Nat) (m : Nat) : (s.wr f i j n).ferry m = s.ferry m := setReg_get_ferry s _ _ m
@[simp] theorem wr_get_landing (f : FieldRef) (i j n : Nat) (m : Nat) : (s.wr f i j n).landing m = s.landing m := setReg_get_landing s _ _ m
@[simp] theorem wr_get_mooring (f : FieldRef) (i j n : Nat) (m : Nat) : (s.wr f i j n).mooring m = s.mooring m := setReg_get_mooring s _ _ m
@[simp] theorem wr_get_stage (f : FieldRef) (i j n : Nat) (m : Nat) : (s.wr f i j n).stage m = s.stage m := setReg_get_stage s _ _ m
@[simp] theorem wr_get_pontoon (f : FieldRef) (i j n : Nat) (m : Nat) : (s.wr f i j n).pontoon m = s.pontoon m := setReg_get_pontoon s _ _ m
@[simp] theorem wr_get_veto (f : FieldRef) (i j n : Nat) (m : Nat) : (s.wr f i j n).veto m = s.veto m := setReg_get_veto s _ _ m
@[simp] theorem wr_get_bank (f : FieldRef) (i j n : Nat) (m : Nat) : (s.wr f i j n).bank m = s.bank m := setReg_get_bank s _ _ m
@[simp] theorem wr_get_stack (f : FieldRef) (i j n : Nat) (m : Nat) : (s.wr f i j n).stack m = s.stack m := setReg_get_stack s _ _ m
@[simp] theorem wr_get_port (f : FieldRef) (i j n : Nat) (m : Nat) : (s.wr f i j n).port m = s.port m := setReg_get_port s _ _ m
@[simp] theorem wr_get_line (f : FieldRef) (i j n : Nat) (m : Nat) : (s.wr f i j n).line m = s.line m := setReg_get_line s _ _ m
@[simp] theorem wr_get_ctx (f : FieldRef) (i j n : Nat) (m : Nat) : (s.wr f i j n).ctx m = s.ctx m := setReg_get_ctx s _ _ m
@[simp] theorem wr_get_traceBuf (f : FieldRef) (i j n : Nat) (m : Nat) : (s.wr f i j n).traceBuf m = s.traceBuf m := setReg_get_traceBuf s _ _ m
@[simp] theorem wr_byte (f : FieldRef) (i j n : Nat) (m : Nat) : (s.wr f i j n).byte m = s.byte m := setReg_byte s _ _ m
@[simp] theorem poke_get_stream (a : Nat) (bs : List Byte) (m : Nat) : (s.poke a bs).stream m = s.stream m := rfl
@[simp] theorem poke_get_bollard (a : Nat) (bs : List Byte) (m : Nat) : (s.poke a bs).bollard m = s.bollard m := rfl
@[simp] theorem poke_get_pilot (a : Nat) (bs : List Byte) (m : Nat) : (s.poke a bs).pilot m = s.pilot m := rfl
@[simp] theorem poke_get_engineQ (a : Nat) (bs : List Byte) (m : Nat) : (s.poke a bs).engineQ m = s.engineQ m := rfl
@[simp] theorem poke_get_core (a : Nat) (bs : List Byte) (m : Nat) : (s.poke a bs).core m = s.core m := rfl
@[simp] theorem poke_get_edge (a : Nat) (bs : List Byte) (m : Nat) : (s.poke a bs).edge m = s.edge m := rfl
@[simp] theorem poke_get_ferry (a : Nat) (bs : List Byte) (m : Nat) : (s.poke a bs).ferry m = s.ferry m := rfl
@[simp] theorem poke_get_landing (a : Nat) (bs : List Byte) (m : Nat) : (s.poke a bs).landing m = s.landing m := rfl
@[simp] theorem poke_get_mooring (a : Nat) (bs : List Byte) (m : Nat) : (s.poke a bs).mooring m = s.mooring m := rfl
@[simp] theorem poke_get_stage (a : Nat) (bs : List Byte) (m : Nat) : (s.poke a bs).stage m = s.stage m := rfl
@[simp] theorem poke_get_pontoon (a : Nat) (bs : List Byte) (m : Nat) : (s.poke a bs).pontoon m = s.pontoon m := rfl
@[simp] theorem poke_get_veto (a : Nat) (bs : List Byte) (m : Nat) : (s.poke a bs).veto m = s.veto m := rfl
@[simp] theorem poke_get_bank (a : Nat) (bs : List Byte) (m : Nat) : (s.poke a bs).bank m = s.bank m := rfl
@[simp] theorem poke_get_stack (a : Nat) (bs : List Byte) (m : Nat) : (s.poke a bs).stack m = s.stack m := rfl
@[simp] theorem poke_get_port (a : Nat) (bs : List Byte) (m : Nat) : (s.poke a bs).port m = s.port m := rfl
@[simp] theorem poke_get_line (a : Nat) (bs : List Byte) (m : Nat) : (s.poke a bs).line m = s.line m := rfl
@[simp] theorem poke_get_ctx (a : Nat) (bs : List Byte) (m : Nat) : (s.poke a bs).ctx m = s.ctx m := rfl
@[simp] theorem poke_get_traceBuf (a : Nat) (bs : List Byte) (m : Nat) : (s.poke a bs).traceBuf m = s.traceBuf m := rfl
@[simp] theorem poke_reg (a : Nat) (bs : List Byte) (m : Nat) : (s.poke a bs).reg m = s.reg m := rfl
@[simp] theorem poke_rd (a : Nat) (bs : List Byte) (g : FieldRef) (x y : Nat) : (s.poke a bs).rd g x y = s.rd g x y := rfl
@[simp] theorem clearRange_get_stream (a b : Nat) (m : Nat) : (s.clearRange a b).stream m = s.stream m := rfl
@[simp] theorem clearRange_get_bollard (a b : Nat) (m : Nat) : (s.clearRange a b).bollard m = s.bollard m := rfl
@[simp] theorem clearRange_get_pilot (a b : Nat) (m : Nat) : (s.clearRange a b).pilot m = s.pilot m := rfl
@[simp] theorem clearRange_get_engineQ (a b : Nat) (m : Nat) : (s.clearRange a b).engineQ m = s.engineQ m := rfl
@[simp] theorem clearRange_get_core (a b : Nat) (m : Nat) : (s.clearRange a b).core m = s.core m := rfl
@[simp] theorem clearRange_get_edge (a b : Nat) (m : Nat) : (s.clearRange a b).edge m = s.edge m := rfl
@[simp] theorem clearRange_get_ferry (a b : Nat) (m : Nat) : (s.clearRange a b).ferry m = s.ferry m := rfl
@[simp] theorem clearRange_get_landing (a b : Nat) (m : Nat) : (s.clearRange a b).landing m = s.landing m := rfl
@[simp] theorem clearRange_get_mooring (a b : Nat) (m : Nat) : (s.clearRange a b).mooring m = s.mooring m := rfl
@[simp] theorem clearRange_get_stage (a b : Nat) (m : Nat) : (s.clearRange a b).stage m = s.stage m := rfl
@[simp] theorem clearRange_get_pontoon (a b : Nat) (m : Nat) : (s.clearRange a b).pontoon m = s.pontoon m := rfl
@[simp] theorem clearRange_get_veto (a b : Nat) (m : Nat) : (s.clearRange a b).veto m = s.veto m := rfl
@[simp] theorem clearRange_get_bank (a b : Nat) (m : Nat) : (s.clearRange a b).bank m = s.bank m := rfl
@[simp] theorem clearRange_get_stack (a b : Nat) (m : Nat) : (s.clearRange a b).stack m = s.stack m := rfl
@[simp] theorem clearRange_get_port (a b : Nat) (m : Nat) : (s.clearRange a b).port m = s.port m := rfl
@[simp] theorem clearRange_get_line (a b : Nat) (m : Nat) : (s.clearRange a b).line m = s.line m := rfl
@[simp] theorem clearRange_get_ctx (a b : Nat) (m : Nat) : (s.clearRange a b).ctx m = s.ctx m := rfl
@[simp] theorem clearRange_get_traceBuf (a b : Nat) (m : Nat) : (s.clearRange a b).traceBuf m = s.traceBuf m := rfl
@[simp] theorem clearRange_reg (a b : Nat) (m : Nat) : (s.clearRange a b).reg m = s.reg m := rfl
@[simp] theorem clearRange_rd (a b : Nat) (g : FieldRef) (x y : Nat) : (s.clearRange a b).rd g x y = s.rd g x y := rfl
@[simp] theorem raise_get_stream (ctx cls block inst addr man : Nat) (m : Nat) : (s.raise ctx cls block inst addr man).stream m = s.stream m := rfl
@[simp] theorem raise_get_bollard (ctx cls block inst addr man : Nat) (m : Nat) : (s.raise ctx cls block inst addr man).bollard m = s.bollard m := rfl
@[simp] theorem raise_get_pilot (ctx cls block inst addr man : Nat) (m : Nat) : (s.raise ctx cls block inst addr man).pilot m = s.pilot m := rfl
@[simp] theorem raise_get_engineQ (ctx cls block inst addr man : Nat) (m : Nat) : (s.raise ctx cls block inst addr man).engineQ m = s.engineQ m := rfl
@[simp] theorem raise_get_core (ctx cls block inst addr man : Nat) (m : Nat) : (s.raise ctx cls block inst addr man).core m = s.core m := rfl
@[simp] theorem raise_get_edge (ctx cls block inst addr man : Nat) (m : Nat) : (s.raise ctx cls block inst addr man).edge m = s.edge m := rfl
@[simp] theorem raise_get_ferry (ctx cls block inst addr man : Nat) (m : Nat) : (s.raise ctx cls block inst addr man).ferry m = s.ferry m := rfl
@[simp] theorem raise_get_landing (ctx cls block inst addr man : Nat) (m : Nat) : (s.raise ctx cls block inst addr man).landing m = s.landing m := rfl
@[simp] theorem raise_get_mooring (ctx cls block inst addr man : Nat) (m : Nat) : (s.raise ctx cls block inst addr man).mooring m = s.mooring m := rfl
@[simp] theorem raise_get_stage (ctx cls block inst addr man : Nat) (m : Nat) : (s.raise ctx cls block inst addr man).stage m = s.stage m := rfl
@[simp] theorem raise_get_pontoon (ctx cls block inst addr man : Nat) (m : Nat) : (s.raise ctx cls block inst addr man).pontoon m = s.pontoon m := rfl
@[simp] theorem raise_get_veto (ctx cls block inst addr man : Nat) (m : Nat) : (s.raise ctx cls block inst addr man).veto m = s.veto m := rfl
@[simp] theorem raise_get_bank (ctx cls block inst addr man : Nat) (m : Nat) : (s.raise ctx cls block inst addr man).bank m = s.bank m := rfl
@[simp] theorem raise_get_stack (ctx cls block inst addr man : Nat) (m : Nat) : (s.raise ctx cls block inst addr man).stack m = s.stack m := rfl
@[simp] theorem raise_get_port (ctx cls block inst addr man : Nat) (m : Nat) : (s.raise ctx cls block inst addr man).port m = s.port m := rfl
@[simp] theorem raise_get_line (ctx cls block inst addr man : Nat) (m : Nat) : (s.raise ctx cls block inst addr man).line m = s.line m := rfl
@[simp] theorem raise_get_ctx (ctx cls block inst addr man : Nat) (m : Nat) : (s.raise ctx cls block inst addr man).ctx m = s.ctx m := rfl
@[simp] theorem raise_get_traceBuf (ctx cls block inst addr man : Nat) (m : Nat) : (s.raise ctx cls block inst addr man).traceBuf m = s.traceBuf m := rfl
@[simp] theorem raise_reg (ctx cls block inst addr man : Nat) (m : Nat) : (s.raise ctx cls block inst addr man).reg m = s.reg m := rfl
@[simp] theorem raise_rd (ctx cls block inst addr man : Nat) (g : FieldRef) (x y : Nat) : (s.raise ctx cls block inst addr man).rd g x y = s.rd g x y := rfl
@[simp] theorem raise_byte (ctx cls block inst addr man : Nat) (m : Nat) : (s.raise ctx cls block inst addr man).byte m = s.byte m := rfl

/-! ### Registers -/

@[simp] theorem reg_self (k : Nat) (w : Word) : (s.setReg k w).reg k = w := sparse_get_put_self _ _ _ _
theorem reg_ne (k : Nat) (w : Word) {m : Nat} (h : m ≠ k) : (s.setReg k w).reg m = s.reg m := sparse_get_put_ne _ _ _ h

/-- A field's store changes its register only. -/
theorem wr_reg_ne (f : FieldRef) (i j n : Nat) {m : Nat} (h : m ≠ f.key i j) : (s.wr f i j n).reg m = s.reg m :=
  reg_ne s _ _ h

theorem wr_reg_self (f : FieldRef) (i j n : Nat) :
    (s.wr f i j n).reg (f.key i j) = setBits (s.reg (f.key i j)) f.lo f.width n := reg_self s _ _

/-! ### Events: registers and what leaves the block -/

/-- The state after differs in registers and in what left the block only. -/
theorem shape_trans {s t u : State} (h1 : t = { s with regs := t.regs, imsic := t.imsic, out := t.out })
    (h2 : u = { t with regs := u.regs, imsic := u.imsic, out := u.out }) : u = { s with regs := u.regs, imsic := u.imsic, out := u.out } := by
  cases s; cases t; cases u; simp_all

theorem setReg_shape (k : Nat) (w : Word) :
    s.setReg k w = { s with regs := (s.setReg k w).regs, imsic := (s.setReg k w).imsic, out := (s.setReg k w).out } := rfl

theorem wr_shape (f : FieldRef) (i j n : Nat) :
    s.wr f i j n = { s with regs := (s.wr f i j n).regs, imsic := (s.wr f i j n).imsic, out := (s.wr f i j n).out } := setReg_shape s _ _

/-- A message changes only what leaves the block. -/
theorem sendMsi_shape (b i : Nat) : s.sendMsi b i = { s with regs := (s.sendMsi b i).regs, imsic := (s.sendMsi b i).imsic, out := (s.sendMsi b i).out } := by
  unfold State.sendMsi; split <;> rfl

theorem setEvents_shape (b i : Nat) (ev en : Word) :
    s.setEvents b i ev en = { s with regs := (s.setEvents b i ev en).regs, imsic := (s.setEvents b i ev en).imsic, out := (s.setEvents b i ev en).out } := by
  unfold State.setEvents; dsimp only; split
  · exact shape_trans (shape_trans (setReg_shape s _ _) (setReg_shape _ _ _)) (sendMsi_shape _ _ _)
  · exact shape_trans (setReg_shape s _ _) (setReg_shape _ _ _)

/-- An event changes registers and what leaves the block. -/
theorem event_shape (b i n : Nat) :
    s.event b i n = { s with regs := (s.event b i n).regs, imsic := (s.event b i n).imsic, out := (s.event b i n).out } := by
  unfold State.event; exact setEvents_shape s b i _ _

theorem bump_shape (f : FieldRef) (i j n : Nat) :
    s.bump f i j n = { s with regs := (s.bump f i j n).regs, imsic := (s.bump f i j n).imsic, out := (s.bump f i j n).out } := by
  unfold State.bump; dsimp only; split
  · rfl
  · split
    · exact wr_shape s _ _ _ _
    · split
      · exact shape_trans (wr_shape s _ _ _ _) (event_shape _ _ _ _)
      · exact wr_shape s _ _ _ _

@[simp] theorem sendMsi_pending (b i : Nat) : (s.sendMsi b i).pending = s.pending := by rw [sendMsi_shape]
@[simp] theorem sendMsi_mem (b i : Nat) : (s.sendMsi b i).mem = s.mem := by rw [sendMsi_shape]
@[simp] theorem sendMsi_streams (b i : Nat) : (s.sendMsi b i).streams = s.streams := by rw [sendMsi_shape]
@[simp] theorem sendMsi_waiters (b i : Nat) : (s.sendMsi b i).waiters = s.waiters := by rw [sendMsi_shape]
@[simp] theorem sendMsi_bollards (b i : Nat) : (s.sendMsi b i).bollards = s.bollards := by rw [sendMsi_shape]
@[simp] theorem sendMsi_pilots (b i : Nat) : (s.sendMsi b i).pilots = s.pilots := by rw [sendMsi_shape]
@[simp] theorem sendMsi_engines (b i : Nat) : (s.sendMsi b i).engines = s.engines := by rw [sendMsi_shape]
@[simp] theorem sendMsi_cores (b i : Nat) : (s.sendMsi b i).cores = s.cores := by rw [sendMsi_shape]
@[simp] theorem sendMsi_edges (b i : Nat) : (s.sendMsi b i).edges = s.edges := by rw [sendMsi_shape]
@[simp] theorem sendMsi_net (b i : Nat) : (s.sendMsi b i).net = s.net := by rw [sendMsi_shape]
@[simp] theorem sendMsi_resps (b i : Nat) : (s.sendMsi b i).resps = s.resps := by rw [sendMsi_shape]
@[simp] theorem sendMsi_ferries (b i : Nat) : (s.sendMsi b i).ferries = s.ferries := by rw [sendMsi_shape]
@[simp] theorem sendMsi_landings (b i : Nat) : (s.sendMsi b i).landings = s.landings := by rw [sendMsi_shape]
@[simp] theorem sendMsi_moorings (b i : Nat) : (s.sendMsi b i).moorings = s.moorings := by rw [sendMsi_shape]
@[simp] theorem sendMsi_stages (b i : Nat) : (s.sendMsi b i).stages = s.stages := by rw [sendMsi_shape]
@[simp] theorem sendMsi_pontoons (b i : Nat) : (s.sendMsi b i).pontoons = s.pontoons := by rw [sendMsi_shape]
@[simp] theorem sendMsi_vetoes (b i : Nat) : (s.sendMsi b i).vetoes = s.vetoes := by rw [sendMsi_shape]
@[simp] theorem sendMsi_banks (b i : Nat) : (s.sendMsi b i).banks = s.banks := by rw [sendMsi_shape]
@[simp] theorem sendMsi_scrubPos (b i : Nat) : (s.sendMsi b i).scrubPos = s.scrubPos := by rw [sendMsi_shape]
@[simp] theorem sendMsi_hbms (b i : Nat) : (s.sendMsi b i).hbms = s.hbms := by rw [sendMsi_shape]
@[simp] theorem sendMsi_spent (b i : Nat) : (s.sendMsi b i).spent = s.spent := by rw [sendMsi_shape]
@[simp] theorem sendMsi_tolls (b i : Nat) : (s.sendMsi b i).tolls = s.tolls := by rw [sendMsi_shape]
@[simp] theorem sendMsi_throttle (b i : Nat) : (s.sendMsi b i).throttle = s.throttle := by rw [sendMsi_shape]
@[simp] theorem sendMsi_tide (b i : Nat) : (s.sendMsi b i).tide = s.tide := by rw [sendMsi_shape]
@[simp] theorem sendMsi_gnorm (b i : Nat) : (s.sendMsi b i).gnorm = s.gnorm := by rw [sendMsi_shape]
@[simp] theorem sendMsi_optHeld (b i : Nat) : (s.sendMsi b i).optHeld = s.optHeld := by rw [sendMsi_shape]
@[simp] theorem sendMsi_ckpt (b i : Nat) : (s.sendMsi b i).ckpt = s.ckpt := by rw [sendMsi_shape]
@[simp] theorem sendMsi_ports (b i : Nat) : (s.sendMsi b i).ports = s.ports := by rw [sendMsi_shape]
@[simp] theorem sendMsi_census (b i : Nat) : (s.sendMsi b i).census = s.census := by rw [sendMsi_shape]
@[simp] theorem sendMsi_cohwin (b i : Nat) : (s.sendMsi b i).cohwin = s.cohwin := by rw [sendMsi_shape]
@[simp] theorem sendMsi_lines (b i : Nat) : (s.sendMsi b i).lines = s.lines := by rw [sendMsi_shape]
@[simp] theorem sendMsi_slices (b i : Nat) : (s.sendMsi b i).slices = s.slices := by rw [sendMsi_shape]
@[simp] theorem sendMsi_flushing (b i : Nat) : (s.sendMsi b i).flushing = s.flushing := by rw [sendMsi_shape]
@[simp] theorem sendMsi_ctxs (b i : Nat) : (s.sendMsi b i).ctxs = s.ctxs := by rw [sendMsi_shape]
@[simp] theorem sendMsi_reports (b i : Nat) : (s.sendMsi b i).reports = s.reports := by rw [sendMsi_shape]
@[simp] theorem sendMsi_resets (b i : Nat) : (s.sendMsi b i).resets = s.resets := by rw [sendMsi_shape]
@[simp] theorem sendMsi_hold (b i : Nat) : (s.sendMsi b i).hold = s.hold := by rw [sendMsi_shape]
@[simp] theorem sendMsi_power (b i : Nat) : (s.sendMsi b i).power = s.power := by rw [sendMsi_shape]
@[simp] theorem sendMsi_traces (b i : Nat) : (s.sendMsi b i).traces = s.traces := by rw [sendMsi_shape]
@[simp] theorem sendMsi_log (b i : Nat) : (s.sendMsi b i).log = s.log := by rw [sendMsi_shape]
@[simp] theorem sendMsi_fuses (b i : Nat) : (s.sendMsi b i).fuses = s.fuses := by rw [sendMsi_shape]
@[simp] theorem sendMsi_flash (b i : Nat) : (s.sendMsi b i).flash = s.flash := by rw [sendMsi_shape]
@[simp] theorem sendMsi_boot (b i : Nat) : (s.sendMsi b i).boot = s.boot := by rw [sendMsi_shape]
@[simp] theorem sendMsi_pins (b i : Nat) : (s.sendMsi b i).pins = s.pins := by rw [sendMsi_shape]
@[simp] theorem sendMsi_cells (b i : Nat) : (s.sendMsi b i).cells = s.cells := by rw [sendMsi_shape]
@[simp] theorem sendMsi_margins (b i : Nat) : (s.sendMsi b i).margins = s.margins := by rw [sendMsi_shape]
@[simp] theorem sendMsi_secHeld (b i : Nat) : (s.sendMsi b i).secHeld = s.secHeld := by rw [sendMsi_shape]
@[simp] theorem sendMsi_owed (b i : Nat) : (s.sendMsi b i).owed = s.owed := by rw [sendMsi_shape]
@[simp] theorem sendMsi_exempt (b i : Nat) : (s.sendMsi b i).exempt = s.exempt := by rw [sendMsi_shape]
@[simp] theorem sendMsi_queued (b i : Nat) : (s.sendMsi b i).queued = s.queued := by rw [sendMsi_shape]
@[simp] theorem sendMsi_busQ (b i : Nat) : (s.sendMsi b i).busQ = s.busQ := by rw [sendMsi_shape]
@[simp] theorem sendMsi_aplic (b i : Nat) : (s.sendMsi b i).aplic = s.aplic := by rw [sendMsi_shape]
@[simp] theorem sendMsi_wiping (b i : Nat) : (s.sendMsi b i).wiping = s.wiping := by rw [sendMsi_shape]
@[simp] theorem sendMsi_free (b i : Nat) : (s.sendMsi b i).free = s.free := by rw [sendMsi_shape]
@[simp] theorem sendMsi_regs (b i : Nat) : (s.sendMsi b i).regs = s.regs := by unfold State.sendMsi; split <;> rfl
@[simp] theorem setEvents_pending (b i : Nat) (ev en : Word) : (s.setEvents b i ev en).pending = s.pending := by rw [setEvents_shape]
@[simp] theorem setEvents_mem (b i : Nat) (ev en : Word) : (s.setEvents b i ev en).mem = s.mem := by rw [setEvents_shape]
@[simp] theorem setEvents_streams (b i : Nat) (ev en : Word) : (s.setEvents b i ev en).streams = s.streams := by rw [setEvents_shape]
@[simp] theorem setEvents_waiters (b i : Nat) (ev en : Word) : (s.setEvents b i ev en).waiters = s.waiters := by rw [setEvents_shape]
@[simp] theorem setEvents_bollards (b i : Nat) (ev en : Word) : (s.setEvents b i ev en).bollards = s.bollards := by rw [setEvents_shape]
@[simp] theorem setEvents_pilots (b i : Nat) (ev en : Word) : (s.setEvents b i ev en).pilots = s.pilots := by rw [setEvents_shape]
@[simp] theorem setEvents_engines (b i : Nat) (ev en : Word) : (s.setEvents b i ev en).engines = s.engines := by rw [setEvents_shape]
@[simp] theorem setEvents_cores (b i : Nat) (ev en : Word) : (s.setEvents b i ev en).cores = s.cores := by rw [setEvents_shape]
@[simp] theorem setEvents_edges (b i : Nat) (ev en : Word) : (s.setEvents b i ev en).edges = s.edges := by rw [setEvents_shape]
@[simp] theorem setEvents_net (b i : Nat) (ev en : Word) : (s.setEvents b i ev en).net = s.net := by rw [setEvents_shape]
@[simp] theorem setEvents_resps (b i : Nat) (ev en : Word) : (s.setEvents b i ev en).resps = s.resps := by rw [setEvents_shape]
@[simp] theorem setEvents_ferries (b i : Nat) (ev en : Word) : (s.setEvents b i ev en).ferries = s.ferries := by rw [setEvents_shape]
@[simp] theorem setEvents_landings (b i : Nat) (ev en : Word) : (s.setEvents b i ev en).landings = s.landings := by rw [setEvents_shape]
@[simp] theorem setEvents_moorings (b i : Nat) (ev en : Word) : (s.setEvents b i ev en).moorings = s.moorings := by rw [setEvents_shape]
@[simp] theorem setEvents_stages (b i : Nat) (ev en : Word) : (s.setEvents b i ev en).stages = s.stages := by rw [setEvents_shape]
@[simp] theorem setEvents_pontoons (b i : Nat) (ev en : Word) : (s.setEvents b i ev en).pontoons = s.pontoons := by rw [setEvents_shape]
@[simp] theorem setEvents_vetoes (b i : Nat) (ev en : Word) : (s.setEvents b i ev en).vetoes = s.vetoes := by rw [setEvents_shape]
@[simp] theorem setEvents_banks (b i : Nat) (ev en : Word) : (s.setEvents b i ev en).banks = s.banks := by rw [setEvents_shape]
@[simp] theorem setEvents_scrubPos (b i : Nat) (ev en : Word) : (s.setEvents b i ev en).scrubPos = s.scrubPos := by rw [setEvents_shape]
@[simp] theorem setEvents_hbms (b i : Nat) (ev en : Word) : (s.setEvents b i ev en).hbms = s.hbms := by rw [setEvents_shape]
@[simp] theorem setEvents_spent (b i : Nat) (ev en : Word) : (s.setEvents b i ev en).spent = s.spent := by rw [setEvents_shape]
@[simp] theorem setEvents_tolls (b i : Nat) (ev en : Word) : (s.setEvents b i ev en).tolls = s.tolls := by rw [setEvents_shape]
@[simp] theorem setEvents_throttle (b i : Nat) (ev en : Word) : (s.setEvents b i ev en).throttle = s.throttle := by rw [setEvents_shape]
@[simp] theorem setEvents_tide (b i : Nat) (ev en : Word) : (s.setEvents b i ev en).tide = s.tide := by rw [setEvents_shape]
@[simp] theorem setEvents_gnorm (b i : Nat) (ev en : Word) : (s.setEvents b i ev en).gnorm = s.gnorm := by rw [setEvents_shape]
@[simp] theorem setEvents_optHeld (b i : Nat) (ev en : Word) : (s.setEvents b i ev en).optHeld = s.optHeld := by rw [setEvents_shape]
@[simp] theorem setEvents_ckpt (b i : Nat) (ev en : Word) : (s.setEvents b i ev en).ckpt = s.ckpt := by rw [setEvents_shape]
@[simp] theorem setEvents_ports (b i : Nat) (ev en : Word) : (s.setEvents b i ev en).ports = s.ports := by rw [setEvents_shape]
@[simp] theorem setEvents_census (b i : Nat) (ev en : Word) : (s.setEvents b i ev en).census = s.census := by rw [setEvents_shape]
@[simp] theorem setEvents_cohwin (b i : Nat) (ev en : Word) : (s.setEvents b i ev en).cohwin = s.cohwin := by rw [setEvents_shape]
@[simp] theorem setEvents_lines (b i : Nat) (ev en : Word) : (s.setEvents b i ev en).lines = s.lines := by rw [setEvents_shape]
@[simp] theorem setEvents_slices (b i : Nat) (ev en : Word) : (s.setEvents b i ev en).slices = s.slices := by rw [setEvents_shape]
@[simp] theorem setEvents_flushing (b i : Nat) (ev en : Word) : (s.setEvents b i ev en).flushing = s.flushing := by rw [setEvents_shape]
@[simp] theorem setEvents_ctxs (b i : Nat) (ev en : Word) : (s.setEvents b i ev en).ctxs = s.ctxs := by rw [setEvents_shape]
@[simp] theorem setEvents_reports (b i : Nat) (ev en : Word) : (s.setEvents b i ev en).reports = s.reports := by rw [setEvents_shape]
@[simp] theorem setEvents_resets (b i : Nat) (ev en : Word) : (s.setEvents b i ev en).resets = s.resets := by rw [setEvents_shape]
@[simp] theorem setEvents_hold (b i : Nat) (ev en : Word) : (s.setEvents b i ev en).hold = s.hold := by rw [setEvents_shape]
@[simp] theorem setEvents_power (b i : Nat) (ev en : Word) : (s.setEvents b i ev en).power = s.power := by rw [setEvents_shape]
@[simp] theorem setEvents_traces (b i : Nat) (ev en : Word) : (s.setEvents b i ev en).traces = s.traces := by rw [setEvents_shape]
@[simp] theorem setEvents_log (b i : Nat) (ev en : Word) : (s.setEvents b i ev en).log = s.log := by rw [setEvents_shape]
@[simp] theorem setEvents_fuses (b i : Nat) (ev en : Word) : (s.setEvents b i ev en).fuses = s.fuses := by rw [setEvents_shape]
@[simp] theorem setEvents_flash (b i : Nat) (ev en : Word) : (s.setEvents b i ev en).flash = s.flash := by rw [setEvents_shape]
@[simp] theorem setEvents_boot (b i : Nat) (ev en : Word) : (s.setEvents b i ev en).boot = s.boot := by rw [setEvents_shape]
@[simp] theorem setEvents_pins (b i : Nat) (ev en : Word) : (s.setEvents b i ev en).pins = s.pins := by rw [setEvents_shape]
@[simp] theorem setEvents_cells (b i : Nat) (ev en : Word) : (s.setEvents b i ev en).cells = s.cells := by rw [setEvents_shape]
@[simp] theorem setEvents_margins (b i : Nat) (ev en : Word) : (s.setEvents b i ev en).margins = s.margins := by rw [setEvents_shape]
@[simp] theorem setEvents_secHeld (b i : Nat) (ev en : Word) : (s.setEvents b i ev en).secHeld = s.secHeld := by rw [setEvents_shape]
@[simp] theorem setEvents_owed (b i : Nat) (ev en : Word) : (s.setEvents b i ev en).owed = s.owed := by rw [setEvents_shape]
@[simp] theorem setEvents_exempt (b i : Nat) (ev en : Word) : (s.setEvents b i ev en).exempt = s.exempt := by rw [setEvents_shape]
@[simp] theorem setEvents_queued (b i : Nat) (ev en : Word) : (s.setEvents b i ev en).queued = s.queued := by rw [setEvents_shape]
@[simp] theorem setEvents_busQ (b i : Nat) (ev en : Word) : (s.setEvents b i ev en).busQ = s.busQ := by rw [setEvents_shape]
@[simp] theorem setEvents_aplic (b i : Nat) (ev en : Word) : (s.setEvents b i ev en).aplic = s.aplic := by rw [setEvents_shape]
@[simp] theorem setEvents_wiping (b i : Nat) (ev en : Word) : (s.setEvents b i ev en).wiping = s.wiping := by rw [setEvents_shape]
@[simp] theorem setEvents_free (b i : Nat) (ev en : Word) : (s.setEvents b i ev en).free = s.free := by rw [setEvents_shape]
@[simp] theorem event_pending (b i n : Nat) : (s.event b i n).pending = s.pending := by rw [event_shape]
@[simp] theorem event_mem (b i n : Nat) : (s.event b i n).mem = s.mem := by rw [event_shape]
@[simp] theorem event_streams (b i n : Nat) : (s.event b i n).streams = s.streams := by rw [event_shape]
@[simp] theorem event_waiters (b i n : Nat) : (s.event b i n).waiters = s.waiters := by rw [event_shape]
@[simp] theorem event_bollards (b i n : Nat) : (s.event b i n).bollards = s.bollards := by rw [event_shape]
@[simp] theorem event_pilots (b i n : Nat) : (s.event b i n).pilots = s.pilots := by rw [event_shape]
@[simp] theorem event_engines (b i n : Nat) : (s.event b i n).engines = s.engines := by rw [event_shape]
@[simp] theorem event_cores (b i n : Nat) : (s.event b i n).cores = s.cores := by rw [event_shape]
@[simp] theorem event_edges (b i n : Nat) : (s.event b i n).edges = s.edges := by rw [event_shape]
@[simp] theorem event_net (b i n : Nat) : (s.event b i n).net = s.net := by rw [event_shape]
@[simp] theorem event_resps (b i n : Nat) : (s.event b i n).resps = s.resps := by rw [event_shape]
@[simp] theorem event_ferries (b i n : Nat) : (s.event b i n).ferries = s.ferries := by rw [event_shape]
@[simp] theorem event_landings (b i n : Nat) : (s.event b i n).landings = s.landings := by rw [event_shape]
@[simp] theorem event_moorings (b i n : Nat) : (s.event b i n).moorings = s.moorings := by rw [event_shape]
@[simp] theorem event_stages (b i n : Nat) : (s.event b i n).stages = s.stages := by rw [event_shape]
@[simp] theorem event_pontoons (b i n : Nat) : (s.event b i n).pontoons = s.pontoons := by rw [event_shape]
@[simp] theorem event_vetoes (b i n : Nat) : (s.event b i n).vetoes = s.vetoes := by rw [event_shape]
@[simp] theorem event_banks (b i n : Nat) : (s.event b i n).banks = s.banks := by rw [event_shape]
@[simp] theorem event_scrubPos (b i n : Nat) : (s.event b i n).scrubPos = s.scrubPos := by rw [event_shape]
@[simp] theorem event_hbms (b i n : Nat) : (s.event b i n).hbms = s.hbms := by rw [event_shape]
@[simp] theorem event_spent (b i n : Nat) : (s.event b i n).spent = s.spent := by rw [event_shape]
@[simp] theorem event_tolls (b i n : Nat) : (s.event b i n).tolls = s.tolls := by rw [event_shape]
@[simp] theorem event_throttle (b i n : Nat) : (s.event b i n).throttle = s.throttle := by rw [event_shape]
@[simp] theorem event_tide (b i n : Nat) : (s.event b i n).tide = s.tide := by rw [event_shape]
@[simp] theorem event_gnorm (b i n : Nat) : (s.event b i n).gnorm = s.gnorm := by rw [event_shape]
@[simp] theorem event_optHeld (b i n : Nat) : (s.event b i n).optHeld = s.optHeld := by rw [event_shape]
@[simp] theorem event_ckpt (b i n : Nat) : (s.event b i n).ckpt = s.ckpt := by rw [event_shape]
@[simp] theorem event_ports (b i n : Nat) : (s.event b i n).ports = s.ports := by rw [event_shape]
@[simp] theorem event_census (b i n : Nat) : (s.event b i n).census = s.census := by rw [event_shape]
@[simp] theorem event_cohwin (b i n : Nat) : (s.event b i n).cohwin = s.cohwin := by rw [event_shape]
@[simp] theorem event_lines (b i n : Nat) : (s.event b i n).lines = s.lines := by rw [event_shape]
@[simp] theorem event_slices (b i n : Nat) : (s.event b i n).slices = s.slices := by rw [event_shape]
@[simp] theorem event_flushing (b i n : Nat) : (s.event b i n).flushing = s.flushing := by rw [event_shape]
@[simp] theorem event_ctxs (b i n : Nat) : (s.event b i n).ctxs = s.ctxs := by rw [event_shape]
@[simp] theorem event_reports (b i n : Nat) : (s.event b i n).reports = s.reports := by rw [event_shape]
@[simp] theorem event_resets (b i n : Nat) : (s.event b i n).resets = s.resets := by rw [event_shape]
@[simp] theorem event_hold (b i n : Nat) : (s.event b i n).hold = s.hold := by rw [event_shape]
@[simp] theorem event_power (b i n : Nat) : (s.event b i n).power = s.power := by rw [event_shape]
@[simp] theorem event_traces (b i n : Nat) : (s.event b i n).traces = s.traces := by rw [event_shape]
@[simp] theorem event_log (b i n : Nat) : (s.event b i n).log = s.log := by rw [event_shape]
@[simp] theorem event_fuses (b i n : Nat) : (s.event b i n).fuses = s.fuses := by rw [event_shape]
@[simp] theorem event_flash (b i n : Nat) : (s.event b i n).flash = s.flash := by rw [event_shape]
@[simp] theorem event_boot (b i n : Nat) : (s.event b i n).boot = s.boot := by rw [event_shape]
@[simp] theorem event_pins (b i n : Nat) : (s.event b i n).pins = s.pins := by rw [event_shape]
@[simp] theorem event_cells (b i n : Nat) : (s.event b i n).cells = s.cells := by rw [event_shape]
@[simp] theorem event_margins (b i n : Nat) : (s.event b i n).margins = s.margins := by rw [event_shape]
@[simp] theorem event_secHeld (b i n : Nat) : (s.event b i n).secHeld = s.secHeld := by rw [event_shape]
@[simp] theorem event_owed (b i n : Nat) : (s.event b i n).owed = s.owed := by rw [event_shape]
@[simp] theorem event_exempt (b i n : Nat) : (s.event b i n).exempt = s.exempt := by rw [event_shape]
@[simp] theorem event_queued (b i n : Nat) : (s.event b i n).queued = s.queued := by rw [event_shape]
@[simp] theorem event_busQ (b i n : Nat) : (s.event b i n).busQ = s.busQ := by rw [event_shape]
@[simp] theorem event_aplic (b i n : Nat) : (s.event b i n).aplic = s.aplic := by rw [event_shape]
@[simp] theorem event_wiping (b i n : Nat) : (s.event b i n).wiping = s.wiping := by rw [event_shape]
@[simp] theorem event_free (b i n : Nat) : (s.event b i n).free = s.free := by rw [event_shape]
@[simp] theorem bump_pending (f : FieldRef) (i j n : Nat) : (s.bump f i j n).pending = s.pending := by rw [bump_shape]
@[simp] theorem bump_mem (f : FieldRef) (i j n : Nat) : (s.bump f i j n).mem = s.mem := by rw [bump_shape]
@[simp] theorem bump_streams (f : FieldRef) (i j n : Nat) : (s.bump f i j n).streams = s.streams := by rw [bump_shape]
@[simp] theorem bump_waiters (f : FieldRef) (i j n : Nat) : (s.bump f i j n).waiters = s.waiters := by rw [bump_shape]
@[simp] theorem bump_bollards (f : FieldRef) (i j n : Nat) : (s.bump f i j n).bollards = s.bollards := by rw [bump_shape]
@[simp] theorem bump_pilots (f : FieldRef) (i j n : Nat) : (s.bump f i j n).pilots = s.pilots := by rw [bump_shape]
@[simp] theorem bump_engines (f : FieldRef) (i j n : Nat) : (s.bump f i j n).engines = s.engines := by rw [bump_shape]
@[simp] theorem bump_cores (f : FieldRef) (i j n : Nat) : (s.bump f i j n).cores = s.cores := by rw [bump_shape]
@[simp] theorem bump_edges (f : FieldRef) (i j n : Nat) : (s.bump f i j n).edges = s.edges := by rw [bump_shape]
@[simp] theorem bump_net (f : FieldRef) (i j n : Nat) : (s.bump f i j n).net = s.net := by rw [bump_shape]
@[simp] theorem bump_resps (f : FieldRef) (i j n : Nat) : (s.bump f i j n).resps = s.resps := by rw [bump_shape]
@[simp] theorem bump_ferries (f : FieldRef) (i j n : Nat) : (s.bump f i j n).ferries = s.ferries := by rw [bump_shape]
@[simp] theorem bump_landings (f : FieldRef) (i j n : Nat) : (s.bump f i j n).landings = s.landings := by rw [bump_shape]
@[simp] theorem bump_moorings (f : FieldRef) (i j n : Nat) : (s.bump f i j n).moorings = s.moorings := by rw [bump_shape]
@[simp] theorem bump_stages (f : FieldRef) (i j n : Nat) : (s.bump f i j n).stages = s.stages := by rw [bump_shape]
@[simp] theorem bump_pontoons (f : FieldRef) (i j n : Nat) : (s.bump f i j n).pontoons = s.pontoons := by rw [bump_shape]
@[simp] theorem bump_vetoes (f : FieldRef) (i j n : Nat) : (s.bump f i j n).vetoes = s.vetoes := by rw [bump_shape]
@[simp] theorem bump_banks (f : FieldRef) (i j n : Nat) : (s.bump f i j n).banks = s.banks := by rw [bump_shape]
@[simp] theorem bump_scrubPos (f : FieldRef) (i j n : Nat) : (s.bump f i j n).scrubPos = s.scrubPos := by rw [bump_shape]
@[simp] theorem bump_hbms (f : FieldRef) (i j n : Nat) : (s.bump f i j n).hbms = s.hbms := by rw [bump_shape]
@[simp] theorem bump_spent (f : FieldRef) (i j n : Nat) : (s.bump f i j n).spent = s.spent := by rw [bump_shape]
@[simp] theorem bump_tolls (f : FieldRef) (i j n : Nat) : (s.bump f i j n).tolls = s.tolls := by rw [bump_shape]
@[simp] theorem bump_throttle (f : FieldRef) (i j n : Nat) : (s.bump f i j n).throttle = s.throttle := by rw [bump_shape]
@[simp] theorem bump_tide (f : FieldRef) (i j n : Nat) : (s.bump f i j n).tide = s.tide := by rw [bump_shape]
@[simp] theorem bump_gnorm (f : FieldRef) (i j n : Nat) : (s.bump f i j n).gnorm = s.gnorm := by rw [bump_shape]
@[simp] theorem bump_optHeld (f : FieldRef) (i j n : Nat) : (s.bump f i j n).optHeld = s.optHeld := by rw [bump_shape]
@[simp] theorem bump_ckpt (f : FieldRef) (i j n : Nat) : (s.bump f i j n).ckpt = s.ckpt := by rw [bump_shape]
@[simp] theorem bump_ports (f : FieldRef) (i j n : Nat) : (s.bump f i j n).ports = s.ports := by rw [bump_shape]
@[simp] theorem bump_census (f : FieldRef) (i j n : Nat) : (s.bump f i j n).census = s.census := by rw [bump_shape]
@[simp] theorem bump_cohwin (f : FieldRef) (i j n : Nat) : (s.bump f i j n).cohwin = s.cohwin := by rw [bump_shape]
@[simp] theorem bump_lines (f : FieldRef) (i j n : Nat) : (s.bump f i j n).lines = s.lines := by rw [bump_shape]
@[simp] theorem bump_slices (f : FieldRef) (i j n : Nat) : (s.bump f i j n).slices = s.slices := by rw [bump_shape]
@[simp] theorem bump_flushing (f : FieldRef) (i j n : Nat) : (s.bump f i j n).flushing = s.flushing := by rw [bump_shape]
@[simp] theorem bump_ctxs (f : FieldRef) (i j n : Nat) : (s.bump f i j n).ctxs = s.ctxs := by rw [bump_shape]
@[simp] theorem bump_reports (f : FieldRef) (i j n : Nat) : (s.bump f i j n).reports = s.reports := by rw [bump_shape]
@[simp] theorem bump_resets (f : FieldRef) (i j n : Nat) : (s.bump f i j n).resets = s.resets := by rw [bump_shape]
@[simp] theorem bump_hold (f : FieldRef) (i j n : Nat) : (s.bump f i j n).hold = s.hold := by rw [bump_shape]
@[simp] theorem bump_power (f : FieldRef) (i j n : Nat) : (s.bump f i j n).power = s.power := by rw [bump_shape]
@[simp] theorem bump_traces (f : FieldRef) (i j n : Nat) : (s.bump f i j n).traces = s.traces := by rw [bump_shape]
@[simp] theorem bump_log (f : FieldRef) (i j n : Nat) : (s.bump f i j n).log = s.log := by rw [bump_shape]
@[simp] theorem bump_fuses (f : FieldRef) (i j n : Nat) : (s.bump f i j n).fuses = s.fuses := by rw [bump_shape]
@[simp] theorem bump_flash (f : FieldRef) (i j n : Nat) : (s.bump f i j n).flash = s.flash := by rw [bump_shape]
@[simp] theorem bump_boot (f : FieldRef) (i j n : Nat) : (s.bump f i j n).boot = s.boot := by rw [bump_shape]
@[simp] theorem bump_pins (f : FieldRef) (i j n : Nat) : (s.bump f i j n).pins = s.pins := by rw [bump_shape]
@[simp] theorem bump_cells (f : FieldRef) (i j n : Nat) : (s.bump f i j n).cells = s.cells := by rw [bump_shape]
@[simp] theorem bump_margins (f : FieldRef) (i j n : Nat) : (s.bump f i j n).margins = s.margins := by rw [bump_shape]
@[simp] theorem bump_secHeld (f : FieldRef) (i j n : Nat) : (s.bump f i j n).secHeld = s.secHeld := by rw [bump_shape]
@[simp] theorem bump_owed (f : FieldRef) (i j n : Nat) : (s.bump f i j n).owed = s.owed := by rw [bump_shape]
@[simp] theorem bump_exempt (f : FieldRef) (i j n : Nat) : (s.bump f i j n).exempt = s.exempt := by rw [bump_shape]
@[simp] theorem bump_queued (f : FieldRef) (i j n : Nat) : (s.bump f i j n).queued = s.queued := by rw [bump_shape]
@[simp] theorem bump_busQ (f : FieldRef) (i j n : Nat) : (s.bump f i j n).busQ = s.busQ := by rw [bump_shape]
@[simp] theorem bump_aplic (f : FieldRef) (i j n : Nat) : (s.bump f i j n).aplic = s.aplic := by rw [bump_shape]
@[simp] theorem bump_wiping (f : FieldRef) (i j n : Nat) : (s.bump f i j n).wiping = s.wiping := by rw [bump_shape]
@[simp] theorem bump_free (f : FieldRef) (i j n : Nat) : (s.bump f i j n).free = s.free := by rw [bump_shape]

/-! ### Memory -/

/-- Clearing a range keeps memory in canonical form. -/
theorem clearRange_wf (lo hi : Nat) (h : Memory.wf s.mem = true) : Memory.wf (s.clearRange lo hi).mem = true :=
  sparse_wf_filter memReset s.mem _ h

end Sys2Proof.Machine
end

