-- ==== Sys2Proof/Laws/Charges.lean ====
section
/-! SUPPORT. What the shared operations of charging, metering, reading and holding may change, once for each. -/

namespace Sys2Proof.Machine

/-- `t` differs from `s` in what a charge may change: a counter, its energy, and the marks of a class that is held (R169 to R171). -/
def State.chargedTo (s t : State) : Prop :=
  t = { s with spent := t.spent, power := t.power, regs := t.regs, imsic := t.imsic, out := t.out }

theorem chargedTo_refl (s : State) : s.chargedTo s := rfl

theorem chargedTo_trans {s t u : State} (h1 : s.chargedTo t) (h2 : t.chargedTo u) : s.chargedTo u := by
  unfold State.chargedTo at *
  cases s; cases t; cases u; simp_all

/-- What changes registers and what left the block alone is within a charge. -/
theorem chargedTo_of_shape {s t : State} (h : t = { s with regs := t.regs, imsic := t.imsic, out := t.out }) : s.chargedTo t := by
  unfold State.chargedTo
  cases s; cases t; simp_all

theorem chargedTo_foldl {α : Type} (f : State → α → State) (h : ∀ (t : State) (a : α), t.chargedTo (f t a)) :
    ∀ (as : List α) (s : State), s.chargedTo (as.foldl f s)
  | [], s => chargedTo_refl s
  | a :: as, s => chargedTo_trans (h s a) (chargedTo_foldl f h as (f s a))

theorem chargedTo_ite {c : Prop} [Decidable c] {s t u : State} (ht : s.chargedTo t) (hu : s.chargedTo u) :
    s.chargedTo (if c then t else u) := by
  split
  · exact ht
  · exact hu

theorem markHeld_charged (s : State) (cls res : Nat) : s.chargedTo (s.markHeld cls res) := by
  unfold State.markHeld
  refine chargedTo_ite ?_ rfl
  refine chargedTo_trans (chargedTo_trans ?_ (chargedTo_of_shape (bump_shape _ _ _ _ _))) (chargedTo_of_shape (event_shape _ _ _ _))
  unfold State.chargedTo
  rfl

theorem charge_charged (s : State) (cls res inst n : Nat) : s.chargedTo (s.charge cls res inst n) := by
  unfold State.charge
  refine chargedTo_ite (chargedTo_trans ?_ (markHeld_charged _ _ _)) rfl
  unfold State.chargedTo
  rfl

theorem chargeMesh_charged (s : State) (cls node flits : Nat) : s.chargedTo (s.chargeMesh cls node flits) := by
  unfold State.chargeMesh
  split
  · exact chargedTo_refl s
  · exact charge_charged _ _ _ _ _

theorem chargeSectors_charged (s : State) (cls : Nat) (as : List Nat) : s.chargedTo (s.chargeSectors cls as) :=
  chargedTo_foldl _ (fun t a => by
    split
    · exact charge_charged _ _ _ _ _
    · exact chargedTo_refl t) as s

/-- Admitting sectors only charges; what it answers are sectors of those it was given. -/
theorem admitSectors_charged (s : State) (cls : Nat) (as : List Nat) :
    s.chargedTo (s.admitSectors cls as).2 ∧ ∀ a ∈ (s.admitSectors cls as).1, a ∈ as := by
  have key : ∀ (l : List Nat) (acc : List Nat × State), s.chargedTo acc.2 → (∀ a ∈ acc.1, a ∈ as) → (∀ a ∈ l, a ∈ as) →
      let r := l.foldl (fun (acc : List Nat × State) a => match acc.2.meterOf a with
        | none => acc
        | some (res, inst) =>
          if acc.2.tollHeld cls res inst then (acc.1 ++ [a], acc.2.markHeld cls res)
          else (acc.1, acc.2.charge cls res inst 1)) acc
      s.chargedTo r.2 ∧ ∀ a ∈ r.1, a ∈ as := by
    intro l
    induction l with
    | nil => intro acc h1 h2 _; exact ⟨h1, h2⟩
    | cons x l ih =>
      intro acc h1 h2 h3
      have hx : x ∈ as := h3 x (List.mem_cons_self ..)
      have hl : ∀ a ∈ l, a ∈ as := fun a ha => h3 a (List.mem_cons_of_mem _ ha)
      refine ih _ ?_ ?_ hl
      · dsimp only
        split
        · exact h1
        · split
          · exact chargedTo_trans h1 (markHeld_charged _ _ _)
          · exact chargedTo_trans h1 (charge_charged _ _ _ _ _)
      · dsimp only
        split
        · exact h2
        · split
          · intro a ha
            rcases List.mem_append.1 ha with h | h
            · exact h2 a h
            · rw [List.mem_singleton.1 h]; exact hx
          · exact h2
  exact key as ([], s) (chargedTo_refl s) (by simp) fun _ h => h

/-- Admitting a request whole charges it, or marks the hold of the meter that stops it. -/
theorem admitAll_charged (s : State) (cls node flits : Nat) (secs : List Nat) : s.chargedTo (s.admitAll cls node flits secs).2 := by
  unfold State.admitAll
  split
  · exact markHeld_charged _ _ _
  · exact chargedTo_trans (chargeMesh_charged _ _ _ _) (chargeSectors_charged _ _ _)

/-- A metered operation runs on a state that differs from `s` in charges and in what is owed, or only its hold, its charges or a
chunk's save-ahead happen. -/
theorem metered_cases (s : State) (cls : Nat) (d : Delivered) (node : Nat) (reads writes : List Nat) (run : State → State) :
    (∃ t : State, s.chargedTo t ∧ s.metered cls d node reads writes run = run (t.setOwed d [])) ∨
      (∃ (t : State) (as : List Nat), s.chargedTo t ∧ as ≠ [] ∧ s.metered cls d node reads writes run = t.setOwed d as) ∨
      s.metered cls d node reads writes run = s.markHeld cls 3 ∨
      s.metered cls d node reads writes run = (s.saveAhead writes).2 := by
  have go : ∀ (u : State) (secs : List Nat), s.chargedTo u → ∀ out : State,
      out = (if (u.admitSectors cls secs).1 = [] then run ((u.admitSectors cls secs).2.setOwed d (u.admitSectors cls secs).1)
        else (u.admitSectors cls secs).2.setOwed d (u.admitSectors cls secs).1) →
      (∃ t : State, s.chargedTo t ∧ out = run (t.setOwed d [])) ∨
        (∃ (t : State) (as : List Nat), s.chargedTo t ∧ as ≠ [] ∧ out = t.setOwed d as) := by
    intro u secs hu out ho
    have hc := chargedTo_trans hu (admitSectors_charged u cls secs).1
    split at ho
    · rename_i h
      rw [h] at ho
      exact .inl ⟨_, hc, ho⟩
    · rename_i h
      exact .inr ⟨_, _, hc, h, ho⟩
  unfold State.metered
  dsimp only
  split
  · exact .inr (.inr (.inr rfl))
  · split
    · rcases go s _ (chargedTo_refl s) _ rfl with h | h
      · exact .inl h
      · exact .inr (.inl h)
    · split
      · exact .inr (.inr (.inl rfl))
      · rcases go _ _ (chargeMesh_charged s cls node _) _ rfl with h | h
        · exact .inl h
        · exact .inr (.inl h)

/-- A command of a running module answers what its operation leaves; in reset it changes nothing. -/
theorem act_cases (s t : State) : (s.hold = none ∧ s.act t = .next t) ∨ (s.hold ≠ none ∧ s.act t = .next s) := by
  unfold State.act
  cases h : s.hold <;> simp

/-- ... and of a unit of a site. -/
theorem actAt_cases (s t : State) (site : Nat) : (s.siteRuns site ∧ s.actAt site t = .next t) ∨ s.actAt site t = .next s := by
  unfold State.actAt
  by_cases h : s.hold = none ∧ s.frozen site = false
  · left; refine ⟨h, ?_⟩; simp [h.1, h.2]
  · right
    rcases Classical.not_and_iff_not_or_not.1 h with h1 | h1
    · cases h2 : s.hold <;> simp_all
    · simp_all

end Sys2Proof.Machine
end

