-- ==== Sys2Proof/Laws/Regs.lean ====
section
/-! SUPPORT. What a field reads after a write of a field, an event or a count: the laws of `setBits`, `wr`, `event` and
`bump`. -/

namespace Sys2Proof.Machine

variable (s : State)

/-- The value of a word after a field is replaced. -/
theorem setBits_toNat (w : Word) (lo width v : Nat) (h : lo + width ≤ 64) :
    (setBits w lo width v).toNat =
      w.toNat % 2 ^ lo + v % 2 ^ width * 2 ^ lo + w.toNat / 2 ^ (lo + width) * 2 ^ (lo + width) := by
  have hw := w.isLt
  obtain ⟨n, hn⟩ : ∃ n, n = w.toNat := ⟨_, rfl⟩
  have hn64 : n < 2 ^ 64 := hn ▸ hw
  obtain ⟨A, hA⟩ : ∃ A, A = 2 ^ lo := ⟨_, rfl⟩
  obtain ⟨B, hB⟩ : ∃ B, B = 2 ^ width := ⟨_, rfl⟩
  obtain ⟨v', hv'⟩ : ∃ v', v' = v % 2 ^ width := ⟨_, rfl⟩
  have hApos : 0 < A := hA ▸ Nat.two_pow_pos _
  have hBpos : 0 < B := hB ▸ Nat.two_pow_pos _
  have hv : v' < B := by rw [hv', hB]; exact Nat.mod_lt _ (Nat.two_pow_pos _)
  have e1 : n = n % A + A * (n / A) := (Nat.mod_add_div n A).symm
  have e2 : n / A = n / A % B + B * (n / A / B) := (Nat.mod_add_div (n / A) B).symm
  have e3 : n / A / B = n / (A * B) := Nat.div_div_eq_div_mul _ _ _
  have hAB : 2 ^ (lo + width) = A * B := by rw [hA, hB, Nat.pow_add]
  obtain ⟨q, hq⟩ : ∃ q, q = n / (A * B) := ⟨_, rfl⟩
  obtain ⟨m, hm⟩ : ∃ m, m = n / A % B := ⟨_, rfl⟩
  obtain ⟨r, hr⟩ : ∃ r, r = n % A := ⟨_, rfl⟩
  have hrA : r < A := hr ▸ Nat.mod_lt _ hApos
  have key : n = r + A * m + A * B * q := by
    rw [e3, ← hm, ← hq] at e2; rw [← hr, e2, Nat.mul_add, ← Nat.mul_assoc] at e1; omega
  have hsub : n - m * A + v' * A = r + v' * A + q * (A * B) := by
    rw [key, Nat.mul_comm m A, Nat.mul_comm q]; omega
  have hlt : r + v' * A + q * (A * B) < 2 ^ 64 := by
    have h64 : 2 ^ 64 = A * B * 2 ^ (64 - (lo + width)) := by rw [← hAB, ← Nat.pow_add]; congr 1; omega
    have hq2 : q < 2 ^ (64 - (lo + width)) := by
      rw [hq, Nat.div_lt_iff_lt_mul (Nat.mul_pos hApos hBpos), Nat.mul_comm, ← h64]; exact hn64
    have hin : r + v' * A < A * B := by
      have : (v' + 1) * A ≤ B * A := Nat.mul_le_mul_right _ hv
      rw [Nat.add_mul, Nat.mul_comm B A] at this; omega
    have : (q + 1) * (A * B) ≤ 2 ^ (64 - (lo + width)) * (A * B) := Nat.mul_le_mul_right _ hq2
    rw [Nat.add_mul, Nat.mul_comm (2 ^ (64 - (lo + width)))] at this
    omega
  unfold setBits
  simp only [BitVec.toNat_ofNat]
  rw [← hn, ← hA, ← hB, ← hv', hAB, ← hm, ← hr, ← hq] at *
  rw [← hB, ← hv', hsub, Nat.mod_eq_of_lt hlt]

/-- A replaced field reads as the new value. -/
theorem bits_setBits_self (w : Word) (lo width v : Nat) (h : lo + width ≤ 64) :
    bits (setBits w lo width v) lo width = v % 2 ^ width := by
  unfold bits
  rw [setBits_toNat w lo width v h]
  obtain ⟨A, hA⟩ : ∃ A, A = 2 ^ lo := ⟨_, rfl⟩
  obtain ⟨B, hB⟩ : ∃ B, B = 2 ^ width := ⟨_, rfl⟩
  have hApos : 0 < A := hA ▸ Nat.two_pow_pos _
  rw [Nat.pow_add, ← hA, ← hB]
  have : w.toNat % A + v % B * A + w.toNat / (A * B) * (A * B) =
      w.toNat % A + A * (v % B + B * (w.toNat / (A * B))) := by
    ring
  rw [this, Nat.add_mul_div_left _ _ hApos, Nat.div_eq_of_lt (Nat.mod_lt _ hApos), Nat.zero_add,
    Nat.add_mul_mod_self_left, Nat.mod_mod]

/-- A field apart from the replaced one keeps its value. -/
theorem bits_setBits_ne (w : Word) (lo width v lo' width' : Nat) (h : lo + width ≤ 64)
    (hd : lo' + width' ≤ lo ∨ lo + width ≤ lo') : bits (setBits w lo width v) lo' width' = bits w lo' width' := by
  apply Nat.eq_of_testBit_eq
  intro i
  have hbit : ∀ j : Nat, j < lo ∨ lo + width ≤ j → (setBits w lo width v).toNat.testBit j = w.toNat.testBit j := by
    intro j hj
    rw [setBits_toNat w lo width v h]
    have hr : w.toNat % 2 ^ lo + v % 2 ^ width * 2 ^ lo < 2 ^ (lo + width) := by
      have h1 := Nat.mod_lt w.toNat (Nat.two_pow_pos lo)
      have h2 := Nat.mod_lt v (Nat.two_pow_pos width)
      have : (v % 2 ^ width + 1) * 2 ^ lo ≤ 2 ^ width * 2 ^ lo := Nat.mul_le_mul_right _ h2
      rw [Nat.add_mul] at this
      rw [Nat.pow_add, Nat.mul_comm (2 ^ lo)]; omega
    rcases hj with hj | hj
    · have hlt : j < lo + width := by omega
      rw [Nat.mul_comm (w.toNat / _), Nat.add_comm, Nat.testBit_two_pow_mul_add _ hr]
      simp only [hlt, if_true]
      rw [Nat.mul_comm (v % _), Nat.add_comm, Nat.testBit_two_pow_mul_add _ (Nat.mod_lt _ (Nat.two_pow_pos lo))]
      simp [hj, Nat.testBit_mod_two_pow]
    · rw [Nat.mul_comm (w.toNat / _), Nat.add_comm, Nat.testBit_two_pow_mul_add _ hr]
      have : ¬ j < lo + width := by omega
      simp only [this, if_false, Nat.testBit_div_two_pow]
      congr 1; omega
  simp only [bits, Nat.testBit_mod_two_pow, Nat.testBit_div_two_pow]
  by_cases hi : i < width'
  · simp only [hi, decide_true, Bool.true_and]
    exact hbit _ (by omega)
  · simp [hi]

/-- A written field reads as the value written. -/
theorem rd_wr_self (f : FieldRef) (i j v : Nat) (h : f.lo + f.width ≤ 64) : (s.wr f i j v).rd f i j = v % 2 ^ f.width := by
  unfold State.rd; rw [wr_reg_self, bits_setBits_self _ _ _ _ h]

/-- A field of another register keeps its value. -/
theorem rd_wr_ne (f g : FieldRef) (i j v x y : Nat) (h : g.key x y ≠ f.key i j) : (s.wr f i j v).rd g x y = s.rd g x y := by
  unfold State.rd; rw [wr_reg_ne s f i j v h]

/-- Another field of the same register keeps its value. -/
theorem rd_wr_field (f g : FieldRef) (i j v x y : Nat) (h : f.lo + f.width ≤ 64) (hk : g.key x y = f.key i j)
    (hd : g.lo + g.width ≤ f.lo ∨ f.lo + f.width ≤ g.lo) : (s.wr f i j v).rd g x y = s.rd g x y := by
  unfold State.rd; rw [hk, wr_reg_self, bits_setBits_ne _ _ _ _ _ _ h hd]

theorem rd_lt (f : FieldRef) (i j : Nat) : s.rd f i j < 2 ^ f.width := Nat.mod_lt _ (Nat.two_pow_pos _)

/-- Two states with the same registers read alike. -/
theorem reg_congr {s t : State} (h : t.regs = s.regs) (k : Nat) : t.reg k = s.reg k := by unfold State.reg; rw [h]

theorem setEvents_reg (b i : Nat) (ev en : Word) (k : Nat) :
    (s.setEvents b i ev en).reg k =
      if k = regKey b i 0x28 then en else if k = regKey b i 0x20 then ev else s.reg k := by
  have h : (s.setEvents b i ev en).reg k =
      ((s.setReg (regKey b i 0x20) ev).setReg (regKey b i 0x28) en).reg k := by
    unfold State.setEvents
    dsimp only
    split
    · exact reg_congr (sendMsi_regs _ _ _) k
    · rfl
  rw [h]
  split
  · rename_i hk; subst hk; exact reg_self _ _ _
  · rename_i hk
    rw [reg_ne _ _ _ hk]
    split
    · rename_i hk2; subst hk2; exact reg_self _ _ _
    · rename_i hk2; exact reg_ne _ _ _ hk2

/-- An event changes PG_EVENT of its page alone. -/
theorem event_reg_ne (b i n k : Nat) (h : k ≠ regKey b i 0x20) : (s.event b i n).reg k = s.reg k := by
  unfold State.event
  rw [setEvents_reg, if_neg h]
  split
  · rename_i hk; rw [hk]
  · rfl

/-- An event sets its bit of PG_EVENT. -/
theorem event_reg_self (b i n : Nat) :
    (s.event b i n).reg (regKey b i 0x20) = setBits (s.reg (regKey b i 0x20)) n 1 1 := by
  unfold State.event
  rw [setEvents_reg]
  split
  · rename_i hk; exact absurd hk (by unfold regKey; omega)
  · rw [if_pos rfl]

theorem event_rd (b i n : Nat) (f : FieldRef) (x y : Nat) (h : f.key x y ≠ regKey b i 0x20) :
    (s.event b i n).rd f x y = s.rd f x y := by unfold State.rd; rw [event_reg_ne s b i n _ h]

/-- A count adds up to the top of its field, where it stays. -/
theorem rd_bump_self (f : FieldRef) (i j n : Nat) (h : f.lo + f.width ≤ 64) (hk : f.key i j ≠ regKey f.block i 0x20) :
    (s.bump f i j n).rd f i j = min (s.rd f i j + n) (2 ^ f.width - 1) := by
  have hlt := rd_lt s f i j
  unfold State.bump
  dsimp only
  split
  · rename_i h0; subst h0; omega
  split
  · rename_i _ hv
    rw [rd_wr_self s f i j _ h, Nat.mod_eq_of_lt (by omega)]; omega
  · rename_i _ hv
    have e : (s.wr f i j (2 ^ f.width - 1)).rd f i j = min (s.rd f i j + n) (2 ^ f.width - 1) := by
      rw [rd_wr_self s f i j _ h, Nat.mod_eq_of_lt (by have := Nat.two_pow_pos f.width; omega)]; omega
    split
    · rw [event_rd _ _ _ _ _ _ _ hk]; exact e
    · exact e

/-- A count changes its register and PG_EVENT of its page alone. -/
theorem bump_reg_ne (f : FieldRef) (i j n k : Nat) (h1 : k ≠ f.key i j) (h2 : k ≠ regKey f.block i 0x20) :
    (s.bump f i j n).reg k = s.reg k := by
  unfold State.bump
  dsimp only
  split
  · rfl
  split
  · exact wr_reg_ne s f i j _ h1
  · split
    · rw [event_reg_ne _ _ _ _ _ h2]; exact wr_reg_ne s f i j _ h1
    · exact wr_reg_ne s f i j _ h1

theorem bump_rd_ne (f : FieldRef) (i j n : Nat) (g : FieldRef) (x y : Nat) (h1 : g.key x y ≠ f.key i j)
    (h2 : g.key x y ≠ regKey f.block i 0x20) : (s.bump f i j n).rd g x y = s.rd g x y := by
  unfold State.rd; rw [bump_reg_ne s f i j n _ h1 h2]

end Sys2Proof.Machine
end

