-- ==== Sys2Proof/Tests/Slice0.lean ====
section
/-! SUPPORT. Tests: terms that `Instr.wf` refuses, one for each check; a state and operands that meet the hypotheses of
each statement, clause by clause, mostly with what the command then does; and worked examples of the spec. -/

namespace Sys2Proof.Tests
open Sys2Proof Sys2Proof.Machine
set_option Elab.async false

/-! ### Small states -/

/-- The command answers a next state with the property. -/
def ok (c : Instr) (s : State) (p : State → Bool) : Bool := match exec c s with | .next t => p t | _ => false

/-- 48 MiB of hub memory, and one window of context 0 over every address. -/
def base : State :=
  ((((((State.reset.wr F.SRM_HUBMEM_SIZE 27 0 12).wr F.CTX_SEG_BASE_ENABLE 0 0 1).wr F.CTX_SEG_BASE_R 0 0 1).wr
    F.CTX_SEG_BASE_W 0 0 1).wr F.CTX_SEG_BASE_A 0 0 1).wr F.CTX_SEG_LIMIT_LIMIT 0 0 0x1_0000_0000)

def pk (op dest addr : Nat) : Packet :=
  { dest := dest, src := 3, vc := opChannel op, escape := false, len := 0, op := op, ctx := 0, gen := 0, addr := addr, ticket := 0,
    inlineLen := 8, status := 0, inl := (List.range 8).map (BitVec.ofNat 8), data := [] }

/-- A manifest from its code, SUBOP, FLAGS, word 1, operands, ARG and IMM. -/
def man (op sub flags : Nat) (w1 : Word) (ops : List Word) (arg : Nat) (imm : Word) : List Word :=
  [BitVec.ofNat 64 (op + sub * 256 + flags * 2 ^ 48), w1] ++ (ops ++ List.replicate (4 - ops.length) 0) ++
    List.replicate 8 0 ++ [BitVec.ofNat 64 (arg * 2 ^ 32), imm]

/-- A manifest issued on stream 0 of context 0 under the windows of `base`. -/
def del (ws : List Word) : Delivered :=
  { words := ws, addr := hubBase, stream := 0, seq := 0, ctx := 0, gen := 0, snap := zeros16, wins := [[15, 0x1000_0000_0000, 0]] }

def issd (d : Delivered) : Issued := ⟨d, 0, 0, 0, false, 0, false, [], 0, false⟩

/-- `d` is outstanding on its stream. -/
def outst (s : State) (d : Delivered) : State :=
  s.setStream d.stream { s.stream d.stream with st := .stopped, issued := [issd d] }

/-- ... and its engine has it in hand. -/
def inHand (s : State) (e : Engine) (d : Delivered) : State :=
  (outst s d).setEngineQ (engineKey e) { EngineQ.reset with cur := some d }

/-- Operand word of an address. -/
def opw (a : Nat) : Word := BitVec.ofNat 64 (a + 1)

def hdl (woff swoff fmt n : Nat) : Handle :=
  { addr := 0, saddr := 0, woff := woff, swoff := swoff, tid := 0, fmt := fmt, windows := 0, rank := 1, slice := 0,
    dims := [n, 1, 1, 1], strides := [0, 0, 0], sstride := 0 }

/-- Operand `i`'s handle stands at this address. -/
def hAt (i : Nat) : Nat := hubBase + 0x1000 + 64 * i
def hOps (n : Nat) : List Word := (List.range n).map fun i => opw (hAt i)

/-- A plain i32 tensor of one row of one block in memory. -/
def memH (a : Nat) : Handle := { hdl 0 0 4 32 with addr := a }

/-- Hub memory that no checkpoint holds. -/
theorem hubBytes_of (s : State) (a n : Nat) (h : s.ckpt.st ≠ .background ∧ s.ckpt.st ≠ .quiesced)
    (hr : ∀ k : Nat, k < n → s.region (a + k) = .hubmem) : s.hubBytes a n :=
  ⟨hr, fun b m _ _ => by simp [State.unsavedChunk, h.1, h.2]⟩

/-- Physical windows do not translate. -/
theorem xlate_id (s : State) (d : Delivered) (h : ∀ w ∈ d.wins, fld (mword w 0) F.CTX_SEG_BASE_KIND ≠ 1) (p : Perm) (a n x : Nat) :
    s.xlate d p a n x = x := by
  unfold State.xlate State.segIn
  split
  · rfl
  · split
    · rfl
    · rename_i w hw
      have hm := h w (List.mem_of_find?_eq_some hw)
      split
      · simp [hm]
        split <;> rfl
      · rfl

theorem xlate_del (s : State) (ws : List Word) (p : Perm) (a n x : Nat) : s.xlate (del ws) p a n x = x :=
  xlate_id s _ (by simp only [del, List.forall_mem_cons]; decide +kernel) p a n x

/-- Nothing holds or has begun the operation, and no sector of it waits. -/
def passesB (s : State) (d : Delivered) (node : Nat) (r w : List Nat) : Bool :=
  (s.saveAhead w).1 && (s.owedOf d).isNone && !s.tollHeld (s.classOf d.ctx) 3 node &&
    ((s.chargeMesh (s.classOf d.ctx) node (s.meshFlits node false r + s.meshFlits node true w)).admitSectors (s.classOf d.ctx) (r ++ w)).1.isEmpty

theorem passes_of (s : State) (d : Delivered) (node : Nat) (r w : List Nat) (h : passesB s d node r w = true) : s.passes d node r w := by
  simp only [passesB, Bool.and_eq_true, Option.isNone_iff_eq_none, Bool.not_eq_true', List.isEmpty_iff] at h
  obtain ⟨⟨⟨h1, h2⟩, h3⟩, h4⟩ := h
  refine ⟨h1, ?_⟩
  simp only [h2]
  exact ⟨.inr h3, h4⟩

/-! ### Witnesses: the machine and the mesh -/

theorem wit_StepRunsTheFrontCommand : base.pending = [] := rfl
theorem wit_StepKeepsMemoryCanonical : Memory.wf base.mem = true ∧ Memory.wf (base.poke hubBase [1, 0, 2]).mem = true ∧ (base.poke hubBase [1, 0, 2]).mem.length = 2 := by
  decide +kernel

/-- R34: from (1, 2) to (5, 6) the route runs along X first: node 17 to 18; at the destination the packet stays. -/
theorem wit_MeshHopMovesXThenY :
    base.edgeState 17 1 ≠ 2 ∧ (base.edge (18 * 4 + 3)).steering = false ∧ base.tollHeld (base.classOf 0) 3 17 = false ∧
      ok (.meshHop 17 (pk 1 53 0) true) base (fun t => t.net == [(18, pk 1 53 0)]) ∧
      ok (.meshHop 53 (pk 1 53 0) true) base (fun t => t.net == [(53, pk 1 53 0)]) ∧
      ok (.meshHop 21 (pk 1 53 0) true) base (fun t => t.net == [(29, pk 1 53 0)]) ∧
      ok (.meshHop 26 (pk 1 36 0) true) base (fun t => t.net == [(27, pk 1 36 0)]) ∧
      ok (.meshHop 27 (pk 1 36 0) true) base (fun t => t.net == [(27, pk 1 36 0)]) ∧
      ok (.meshHop 27 (pk 5 36 0) true) base (fun t => t.net == [(28, pk 5 36 0)]) := by decide +kernel

/-- R36: at a FAILED X edge the packet steps to +Y, at y = 7 to -Y; at a FAILED Y edge to +X, at x = 7 to -X. -/
def failX : State := (base.wr (edgeFld F.MSH_EDGE_STATE 1) 17 0 2).wr (edgeFld F.MSH_EDGE_STATE 1) 57 0 2
def failY : State := (base.wr (edgeFld F.MSH_EDGE_STATE 2) 17 0 2).wr (edgeFld F.MSH_EDGE_STATE 2) 23 0 2
theorem wit_MeshHopDetoursAtFailedEdge :
    failX.edgeState 17 1 = 2 ∧ failX.edgeState 17 2 ≠ 2 ∧ (failX.edge (25 * 4)).steering = false ∧
      ok (.meshHop 17 (pk 1 21 0) true) failX (fun t => t.net == [(25, { pk 1 21 0 with escape := true })]) ∧
      ok (.meshHop 57 (pk 1 61 0) true) failX (fun t => t.net == [(49, { pk 1 61 0 with escape := true })]) ∧
      ok (.meshHop 17 (pk 1 57 0) true) failY (fun t => t.net == [(18, { pk 1 57 0 with escape := true })]) ∧
      ok (.meshHop 23 (pk 1 63 0) true) failY (fun t => t.net == [(22, { pk 1 63 0 with escape := true })]) ∧
      failX.failedEdges = [(17, 1), (57, 1)] ∧ failY.failedEdges = [(17, 2), (23, 2)] ∧
      ok (.meshHop 25 { pk 1 21 0 with escape := true } true) failX (fun t => t.net == [(26, { pk 1 21 0 with escape := true })]) ∧
      ok (.meshHop 18 { pk 1 57 0 with escape := true } true) failY (fun t => t.net == [(26, { pk 1 57 0 with escape := true })]) ∧
      ok (.meshHop 58 { pk 1 57 0 with escape := true } true) failY (fun t => t.net == [(57, { pk 1 57 0 with escape := true })]) := by
  decide +kernel

theorem wit_MeshHopCountsBadCrc :
    base.routeDir 17 (pk 1 53 0) = some (1, false) ∧ neighbour 17 1 = some 18 ∧
      ok (.meshHop 17 (pk 1 53 0) false) base (fun t => t.rd F.MSH_CRC_ERR_COUNT 17 == 1 && t.net == [(17, pk 1 53 0)]) := by
  decide +kernel

theorem wit_MeshReadAnswersData :
    (∀ i : Nat, i < 8 → base.region (hubBase + i) = .hubmem ∧ base.region (0x10_0000 + i) = .sram 0 1 ∧
        base.region (0x1B00_0000_0 + i) = .hole) ∧ base.bankAwake 0 1 = true ∧ base.cells = [] ∧ fxClean MemFx.clean = true ∧ pageOf hubBase = none ∧
      (∀ a ∈ sectors hubBase 8, base.meterOf a = none) ∧ (∀ a ∈ sectors 0x10_0000 8, base.meterOf a = none) ∧
      (∀ a ∈ sectors 0x1B00_0000_0 8, base.meterOf a = none) ∧ packetReadLen (pk 1 27 hubBase) = 8 ∧
      ok (.meshRead (pk 1 27 hubBase) MemFx.clean) (base.poke hubBase [7, 8]) (fun t =>
        (t.net.map fun e => (e.1, e.2.op, e.2.status, e.2.inl.take 2)) == [(27, 5, 0, [7, 8])]) ∧
      ok (.meshRead (pk 1 27 0x1B00_0000_0) MemFx.clean) base (fun t =>
        (t.net.map fun e => e.2.status) == [2] && t.rd F.MSH_HOLE_ADDR_ADDR 3 == 0x1B00_0000_0) := by decide +kernel

theorem wit_MeshWritesAndSignals_write :
    packetPayload (pk 2 27 hubBase) = [0, 1, 2, 3, 4, 5, 6, 7] ∧ base.unsavedChunk hubBase 8 = none ∧
      (∀ i : Nat, i < 8 → base.region (hubBase + i) = .hubmem ∧ base.region (0x1B00_0000_0 + i) = .hole) ∧
      ok (.meshWrite (pk 2 27 hubBase) MemFx.clean) base (fun t => t.peek hubBase 9 == [0, 1, 2, 3, 4, 5, 6, 7, 0]) ∧
      ok (.meshWrite (pk 2 27 0x1B00_0000_0) MemFx.clean) base (fun t => t.mem == []) ∧
      ok (.meshWrite { pk 2 27 hubBase with ticket := BitVec.ofNat 64 (0x300 + 2 ^ 14 + 5 * 2 ^ 16) } MemFx.clean) base (fun t =>
        t.peek hubBase 2 == [0, 1] && (t.bollard 0x300).count == 5) ∧
      ok (.meshWrite { pk 2 27 hubBase with ticket := BitVec.ofNat 64 (0x300 + 2 ^ 14 + 5 * 2 ^ 16) } MemFx.clean)
        { base with ckpt := { base.ckpt with st := .background, regions := [⟨hubBase, 64, 0⟩], chunks := [⟨0, 0, hubBase, 64, 0⟩] } }
        (fun t => (t.bollard 0x300).count == 0 && t.ckpt.held.map (·.ticket) == [BitVec.ofNat 64 (0x300 + 2 ^ 14 + 5 * 2 ^ 16)]) := by
  decide +kernel

/-- An i32 IADD to HBM: FORMAT 4 and the operation code as the ADD packet carries them. -/
def addPk : Packet := { pk 3 1 hbmBase with inl := [4, 1] ++ List.replicate 14 0 ++ (List.range 128).map (BitVec.ofNat 8) }
theorem wit_MeshAddCombinesBlock :
    packetFmt addPk = 4 ∧ packetOp addPk = 1 ∧ base.region hbmBase = .hbm 0 0 ∧
      base.baseToll (base.classOf 0) 1 = unmetered ∧ base.cells = [] ∧ base.hbms = [] ∧ base.unsavedChunk hbmBase 128 = none ∧ fxClean MemFx.clean = true ∧
      base.rd F.HBM_CTRL_OFFLINE 0 = 0 ∧
      ok (.meshAdd addPk MemFx.clean []) (base.poke hbmBase [1, 0, 0, 0xFF]) (fun t => t.peek hbmBase 8 == [1, 1, 2, 2, 4, 5, 6, 7]) := by
  decide +kernel

theorem wit_StaleAndFinishedPacketsLeave :
    ({ pk 1 27 hubBase with gen := 1 }).gen ≠ base.gen 0 ∧
      ok (.meshRead { pk 1 27 hubBase with gen := 1 } MemFx.clean) base (fun t => t.rd F.CTX_STALE_COUNT 0 == 1) ∧
      ok (.meshResp (pk 5 3 0)) base (fun t => t.resps.length == 1) ∧
      ok (.meshResp { pk 5 3 0 with status := 3 }) base (fun t => t.resps == []) ∧
      ok (.meshResp { pk 5 3 0 with gen := 4095 }) base (fun t => t.resps == [] && t.rd F.CTX_STALE_COUNT 0 == 1) ∧
      ok (.meshCtrl (pk 6 3 0)) base (fun t => t.out.length == 1) := by decide +kernel

theorem wit_MeshWritesAndSignals_signal :
    ok (.meshSignal { pk 4 3 0 with ticket := BitVec.ofNat 64 (0x300 + 2 ^ 14 + 5 * 2 ^ 16) }) base (fun t =>
        (t.bollard 0x300).count == 5) ∧
      base.idHole 0x300 = false ∧ (base.bollard 0x300).owner = 0 := by decide +kernel

/-- Wire 2047 and the +X edge of node 0; a group whose spare is in use. -/
def worn : State := (base.setEdge (0 * 4 + 1) { EdgeDir.reset with lastBad := [2047] })
def worn2 : State := (base.setEdge (0 * 4 + 1) { lastBad := [2047], failed := [2046], steered := [63], steering := false })
theorem wit_EdgesRepairThemselves :
    neighbour 0 1 = some 1 ∧ base.edgeState 0 1 = 0 ∧ base.rd (edgeFld F.MSH_EDGE_SPARES_USED 1) 0 < 64 ∧
      ok (.checkFlit 0 1 [2047]) base (fun t => (t.edge 1).lastBad == [2047] && (t.edge 1).failed == []) ∧
      ok (.checkFlit 0 1 [2047]) worn (fun t => (t.edge 1).steered == [63] && (t.edge 1).steering &&
        t.rd (edgeFld F.MSH_EDGE_SPARES_USED 1) 0 == 1) ∧
      worn2.rd F.MSH_FLOOR_FLOOR 0 = 0 ∧ worn2.rd F.MSH_FLOOR_FLOOR 1 = 0 ∧
      ok (.checkFlit 0 1 [2047]) worn2 (fun t => t.rd (edgeFld F.MSH_EDGE_STATE 1) 0 == 1 &&
        t.rd (edgeFld F.MSH_EDGE_LIVE_HALF 3) 1 == 0 && t.rd (edgeFld F.MSH_EDGE_LAT_CLK 1) 0 == 13) ∧
      ok (.steerDone 0 1) (base.setEdge 1 { EdgeDir.reset with steering := true }) (fun t => (t.edge 1).steering == false) := by
  decide +kernel

/-! ### Ill-formed terms: one for each check of `Instr.wf` -/

def im0 : InitMsg := ⟨2, 3, 4, [1, 2, 3], 2048, 0, 0⟩
def vm0 : VetoMsg := ⟨7, false, false, false, 4, 3⟩
theorem test_wf_refuses :
    [Instr.checkFlit 64 0 [], .checkFlit 0 4 [], .winHeadWrite 1024 0 0 false, .winHeadWrite 0 8 0 false, .winStep 0 256, .strStart 16384,
      .bollardWrite 16384 0 none, .ctxArm 64, .ferryEnable 128, .landingDrain 64, .creditReturn 0 64, .mooringPublish 128, .bubbleFill 16 true,
      .pontoonGrant 1024, .vetoDeadline 4, .hbmMarginDone 24, .blkMarginDone 4, .partitionEnable 16 0, .portEnable 48, .pciRetrain 2,
      .cpxFlush 4, .forwardReceive 97 0, .tapBackdoor (2 ^ 64) none].all (fun c => !c.wf) = true ∧
    [Instr.patrolScrub 0 [3] false, .patrolScrub 64 [] false, .patrolScrub 0 (List.replicate 9 0) false, .pgResume 64 0, .pgResume 0 1024, .meshRead (pk 2 0 0) MemFx.clean, .meshRead (pk 1 64 0) MemFx.clean,
      .meshRead { pk 1 0 0 with ctx := 64 } MemFx.clean, .meshRead { pk 1 0 0 with vc := 2 } MemFx.clean,
      .meshRead { pk 1 0 0 with len := 1, data := List.replicate 512 0 } MemFx.clean, .meshAdd (pk 3 0 0) MemFx.clean [pk 2 0 0], .meshRead { pk 1 0 0 with inlineLen := 449 } MemFx.clean,
      .meshRead (pk 1 0 0) { MemFx.clean with ecc := 3 }, .nop (del (man 1 0 0 0 [] 0 0)), .nop { del (man 0 0 0 0 [] 0 0) with snap := [] },
      .nop { del (man 0 0 0 0 [] 0 0) with stream := 16384 }, .nop { del [0] with gen := 4096 }, .ostepCommit (del (man 0x1C 0 0 0 [] 0 0)),
      .landingHeader 48 { FerryHdr.zero with format := 5 }, .landingHeader 49 FerryHdr.zero, .landingHeader 0 { FerryHdr.zero with dims := [] },
      .flitReceive 0 { (default : Flit) with payload := [] } ⟨true, 0, 0⟩, .initReceive 0 { im0 with bufs := [] },
      .pauseReceive 0 ⟨3, 7, false⟩, .vetoUpReceive 0 { vm0 with job := 65536 }, .vetoClose 0 (2 ^ 32), .engineTake (.opt 32),
      .registerWrite 0 0 (.hart 96) [], .registerWrite 0 0 .mgmt [(0, .pcie 2)], .monitorSample (.tdie 64 0) 0, .faultReport [⟨0, 6, 0, 0, 0, 0, 0⟩], .bollardPoll 0 12].all (fun c => !c.wf) = true ∧
    [Instr.coreRead 0 0 0 default 8 0 0 0 MemFx.clean, .coreRead 0 0 0 default 0 4 0 0 MemFx.clean, .coreRead 0 0 0 default 0 0 8 0 MemFx.clean,
      .coreWriteRetire 0 0 0 default true 8 0 0, .tileLoad 0 512 0, .tileLoad 0 0 65, .stagingLineLands 0 1024,
      .paramWrite 0 16 0 false, .tideEpochFrame 65536 0 0, .tolWrite 65 0 0, .bankStateRequest 0 8 0, .bankTransitionDone 0 256,
      .directorySweepDone [(0, [])], .resumeReceive 0 65536, .laneLockLoss 0 8, .lockReturn 0 256, .creditReport 0 3,
      .transitForward 0 256 0 FerryHdr.zero, .abortReceive 0 0 65536, .writeback 0 0 [] 0, .writeback 0 0 (List.replicate 64 0) 3, .fsend (del (man 0x10 1 0 0 [] 0 0)), .forwardFsend (del (man 0x10 0 0 0 [] 0 0)), .cpxFlushDone 0 [(0, [])], .computeReset 256,
      .moduleReset 256 [], .moduleReset 0 [256], .protectiveTrip 256, .pcieLinkChange 0 true 16 0 true 0 0, .pcieLinkChange 0 true 0 17 true 0 0, .lcsBurnDone 4, .tamperEvent 16, .fusProgKeyHash 4,
      .logRecordCommit 256 0 [], .logRecordCommit 0 0 (List.replicate 4065 0), .mctpMessage 0 0 128, .mctpMessage 0 1024 0, .deadlineTimeout 16384 false [], .teardownStop 64 [], .teardownStop 0 [16384],
      .tapDieSelect (some ⟨0, .loopBack, [(256, 0)]⟩), .tapDieSelect (some ⟨0, .loopBack, [(0, 65)]⟩),
      .powerOnSequence ⟨false, false, false, true, [(24, 0)], 0⟩, .powerOnSequence ⟨false, false, false, true, [], 8⟩].all (fun c => !c.wf) = true := by
  decide +kernel
/-- ... and well-formed neighbours. -/
theorem test_wf_accepts :
    [Instr.checkFlit 63 3 [], .strStart 16383, .meshRead (pk 1 0 0) MemFx.clean, .nop (del (man 0 0 0 0 [] 0 0)), .engineTake (.opt 31),
      .ostepCommit (del (man 0x1C 1 0 0 [] 0 0)), .initReceive 47 im0, .pauseReceive 0 ⟨2, 3, false⟩, .vetoUpReceive 0 vm0,
      .landingHeader 48 { FerryHdr.zero with dims := [1, 1, 1, 1] }, .ctxArm 63].all Instr.wf = true := by decide +kernel

/-! ### Worked examples of the spec -/

/-- The conformance vectors V1 to V3 of R54 and R55. -/
theorem ex_rounding_hash : roundHash 0 0 0 0 0 = 0x9E5467_72D9F97005 ∧ roundHash 0 0 1 2 5 = 0xD3B66A37_E1A3040D ∧
    roundHash 0x1111111111111111 0x2222222222222222 0 0 0 = 0x31063903_8AE66F6B := by decide +kernel

/-- Chapter 02, a three-block dot product and its requantisation. -/
theorem ex_dot_product : tileExp 1 [-11, -10, -40] 0 = -36 ∧
    accumulate 0 (-36) [(9000, -11), (-11307, -10), (2600, -40)] = (-456810037086, 0) := by decide +kernel
/-- The hypotheses of RequantisationRounds hold of these values. -/
theorem ex_requantise :
    requantBlock [120000000000, -456810037086, 5000000] (-36) 1 none = (⟨-4, [28, -106, 0]⟩, 0) ∧
      srShift (-456810037086) 32 (roundHash 0 0 1 2 5) = -106 := by decide +kernel

/-- Chapter 08, a partitioned access and a retired page (R291 to R293). -/
def partS : State :=
  let s := ((((State.reset.wr F.PRT_CFG_ENABLE 2 0 1).wr F.PRT_CFG_GRANULE 2 0 4).wr F.PRT_STACKS_MASK 2 0 0xF0).wr F.PRT_RANGE_BASE 2 0 8192).wr F.PRT_RANGE_SIZE 2 0 4096
  { s with tolls := [(5 * 8 + 1, 400002)] }
def retired : State := partS.setStack 6 { partS.stack 6 with table := [(0, BitVec.ofNat 64 (0x20_0043 + 0x2F_FFFF * 2 ^ 24 + 2 ^ 63))] }
theorem ex_partition : partS.partAddr 2 0x12_3440 = 0x0162_0004_3440 ∧ partS.partSize 2 = 16 * 2 ^ 30 ∧
    retired.phys 0x0162_0004_3440 = 0x0162_FFFF_F440 ∧
    [4, 5, 6, 7].map (fun k => partS.toll 5 1 (2 * 32 + k)) = [100001, 100001, 100000, 100000] := by decide +kernel

/-- Chapter 14, one write, two clamps. -/
theorem ex_clamps : ok (.registerWrite (regAddr 0x14 14 0x48) 0x7D034 (.hart 0) []) State.reset (fun t =>
    t.reg (regKey 0x14 14 0x48) == 0x3E820 && t.reg (regKey 0x14 14 0x30) == 0x8000000000010009) := by decide +kernel

/-- R34 to R36: from site 25 to 30 through the hub, hop by hop. -/
theorem ex_route : [25, 26, 27, 28, 29].map (fun n => match exec (.meshHop n (pk 1 30 0) true) base with
    | .next t => t.net.map Prod.fst
    | _ => []) = [[26], [27], [28], [29], [30]] := by decide +kernel

/-! ### Witnesses: streams, bollards, engine queues -/

/-- Stream 3 of the hub position 27, whose copy of the tide is the count itself (R157). -/
abbrev hs : Nat := 6915
/-- ... with a ring of two manifests in hub memory. -/
def ring : State :=
  ((((base.wr F.STR_RING_BASE_BASE 432 3 (hubBase / 128)).wr F.STR_RING_LEN_LEN 432 3 2).wr F.STR_CFG_RUNAHEAD 432 3 4).wr
    F.STR_RING_LEN_REPLAYS 432 3 3)
def str (f : Stream → Stream) : State := ring.setStream hs (f Stream.reset)
def dec (ws : List Word) : Decoded := ⟨ws, hubBase, 0, 0, zeros16, 0, false⟩

theorem wit_StreamsTakeCommandsAndParameters :
    ring.idHole hs = false ∧ ring.queueMode hs = false ∧
      ok (.strStart hs) ring (fun t => (t.stream hs).st == .running) ∧
      ok (.strStop hs) (str fun x => { x with st := .held }) (fun t => (t.stream hs).st == .stopped) ∧
      ok (.strResume hs) (str fun x => { x with st := .timeout }) (fun t => (t.stream hs).st == .running) ∧
      ok (.strStart hs) (str fun x => { x with st := .done }) (fun t => (t.stream hs).st == .done) ∧
      ok (.strRewind hs) (str fun x => { x with st := .timeout }) (fun t => (t.stream hs).st == .timeout) ∧
      ok (.paramWrite hs 15 9 false) ring (fun t => (t.stream hs).params.getD 15 0 == 9) ∧
      ok (.strTailWrite hs 1) ring (fun t => t.str F.STR_TAIL_TAIL hs == 1) ∧
      ok (.strTailWrite hs 2) ring (fun t => t.str F.STR_TAIL_TAIL hs == 1) := by decide +kernel

/-- A head whose bounded WAIT 0 is unmet, with DEADLINE 1 passed. -/
def late : List Word := setNth (setNth (man 0 0 0 0 [] 0 0) 6 (BitVec.ofNat 64 (2 ^ 14 + 2 ^ 15 + 5 * 2 ^ 32))) 13 1
def waiting : State :=
  { str (fun x => { x with st := .waiting, registered := true, store := [dec late] }) with
    waiters := [⟨0, 5, hs, 0, false, false, false, false⟩], tide := { Tide.reset with count := 9 } }

theorem wit_StreamsCancelAndTimeOut :
    (waiting.stream hs).st.active = true ∧ waiting.stageOf hs = none ∧ waiting.stages = [] ∧ waiting.past hs late = true ∧ waiting.boundedUnmet hs (dec late) = true ∧
      ok (.strCancel hs true) waiting (fun t => (t.stream hs).st == .stopped && t.waiters == [] && t.rd F.STR_RACE_COUNT 432 3 == 1) ∧
      ok (.strRewind hs) (str fun x => { x with st := .done, issueIdx := 1, replay := 2 }) (fun t =>
        (t.stream hs).st == .idle && (t.stream hs).issueIdx == 0) ∧
      ok (.deadlineTimeout hs false []) waiting (fun t => (t.stream hs).st == .timeout && t.rd F.STR_TIMEOUT_COUNT 432 3 == 1) ∧
      ok (.deadlineTimeout hs true []) waiting (fun t => (t.stream hs).st == .waiting && (t.stream hs).headLate) ∧
      ok (.notBeforeRelease hs) waiting (fun t => (t.stream hs).nbReleased) ∧
      ok (.notBeforeRelease hs) (waiting.setStream hs { waiting.stream hs with store := [dec (setNth late 12 10)] }) (fun t =>
        (t.stream hs).nbReleased == false) := by decide +kernel

def decoding (idx : Nat) : State :=
  str fun x => { x with st := .running, decIdx := idx, snaps := [(0, zeros16)] }
/-- Replay 1 of a gated stream: bollard 5 is one short of the target. -/
def gatedStr : State :=
  ((((str fun x => { x with st := .running, decReplay := 1 }).wr F.STR_CFG_GATE_EN 432 3 1).wr F.STR_GATE_BOLLARD 432 3 5).wr
    F.STR_GATE_TARGET 432 3 1)
theorem wit_DecodeStoresPatchedManifest :
    (decoding 1).frozen 27 = false ∧ (decoding 1).nextFetch hs = some (hubBase + 128) ∧ (decoding 1).gated hs = false ∧
      (decoding 1).listDue hs = none ∧ (decoding 1).fetchHeld hs (hubBase + 128) = none ∧ (decoding 1).decodeTurn hs = true ∧
      ((decoding 1).stream hs).snapOf 0 = some zeros16 ∧
      ((decoding 1).chargeMesh ((decoding 1).strClass hs) 27 ((decoding 1).meshFlits 27 false (sectors (hubBase + 128) 128))).chargeSectors
        ((decoding 1).strClass hs) (sectors (hubBase + 128) 128) = decoding 1 ∧
      (decoding 1).memRead 27 false (hubBase + 128) 128 MemFx.clean = (List.replicate 128 0, 0, decoding 1) ∧
      ok (.manifestDecode hs) (decoding 1) (fun t => (t.stream hs).decIdx == 0 && (t.stream hs).decReplay == 1 &&
        (t.stream hs).store.map Decoded.words == [zeros16]) ∧
      gatedStr.nextFetch hs = some hubBase ∧ gatedStr.gated hs = true ∧ (gatedStr.bollard 5).owner = gatedStr.strCtx hs ∧
      atOrAfter 32 (gatedStr.bollard 5).count.toNat (gatedStr.gateTarget hs 1) = false ∧ gatedStr.poolUsed 0 < 2048 ∧
      ok (.manifestDecode hs) gatedStr (fun t => t.waiters == [⟨5, 1, hs, 4, false, false, false, false⟩] && (t.stream hs).gateReg) := by
  decide +kernel

def head (ws : List Word) : State :=
  (str fun x => { x with st := .running, registered := true, store := [dec ws] }).poke (hAt 1) (memH hubBase).bytes
def nopW : List Word := man 0 0 0 0 [] 0 0
def pputHead : List Word := man 0x18 0 0 0 [0, opw (hAt 1)] 0 0
/-- The class of context 0 has used up its ENERGY toll. -/
def spentS : State := { head nopW with tolls := [((head nopW).classOf 0 * 8 + 6, 0)] }
theorem wit_IssueTakesReadyHead :
    (head nopW).headReady hs = true ∧ (head nopW).blocked hs = false ∧ (head nopW).powerActive = true ∧
      (head nopW).issueHeld hs (resolveWords (dec nopW)) = none ∧ (head nopW).findings hs (dec nopW) = [] ∧
      (head nopW).issuesNop hs (dec nopW) ((head nopW).deliver hs (dec nopW)) = false ∧
      (head nopW).accepts (resolveWords (dec nopW)) = true ∧ (head nopW).stageOf hs = none ∧
      ok (.manifestIssue hs) (head nopW) (fun t =>
        (t.stream hs).store == [] && (t.stream hs).issued.map (·.asNop) == [false] && (t.stream hs).issueIdx == 1) ∧
      (head (man 0xFF 0 0 0 [] 0 0)).issuesNop hs (dec (man 0xFF 0 0 0 [] 0 0))
        ((head (man 0xFF 0 0 0 [] 0 0)).deliver hs (dec (man 0xFF 0 0 0 [] 0 0))) = true ∧
      ok (.manifestIssue hs) (head (man 0xFF 0 0 0 [] 0 0)) (fun t => (t.stream hs).issued.map (·.asNop) == [true]) ∧
      (head pputHead).headReady hs = true ∧ (head pputHead).issueHeld hs (resolveWords (dec pputHead)) = none ∧
      (head pputHead).issuesNop hs (dec pputHead) ((head pputHead).deliver hs (dec pputHead)) = false ∧
      ok (.manifestIssue hs) (head pputHead) (fun t => (t.stream hs).issued == [] && (t.stream hs).store.length == 1) ∧
      spentS.issueHeld hs (resolveWords (dec nopW)) = some 6 ∧ spentS.headReady hs = true ∧
      ok (.manifestIssue hs) spentS (fun t => (t.stream hs).st == .held && (t.stream hs).issued == []) ∧
      ok (.manifestIssue hs) ((head nopW).setStream hs { (head nopW).stream hs with registered := false }) (fun t =>
        (t.stream hs).issued == [] && (t.stream hs).store.length == 1) := by decide +kernel

/-- A completed manifest, with and without RECORD. -/
def retiring (flags : Nat) : State :=
  ((str fun x => { x with st := .running, issued := [{ issd (del (man 0 0 flags 0 [] 0 0)) with complete := true, idx := 1, replay := 2 }] }).wr
    F.STR_CREC_LEN_LEN 432 3 4).wr F.STR_CREC_BASE_BASE 432 3 (hubBase / 16)
theorem wit_RetireCountsAndRecords :
    (retiring 0).tearing 0 = false ∧ (retiring 0).stageOf hs = none ∧ 0 < (retiring 16).str F.STR_CREC_LEN_LEN hs ∧
      (∀ k : Nat, k < 16 → (retiring 16).region (hubBase + k) = .hubmem) ∧ (retiring 16).unsavedChunk hubBase 16 = none ∧
      ok (.manifestRetire hs) (retiring 0) (fun t => (t.stream hs).issued == [] && (t.stream hs).retired == 1 && (t.ctx 0).retired == 1) ∧
      ok (.manifestRetire hs) (retiring 16) (fun t => t.peek hubBase 16 == [1, 0, 0, 0, 2, 0, 0, 0, 0, 0, 0, 0, 0, 0, 0, 0] &&
        (t.stream hs).crecIdx == 1) := by decide +kernel

/-- Two waits, and one registered as a poll, of bollard 5. -/
def threeWaits : State :=
  { base with waiters := [⟨5, 1, hs, 0, false, false, false, false⟩, ⟨5, 2, hs, 1, false, false, false, false⟩,
      ⟨5, 1, hs, 3, true, false, false, false⟩] }
theorem wit_BollardWritesReleaseWaiters :
    base.idHole 5 = false ∧
      ok (.bollardWrite 5 1 none) threeWaits (fun t => (t.bollard 5).count == 1 &&
        t.waiters == [⟨5, 2, hs, 1, false, false, false, false⟩, ⟨5, 1, hs, 3, true, true, false, false⟩]) ∧
      ok (.bollardPoll hs 3) { base with waiters := [⟨5, 1, hs, 3, true, true, false, false⟩] } (fun t => t.waiters == [] && (t.stream hs).met == 8) ∧
      ok (.bollardPoll hs 4) { base with waiters := [⟨5, 0, hs, 4, true, false, false, false⟩] } (fun t => (t.stream hs).gateMet) ∧
      ok (.bollardPoll hs 3) threeWaits (fun t => t == threeWaits) := by decide +kernel

def nopD : Delivered := del (man 0x13 0 0 0 [] 8 0)
def queued (e : Engine) : State := base.setEngineQ (engineKey e) { EngineQ.reset with entries := [nopD] }
theorem wit_EngineTakesQueueEntry :
    (queued (.mooring 1)).pick [] ((queued (.mooring 1)).engineQ (engineKey (.mooring 1))).entries = some nopD ∧
      (queued (.mooring 1)).eligible (.mooring 1) nopD = true ∧ (queued (.coreSeq 0)).eligible (.coreSeq 0) nopD = true ∧
      ok (.engineTake (.mooring 1)) (queued (.mooring 1)) (fun t => (t.engineQ (engineKey (.mooring 1))).cur == some nopD) ∧
      ok (.engineTake (.coreSeq 0)) (queued (.coreSeq 0)) (fun t => (t.pilot 0).seq == [nopD]) ∧
      ok (.engineTake (.mooring 1)) ((queued (.mooring 1)).setCtx 0 { Ctx.reset with gen := 4095 }) (fun t =>
        (t.engineQ (engineKey (.mooring 1))).entries == [] && t.rd F.CTX_STALE_COUNT 0 == 1) ∧
      ok (.groupDeliver 1 nopD true) (base.setPilot 1 { Pilot.reset with group := [nopD] }) (fun t =>
        (t.pilot 1).group == [] && (t.engineQ (engineKey (.coreSeq 1))).entries == [nopD] && t.rd F.PIL_GROUP_LATE_COUNT 1 == 1) ∧
      (queued (.mooring 1)).gen 0 = nopD.gen ∧ ∀ x : Nat, Engine.mooring 1 ≠ .coreSeq x := by
  refine ⟨?_, ?_, ?_, ?_, ?_, ?_, ?_, ?_, fun x h => nomatch h⟩ <;> decide +kernel

/-! ### Witnesses: the tensor cores (core 5 of site 0) -/

def fullWin : Win := [0, 262144, 0, 0]
def fly (d : Delivered) : Inflight :=
  { d := d, reads := [], writes := [], tainted := [], before := [], windows := List.replicate 8 fullWin, issueClk := 0,
    tableOk := true, done := 0 }

/-- A core manifest in flight on core 5 with these handles. -/
def onCore5 (d : Delivered) (hs : List Handle) : State :=
  let s1 := hs.zipIdx.foldl (fun (t : State) h => t.poke (hAt h.2) h.1.bytes) (outst base d)
  s1.setCore 5 { s1.core 5 with inflight := [fly d] }

def near5 : Nat := 0x500_0000
def i32s (l : List Int) : List Byte := l.flatMap fun v => leBytes 4 (code 32 v)

def addD (sub : Nat) : Delivered := del (man 4 sub 0 0 (hOps 4) 0 0)
def vecS (sub : Nat) : State :=
  (onCore5 (addD sub) [hdl 0x400 0 4 1, hdl 0 0 4 1, hdl 0x200 0 4 1, hdl 0x300 0 4 1]).poke near5 (i32s [7]) |>.poke (near5 + 0x200) (i32s [-9])

theorem wit_VecComputesLanes_hyps :
    (vecS 0).onCore 5 (addD 0) = some (fly (addD 0)) ∧ ((vecS 0).coreHandle (addD 0) 0).fmt = 4 ∧
      ((vecS 0).outBox 5 (addD 0)).rows = [[0, 0, 0]] ∧ ((vecS 0).outBox 5 (addD 0)).dim 0 = (0, 1) ∧
      (vecS 0).vecLanes (fly (addD 0)) 5 1 [0, 0, 0] 0 (0, 1) = some ([7].map fun x => (x, 0)) ∧
      (vecS 0).vecLanes (fly (addD 0)) 5 2 [0, 0, 0] 0 (0, 1) = some ([-9].map fun x => (x, 0)) ∧
      (vecS 0).vecLanes (fly (addD 0)) 5 3 [0, 0, 0] 0 (0, 1) = some ([0].map fun x => (x, 0)) := by decide +kernel

theorem wit_VecComputesLanes_lanes : ∀ j : Nat, fitsLane (([7] : List Int).getD j 0 + ([-9] : List Int).getD j 0) := by
  intro j
  cases j <;> simp [fitsLane]

/-- 7 and -9 under ADD, MUL, SHIFT by 9 and SELECT by 0. -/
theorem wit_VecComputesLanes :
    [0, 2, 5, 6].map (fun sub => match exec (.vec 5 (addD sub)) (vecS sub) with
      | .next t => signed 32 (leNat (t.peek (near5 + 0x400) 4))
      | _ => 0) = [-2, -63, 0, -9] := by decide +kernel

def redD (op sub : Nat) (w1 : Word) : Delivered := del (man op sub 0 w1 (hOps 2) 0 0)
def redS (d : Delivered) (n : Nat) (vs : List Int) : State := (onCore5 d [hdl 0x400 0 4 n, hdl 0 0 4 vs.length]).poke near5 (i32s vs)
theorem wit_VredAndFuncComputeLanes_vred :
    (redS (redD 5 0 0) 1 [3, -5, 4]).rowLanes (fly (redD 5 0 0)) 5 ((redS (redD 5 0 0) 1 [3, -5, 4]).coreHandle (redD 5 0 0) 1)
        ((redS (redD 5 0 0) 1 [3, -5, 4]).slicePos 5 (redD 5 0 0)) [0, 0, 0] = some ([3, -5, 4].map fun x => (x, 0)) ∧
      ((redS (redD 5 0 0) 1 [3, -5, 4]).coreHandle (redD 5 0 0) 0).dim 0 = 1 ∧
      (redS (redD 5 0 0) 1 [3, -5, 4]).vredRows 5 (redD 5 0 0) = [[0, 0, 0]] ∧
      (List.range 3).map (fun sub => match exec (.vred 5 (redD 5 sub 0)) (redS (redD 5 sub 0) 1 [3, -5, 4]) with
        | .next t => signed 32 (leNat (t.peek (near5 + 0x400) 4))
        | _ => 0) = [2, 4, -5] := by decide +kernel

/-- FUNC with table 0 (EXP2) of 0: 2^0 = 1 with 16 fraction bits (R73). -/
theorem wit_VredAndFuncComputeLanes_func :
    (redS (redD 6 0 0) 1 [0]).coreBlock (fly (redD 6 0 0)) 5 ((redS (redD 6 0 0) 1 [0]).coreHandle (redD 6 0 0) 1) [0, 0, 0] 0 (0, 1) =
        some ⟨0, [0]⟩ ∧
      ((redS (redD 6 0 0) 1 [0]).outBox 5 (redD 6 0 0)).rows = [[0, 0, 0]] ∧ ((redS (redD 6 0 0) 1 [0]).outBox 5 (redD 6 0 0)).dim 0 = (0, 1) ∧
      (((redS (redD 6 0 0) 1 [0]).core 5).funcLane 0 0 0).2 = 0 ∧
      ok (.func 5 (redD 6 0 0)) (redS (redD 6 0 0) 1 [0]) (fun t => t.peek (near5 + 0x400) 4 == [0, 0, 1, 0]) := by decide +kernel

theorem wit_CoresCopyAndStage_copy :
    ok (.copy 5 (redD 8 0 0)) (redS (redD 8 0 0) 2 [70000, -1]) (fun t => t.peek (near5 + 0x400) 8 == i32s [70000, -1]) ∧
      ok (.tload 5 (redD 7 0 (BitVec.ofNat 64 (0x1F * 2 ^ 48)))) (redS (redD 7 0 (BitVec.ofNat 64 (0x1F * 2 ^ 48))) 1 [1]) (fun t =>
        ((t.core 5).tables.map Prod.fst) == [0x1F]) := by decide +kernel

/-- The input's line was read early: its block is poisoned (R104), and every bank is ON. -/
def taintedS : State :=
  let s := redS (redD 8 0 0) 1 [7]
  s.setCore 5 { s.core 5 with inflight := [{ fly (redD 8 0 0) with tainted := [.line near5 false] }] }
theorem wit_CoresCopyAndStage_poisoned :
    taintedS.coreBlock { fly (redD 8 0 0) with tainted := [.line near5 false] } 5 (taintedS.coreHandle (redD 8 0 0) 1) [0, 0, 0] 0 (0, 1) = none ∧
      ok (.copy 5 (redD 8 0 0)) taintedS (fun t => t.rd F.TC_POISON_CNT_COUNT 5 == 1) := by decide +kernel
def line1 : SLine := ⟨List.replicate 512 1, false, 0, 0⟩
def stg (f : Core → Core) : State := base.setCore 5 (f Core.reset)
def wfD : Delivered := del (man 2 0 0 0 [0, opw (hAt 1)] 0 0)
/-- A weight tensor of one row of 32 m8 elements in hub memory. -/
def wfS : State := ((outst base wfD).poke (hAt 1) { hdl 0 0 1 32 with addr := hubBase + 0x2000, saddr := hubBase + 0x3000 }.bytes)
def wfH : Handle := { hdl 0 0 1 32 with addr := hubBase + 0x2000, saddr := hubBase + 0x3000 }
theorem wit_CoresCopyAndStage_staging :
    ok (.stagingLineLands 5 511) (stg fun c => { c with toStage := [line1] }) (fun t => (t.core 5).staging == [(511, line1)]) ∧
      ok (.stagingLineLands 5 511) (stg fun c => { c with toStage := [line1], awaiting := some (511, 1), hold := 1 }) (fun t =>
        (t.core 5).shadow == [line1] && (t.core 5).hold == 0) ∧
      ok (.tileLoad 5 511 1) (stg fun c => { c with staging := [(511, line1)] }) (fun t => (t.core 5).shadow == [line1]) ∧
      ok (.tileLoad 5 511 1) (stg fun c => { c with staging := [(511, line1)], shadow := [line1, line1] }) (fun t =>
        (t.core 5).shadow == [line1] && (t.core 5).active == [line1, line1]) ∧
      ok (.tileLoad 5 0 1) base (fun t => (t.core 5).hold == 1 && t.rd F.TC_HOLD_WEIGHT_COUNT 5 == 1 && (t.core 5).awaiting == some (0, 1)) := by
  decide +kernel
theorem wit_CoresCopyAndStage_prefetch :
    wfS.live wfD = true ∧ wfS.handleOf wfD (opAddr (mOperand wfD.words 1)) = some wfH ∧
      (wfS.saveAhead []).1 = true ∧ wfS.owedOf wfD = none ∧ wfS.tollHeld (wfS.classOf 0) 3 0 = false ∧
      ((wfS.chargeMesh (wfS.classOf 0) 0 (wfS.meshFlits 0 false (wfS.weightSectors wfD wfH) + 0)).admitSectors (wfS.classOf 0)
        (wfS.weightSectors wfD wfH ++ [])).1 = [] ∧
      (∀ a ∈ wfS.weightSectors wfD wfH, wfS.readCause [] a = none) ∧ wfH.fmt < 3 ∧ wfH.coreRows (wfS.slicePos 5 wfD) ≠ [] ∧
      (wfS.stageTiles 5 wfD [] wfH).length = 32 ∧
      ok (.wprefetch 0 wfD []) wfS (fun t => (t.core 5).toStage.length == 32) := by decide +kernel

def mmD : Delivered := del (man 1 0 0 0 (hOps 2) 0 0)
def m8a : Handle := hdl 0 0x800 1 32
/-- One activation row of 32 m8 elements 2, exponents 0; the weight tile is full of 3s. -/
def mmS : State :=
  let s := ((onCore5 mmD [m8a, hdl 0x900 0xA00 1 32]).poke near5 (List.replicate 32 2)).poke (near5 + 0x800) [0]
  s.setCore 5 { s.core 5 with active := List.replicate (arrayLines 1 1) ⟨List.replicate 512 3, false, 0, 0⟩ }
theorem wit_MatmulAccumulatesAndRequantWrites_matmul :
    mmS.onCore 5 mmD = some (fly mmD) ∧ mmS.macPart 5 mmD = ⟨[[0, 0, 0]], [[0, 0, 0]], (0, 32)⟩ ∧ blocksOf (0, 32) = [0] ∧
      (mmS.coreHandle mmD 0).fmt = 1 ∧ (mmS.coreHandle mmD 1).fmt = 1 ∧ arrayTiles 1 1 1 = 1 ∧
      blockSpan (max ((mmS.coreHandle mmD 0).part (mmS.slicePos 5 mmD) 0).1 0, min ((mmS.coreHandle mmD 0).part (mmS.slicePos 5 mmD) 0).2 32) 0 =
        (0, 32) ∧
      mmS.scaleCodes (fly mmD) 5 (mmS.coreHandle mmD 0) [0, 0, 0] [0] = [(0, false)] ∧
      mmS.scaleCodes (fly mmD) 5 (mmS.coreHandle mmD 1) [0, 0, 0] [0] = [(0, false)] ∧
      mmS.coreBlock (fly mmD) 5 (mmS.coreHandle mmD 0) [0, 0, 0] 0 (0, 32) = some ⟨0, List.replicate 32 2⟩ ∧
      ok (.matmul 5 mmD) mmS (fun t => (t.core 5).active == [] && ((t.core 5).tile 0).texp == -headroom 1 &&
        ((t.core 5).tile 0).cell 0 0 == 192 * 2 ^ (headroom 1).toNat) := by decide +kernel

def rqD : Delivered := del (man 3 0 0 0 (hOps 1) 0 0)
def rqS : State :=
  let s := onCore5 rqD [hdl 0x400 0x600 1 2]
  s.setCore 5 ((s.core 5).setTile 0 { Tile.reset with cells := [(0, 5), (1, -100)] })
theorem wit_MatmulAccumulatesAndRequantWrites_requant :
    rqS.onCore 5 rqD = some (fly rqD) ∧ (rqS.requantBox 5 rqD).rows = [[0, 0, 0]] ∧ (rqS.requantBox 5 rqD).dim 0 = (0, 2) ∧
      (rqS.core 5).tile 0 = { Tile.reset with cells := [(0, 5), (1, -100)] } ∧
      (requantBlock [5, -100] 0 1 none).2 = 0 ∧ (requantBlock [5, -100] 0 1 none).1.poisoned = false ∧
      signed 8 (rqS.rd F.TC_ABSURD_EXP_LO 5) ≤ 0 ∧ 0 ≤ signed 8 (rqS.rd F.TC_ABSURD_EXP_HI 5) ∧
      ok (.requant 5 rqD) rqS (fun t => t.peek (near5 + 0x400) 2 == [5, 0x9C] && t.peek (near5 + 0x600) 1 == [0]) := by decide +kernel

def ciD : Delivered := del (man 3 0 0 0 [] 0 0)
def ciS (n : Nat) : State :=
  let s := (base.setStream 0 { Stream.reset with issued := [{ issd ciD with cores := [5] }] }).setPilot 0 { Pilot.reset with seq := [ciD] }
  s.setCore 5 { s.core 5 with inflight := List.replicate n { fly ciD with d := { ciD with seq := 9 } } }
def readS (o : ObjSt) : State :=
  (base.setCore 5 ({ Core.reset with inflight := [fly ciD] }.setObj (.tile 7) o)).wr F.TC_CTRL_TT_POLICY 5 0 0
/-- A line of bank 0 whose read port is taken until clock 9, or which window 7 has just written through. -/
def lineO : Obj := .line near5 false
def heldS (f : Core → Core) : State := (readS ObjSt.reset).setCore 5 (f ((readS ObjSt.reset).core 5))
theorem wit_TimetableHoldsOrFaults :
    (ciS 7).inTurn 5 ciD = true ∧ (ciS 8).inTurn 5 ciD = true ∧ ((ciS 8).core 5).frozen = false ∧
      ok (.coreIssue 5 ciD 3) (ciS 7) (fun t => (t.core 5).inflight.length == 8 && (t.core 5).timeline == 3) ∧
      ok (.coreIssue 5 ciD 0) (ciS 8) (fun t => (t.core 5).inflight.length == 8 && t.rd F.TC_HOLD_ISSUE_COUNT 5 == 1) ∧
      ((readS ObjSt.reset).core 5).holdOf ⟨0, 0, .tile 7, 0, 7, false, 0xFF_FFFF⟩ = none ∧
      ok (.coreRead 5 0 0 (.tile 7) 0 3 7 0xFF_FFFF MemFx.clean) (readS { ObjSt.reset with valid := false }) (fun t =>
        t.rd F.TC_TT_COUNT_COUNT 5 == 1 && t.rd F.TC_TT_INFO_OFFSET 5 == 0xFF_FFFF) ∧
      ok (.coreRead 5 0 0 (.tile 7) 0 3 7 0 MemFx.clean) (readS ObjSt.reset) (fun t => t.rd F.TC_TT_COUNT_COUNT 5 == 0) ∧
      ((heldS fun c => { c with rport := [(0, 9)] }).core 5).holdOf ⟨0, 0, lineO, 7, 7, false, 0⟩ = some (2, 9) ∧
      ((heldS fun c => { c with uses := [(15, 2)] }).core 5).holdOf ⟨0, 0, lineO, 7, 7, false, 2⟩ = some (3, 2) ∧
      ok (.coreRead 5 0 0 lineO 7 3 7 0 MemFx.clean) (heldS fun c => { c with rport := [(0, 9)] }) (fun t =>
        t.rd F.TC_HOLD_BANK_COUNT 5 == 1 && (t.core 5).hold == 2) ∧
      ok (.coreRead 5 0 0 lineO 7 3 7 2 MemFx.clean) (heldS fun c => { c with uses := [(15, 2)] }) (fun t =>
        t.rd F.TC_HOLD_PORT_COUNT 5 == 1 && (t.core 5).hold == 3) ∧
      ok (.coreWriteRetire 5 0 0 (.tile 7) true 0 7 0) (readS { ObjSt.reset with valid := false, writer := some (0, 0) }) (fun t =>
        ((t.core 5).obj (.tile 7)).valid) ∧
      ok (.coreWriteRetire 5 0 0 lineO true 7 7 0) (heldS fun c => { c with wport := [(0, 9)] }) (fun t =>
        t.rd F.TC_HOLD_BANK_COUNT 5 == 1 && (t.core 5).hold == 2) ∧
      ok (.coreManifestRetire 5 (base.rd F.TC_CTRL_SLIP_THRESH 5) 0) (readS ObjSt.reset) (fun t =>
        (t.core 5).inflight == [] && t.rd F.TC_SLIP_COUNT_COUNT 5 == 0) ∧
      ok (.coreManifestRetire 5 (base.rd F.TC_CTRL_SLIP_THRESH 5 + 1) 0) (readS ObjSt.reset) (fun t =>
        t.rd F.TC_SLIP_COUNT_COUNT 5 == 1 && t.rd F.TC_SLIP_INFO_VALID 5 == 1) := by decide +kernel
theorem wit_TimetableHoldsOrFaults_clean (i : Nat) : (readS ObjSt.reset).cleanWord (.tile 7) i := fun _ _ h => nomatch h

/-- HEAD 1, STRIDE -2 in a window of 8 words: 7; a write in the clock of a step wins. -/
def winS : State := ((base.wr F.WIN_LEN_LEN64 5 7 8).wr F.WIN_STRIDE_STRIDE64 5 7 (2 ^ 19 - 2)).wr F.WIN_HEAD_HEAD64 5 7 1
theorem wit_WindowStepsAndHeadWrites :
    ok (.winStep 5 (2 ^ 7)) winS (fun t => t.rd F.WIN_HEAD_HEAD64 5 7 == 7) ∧
      ok (.winHeadWrite 5 7 7 true) winS (fun t => t.rd F.WIN_HEAD_HEAD64 5 7 == 7 && bits (t.reg (evKey 1 5)) 0 1 == 1) := by
  decide +kernel

/-! ### Witnesses: the pilots' codes, copy engines, ferries, landings, moorings, the deferral queue -/

def psetD : Delivered := del (man 0x20 15 0 0 [] 0 77)
def stampD : Delivered := del (man 0x23 0 0 0 [] 0 (BitVec.ofNat 64 (hubBase + 8)))
def stampS : State := (outst base stampD).setStream 0 { (outst base stampD).stream 0 with issued := [{ issd stampD with tide := 258 }] }
theorem wit_HubOpcodesComplete_codes :
    (outst base (del nopW)).liveOp (del nopW) 0 = true ∧ (outst base psetD).liveOp psetD 0x20 = true ∧
      ok (.nop (del nopW)) (outst base (del nopW)) (fun t => (t.stream 0).issued.all (·.complete)) ∧
      ok (.pset psetD false) (outst base psetD) (fun t => (t.stream 0).params.getD 15 0 == 77) ∧
      ok (.pset psetD true) (outst base psetD) (fun t => (t.stream 0).params.getD 15 0 == 0) ∧
      stampS.liveOp stampD 0x23 = true ∧ stampS.issuedOf stampD = some { issd stampD with tide := 258 } ∧
      ok (.stamp stampD) stampS (fun t => t.peek (hubBase + 8) 8 == [2, 1, 0, 0, 0, 0, 0, 0]) := by decide +kernel
theorem wit_HubOpcodesComplete_stamp : stampS.hubBytes (hubBase + 8) 8 ∧ (∀ x : Nat, stampS.xlate stampD .w (hubBase + 8) 8 x = x) ∧
    stampS.passes stampD 0 [] (stampS.writeSectors stampD (hubBase + 8) 8) :=
  ⟨hubBytes_of _ _ _ (by decide +kernel) (by decide +kernel), fun x => xlate_del _ _ _ _ _ x, passes_of _ _ _ _ _ (by decide +kernel)⟩

/-- SCTRL of stream 0 for stream 3, of the same context or of context 1. -/
def sctrlD (sub : Nat) : Delivered := del (man 0x22 sub 0 0 [] 3 0)
def sctrlS (sub ctx : Nat) (st : StreamSt) : State :=
  (outst base (sctrlD sub)).wr F.STR_CFG_CTX 0 3 ctx |>.setStream 3 { Stream.reset with st := st }
theorem wit_HubOpcodesComplete_sctrl :
    (sctrlS 0 0 .idle).liveOp (sctrlD 0) 0x22 = true ∧ (sctrlS 0 0 .idle).stages = [] ∧
      ok (.sctrlStart (sctrlD 0)) (sctrlS 0 0 .idle) (fun t => (t.stream 3).st == .running) ∧
      ok (.sctrlStop (sctrlD 1)) (sctrlS 1 0 .running) (fun t => (t.stream 3).st == .stopped) ∧
      ok (.sctrlCancel (sctrlD 2) false) (sctrlS 2 0 .timeout) (fun t => (t.stream 3).st == .stopped) ∧
      (sctrlS 0 1 .idle).strCtx 3 ≠ 0 ∧
      ok (.sctrlStart (sctrlD 0)) (sctrlS 0 1 .idle) (fun t => (t.stream 3).st == .idle && t.reports.length == 1) ∧
      ok (.sctrlStop (sctrlD 1)) (sctrlS 1 1 .running) (fun t => (t.stream 3).st == .running && t.reports.length == 1) ∧
      ok (.sctrlCancel (sctrlD 2) false) (sctrlS 2 1 .running) (fun t => (t.stream 3).st == .running && t.reports.length == 1) := by
  decide +kernel

def subD (sub : Nat) : Delivered := del (man 0x21 sub 0 0 [opw (hubBase + 0x2000)] 0 1)
def subS (sub : Nat) : State :=
  let s := (outst base (subD sub)).poke (hubBase + 0x2000) (leBytes 8 (8 * 2 ^ 48))
  s.setStream 0 { s.stream 0 with walking := true }
theorem wit_ListsAndPhases_lists :
    (subS 0).liveOp (subD 0) 0x21 = true ∧ (subS 0).issuedOf (subD 0) = some (issd (subD 0)) ∧ (subS 1).liveOp (subD 1) 0x21 = true ∧
      ok (.subring (subD 0)) (subS 0) (fun t =>
        (t.stream 0).lists.map (fun l => (l.addrs, l.only)) == [([hubBase + 0x2000], false)] && (t.stream 0).walking == false) ∧
      ok (.subringRecompute (subD 1)) (subS 1) (fun t => (t.stream 0).lists.map (·.only) == [true]) := by decide +kernel

def phD (sub : Nat) : Delivered := del (man 0x23 sub 0 0 [] 0 9)
def phS (sub : Nat) (o : List OpenPhase) : State :=
  (((outst base (phD sub)).wr F.DEF_CFG_ENABLE 5 0 1).wr F.PHT_LEN_LEN 5 0 16).wr F.PHT_RING_BASE 5 0 (hubBase / 32) |>.setStage 5
    { Stage.reset with openPh := o }
def open7 : OpenPhase := ⟨7, 9, 3, 0, false⟩
/-- An older issued manifest has not retired. -/
def phLater : State :=
  (phS 0xC7 []).setStream 0 { (phS 0xC7 []).stream 0 with issued := [issd { del nopW with seq := 9 }, issd (phD 0xC7)] }
theorem wit_ListsAndPhases_phases :
    (phS 0x87 []).stageOf 0 = some 5 ∧ (phS 0x87 []).liveOp (phD 0x87) 0x23 = true ∧ (phS 0xC7 [open7]).oldest (phD 0xC7) = true ∧
      (outst base (phD 0x87)).stageOf 0 = none ∧ phLater.oldest (phD 0xC7) = false ∧ phLater.issuedOf (phD 0xC7) = some (issd (phD 0xC7)) ∧
      ok (.phaseMark (phD 0x87)) (outst base (phD 0x87)) (fun t => (t.stream 0).issued.all (·.complete)) ∧
      ok (.phaseMark (phD 0x87)) (phS 0x87 []) (fun t => (t.stage 5).openPh.map (·.phase) == [7]) ∧
      ok (.phaseMark (phD 0xC7)) (phS 0xC7 []) (fun t => (t.stage 5).openPh == [] && (t.stream 0).issued.all (·.complete)) ∧
      ok (.phaseMark (phD 0xC7)) phLater (fun t => t == phLater) ∧
      ok (.phaseMark (phD 0xC7)) (phS 0xC7 [open7]) (fun t => (t.stage 5).openPh == [] && t.peek hubBase 1 == [3]) := by decide +kernel
theorem wit_ListsAndPhases_ring : (phS 0xC7 [open7]).hubBytes hubBase 32 :=
  hubBytes_of _ _ _ (by decide +kernel) (by decide +kernel)

def mvD (op sub : Nat) : Delivered := del (man op sub 0 0 (hOps 2) 0 0)
def mvS (e : Engine) (d : Delivered) : State :=
  (((inHand base e d).poke (hAt 0) (memH hubBase).bytes).poke (hAt 1) (memH (hubBase + 0x200)).bytes).poke (hubBase + 0x200) (i32s [5, -6]) |>.poke
    hubBase (i32s [1])
theorem wit_MoveAndMaddCompute :
    (mvS (.copier 0) (mvD 9 0)).ready (mvD 9 0) = true ∧ (mvS (.adder 0) (mvD 0x0A 1)).ready (mvD 0x0A 1) = true ∧
      (mvS (.copier 0) (mvD 9 0)).pairOf (mvD 9 0) = some (memH hubBase, memH (hubBase + 0x200)) ∧
      (mvS (.adder 0) (mvD 0x0A 1)).pairOf (mvD 0x0A 1) = some (memH hubBase, memH (hubBase + 0x200)) ∧
      ok (.move (mvD 9 0) []) (mvS (.copier 0) (mvD 9 0)) (fun t => t.peek hubBase 12 == i32s [5, -6, 0]) ∧
      ok (.madd (mvD 0x0A 1) []) (mvS (.adder 0) (mvD 0x0A 1)) (fun t => t.peek hubBase 12 == i32s [6, -6, 0]) := by decide +kernel
theorem wit_MoveAndMaddCompute_passes (p : Perm) (a n x : Nat) :
    (mvS (.copier 0) (mvD 9 0)).xlate (mvD 9 0) p a n x = x ∧ (mvS (.copier 0) (mvD 9 0)).hubBytes hubBase 128 ∧
      (mvS (.copier 0) (mvD 9 0)).passes (mvD 9 0) 0
        ((mvS (.copier 0) (mvD 9 0)).pairSectors (mvD 9 0) .w (memH hubBase) (memH (hubBase + 0x200))).1
        ((mvS (.copier 0) (mvD 9 0)).pairSectors (mvD 9 0) .w (memH hubBase) (memH (hubBase + 0x200))).2 ∧
      (mvS (.adder 0) (mvD 0x0A 1)).passes (mvD 0x0A 1) 0
        ((mvS (.adder 0) (mvD 0x0A 1)).pairSectors (mvD 0x0A 1) .a (memH hubBase) (memH (hubBase + 0x200))).1
        ((mvS (.adder 0) (mvD 0x0A 1)).pairSectors (mvD 0x0A 1) .a (memH hubBase) (memH (hubBase + 0x200))).2 :=
  ⟨xlate_del _ _ _ _ _ _, hubBytes_of _ _ _ (by decide +kernel) (by decide +kernel), passes_of _ _ _ _ _ (by decide +kernel),
    passes_of _ _ _ _ _ (by decide +kernel)⟩

def fsD (op sub arg : Nat) (imm : Word) : Delivered := del (man op sub 0 0 (hOps 2) arg imm)
def fsS (d : Delivered) : State :=
  ((inHand base (.ferry 127) d).wr F.PON_JOB_ENABLE 432 0 1 |>.wr F.PON_JOB_SEQ_SIZE 432 0 3).setFerry 127 { Ferry.reset with st := .idle }
def fsImm : Word := BitVec.ofNat 64 (127 + 9 * 2 ^ 16 + 4 * 2 ^ 40)
def fs0 : Delivered := fsD 0x10 0 0 fsImm
def fwd (arg : Nat) : Delivered := fsD 0x10 1 arg fsImm
def xf (started : Bool) : Xfer :=
  { d := fs0, hdr := FerryHdr.zero, payload := [], errTick := false, started := started, packets := [] }
theorem wit_FsendQueuesATransfer :
    (fsS fs0).ready fs0 = true ∧ (fsS (fwd 0x100)).ready (fwd 0x100) = true ∧
      ok (.fsend fs0) (fsS fs0) (fun t =>
        (t.ferry 127).queue.map (fun x => (x.hdr.microBatch, x.hdr.version)) == [(9, 4)] && (t.ferry 127).st == .sending) ∧
      ok (.fsend fs0) ((fsS fs0).setFerry 127 Ferry.reset) (fun t => t.rd F.FRY_ERR_COUNT 127 == 1 && (t.stream 0).issued.all (·.complete)) ∧
      ok (.fsend fs0) ((fsS fs0).setFerry 127 { Ferry.reset with st := .sending, queue := List.replicate 8 (xf true) }) (fun t =>
        (t.ferry 127).queue.length == 8 && (t.engineQ (engineKey (.ferry 127))).cur == some fs0) ∧
      ok (.fsend fs0) ((fsS fs0).wr F.FRY_CFG_CTX 127 0 1) (fun t => (t.ferry 127).queue == [] && t.reports.length == 1) ∧
      ok (.forwardFsend (fwd 0)) ((fsS (fwd 0)).wr F.PON_JOB_ENABLE 432 0 0) (fun t => t.rd F.FRY_ERR_COUNT 127 == 1) ∧
      ok (.forwardFsend (fwd 0x200)) (fsS (fwd 0x200)) (fun t => (t.ferry 127).queue == [] && (t.stream 0).issued.all (·.complete)) ∧
      ((fsS (fwd 0x100)).winBytes (fwd 0x100).wins (hAt 1) 16).isSome = true ∧
      (fsS (fwd 0x100)).structFails (fwd 0x100) (hAt 1) 16 = [] ∧
      ok (.forwardFsend (fwd 0x100)) ((fsS (fwd 0x100)).poke (hAt 1) [8, 0, 0, 3]) (fun t =>
        (t.ferry 127).queue.map (fun x => (x.hdr.microBatch, x.hdr.version)) == [(8, 3)]) := by decide +kernel

def fyS (x : List Xfer) (cs : List Nat) (st : FerrySt) : State :=
  ((outst base (fsD 0x10 0 0 fsImm)).poke (hAt 0) (memH hubBase).bytes).wr F.FRY_CFG_MESH 127 0 1 |>.setFerry 127
    { st := st, queue := x, credits := cs, xferSeq := 65535 }
/-- The class of the ferry's context has used up its ENERGY toll. -/
def heldFy : State := { fyS [xf false] [6, 7] .sending with tolls := [(base.classOf 0 * 8 + 6, 0)] }
theorem wit_FerriesSend :
    ok (.ferryTransferStart 127 []) (fyS [xf false] [] .sending) (fun t => (t.ferry 127).st == .creditWait) ∧
      (fyS [xf false] [6, 7] .sending).handleOf fs0 (hAt 0) = some (memH hubBase) ∧
      (fyS [xf false] [6, 7] .sending).ferryHeld 127 (memH hubBase) = none ∧
      ((fyS [xf false] [6, 7] .sending).admitSectors ((fyS [xf false] [6, 7] .sending).classOf 0)
        (((fyS [xf false] [6, 7] .sending).owedOf fs0).getD ((fyS [xf false] [6, 7] .sending).payloadSectors 127 fs0 (memH hubBase)))).1 = [] ∧
      ((fyS [xf false] [6, 7] .sending).payload 127 fs0 [] (memH hubBase)).2 = [] ∧
      heldFy.ferryHeld 127 (memH hubBase) = some 6 ∧ ok (.ferryTransferStart 127 []) heldFy (fun t => (t.ferry 127).st == .tollWait) ∧
      ok (.ferryTransferStart 127 []) (fyS [xf false] [6, 7] .sending) (fun t =>
        (t.ferry 127).queue.map (fun x => x.hdr.slot) == [6] && (t.ferry 127).credits == [7] && (t.ferry 127).xferSeq == 0) ∧
      ok (.ferrySendComplete 127) (fyS [xf true] [] .sending) (fun t => (t.ferry 127).queue == []) ∧
      ok (.creditReturn 127 5) (fyS [] [6] .idle) (fun t => (t.ferry 127).credits == [6, 5]) ∧
      ok (.ferryEnable 127) (base.wr F.FRY_CREDIT_COUNT 127 0 2) (fun t => (t.ferry 127).st == .idle && (t.ferry 127).credits.length == 2) ∧
      ok (.ferryDisable 127) (fyS [] [] .idle) (fun t => (t.ferry 127).st == .disabled) ∧
      ok (.ferryFlush 127) (fyS [xf true, xf false] [] .sending) (fun t => (t.ferry 127).queue == [xf true] && t.rd F.FRY_ERR_COUNT 127 == 1) := by
  decide +kernel

def hd (slot gen : Nat) : FerryHdr := { FerryHdr.zero with landing := 63, slot := slot, rgen := gen, dataBytes := 512, dims := [128, 1, 1, 1] }
def ldS (es : Sparse LEntry) : State :=
  (((base.wr F.LND_CTRL_ENABLE 63 0 1).wr F.LND_CFG_ENTRIES 63 0 4).wr F.LND_SLOT_BYTES 63 0 8).wr F.LND_BUF_ADDR 63 0 (hubBase / 64) |>.setLanding 63
    { Landing.reset with entries := es }
def ent (st : EntrySt) (placed : List Nat) : LEntry := { LEntry.reset with st := st, hdr := hd 3 0, placed := placed, handle := List.replicate 64 6 }
/-- A copy of the transfer's header has arrived on port 8. -/
def seenS : State :=
  let s := ldS [(3, { ent .filling [] with feeds := [8], port := 8 })]
  s.setLanding 63 { s.landing 63 with seen := [((0, 0, 0), [8])] }
theorem wit_LandingsReceive :
    ok (.landingHeader 48 (hd 3 0)) (ldS []) (fun t => ((t.landing 63).entry 3).st == .filling) ∧
      ok (.landingHeader 48 (hd 3 0)) (ldS [(3, ent .ready [0])]) (fun t => bits (t.reg (evKey 0x0A 63)) 4 1 == 1) ∧
      ok (.landingHeader 48 (hd 4 0)) (ldS []) (fun t => bits (t.reg (evKey 0x0A 63)) 4 1 == 1) ∧
      ok (.landingHeader 48 (hd 3 7)) (ldS []) (fun t => t.rd F.LND_DROP_COUNT 63 == 1) ∧
      (seenS.landing 63).copyOf 9 (hd 3 0) = true ∧
      ok (.landingHeader 9 (hd 3 0)) seenS (fun t => ((t.landing 63).entry 3).feeds == [8, 9]) ∧
      (ldS []).slotBase 63 3 = hubBase + 3 * 512 ∧ (∀ k : Nat, k < 512 → (ldS []).region (hubBase + 3 * 512 + k) = .hubmem) ∧
      ok (.landingPayload 63 3 48 0 (List.replicate 512 5)) (ldS [(3, ent .filling [])]) (fun t =>
        ((t.landing 63).entry 3).placed == [0] && t.peek (hubBase + 3 * 512) 1 == [5]) ∧
      (ent .filling [0]).complete = true ∧
      ok (.landingEntryReady 63 3) (ldS [(3, ent .filling [0])]) (fun t => ((t.landing 63).entry 3).st == .ready) ∧
      ok (.landingDrain 63) (ldS [(3, ent .taken [0])]) (fun t => (t.landing 63).entries == [] && t.out.length == 1) := by decide +kernel

def ltD : Delivered := del (man 0x11 0 0 0 [opw (hubBase + 0x8000)] (63 + 512) 0)
def lfD : Delivered := del (man 0x12 0 0 0 [] (63 + 512) 0)
def ltS (d : Delivered) (e : LEntry) : State :=
  (outst (ldS [(3, e)]) d).setEngineQ (engineKey (.landing 63)) { EngineQ.reset with cur := some d }
def ltWant : Delivered := del (man 0x11 0 0 0 [opw (hubBase + 0x8000), opw (hubBase + 0x8040)] (63 + 512 + 1024) 5)
theorem wit_LandingsReceive_manifests :
    (ltS ltD (ent .ready [0])).ready ltD = true ∧ (ltS ltD (ent .ready [0])).rd F.DEF_CFG_CTX 15 = 0 ∧ viewOf ltD.words = 2 ∧
      ((ltS ltD (ent .ready [0])).landing 63).choose 2 = some (3, ent .ready [0]) ∧ (ent .ready [0]).handle.length = 64 ∧
      ok (.ltake ltD) (ltS ltD (ent .ready [0])) (fun t => ((t.landing 63).entry 3).st == .taken && t.peek (hubBase + 0x8000) 1 == [6]) ∧
      ok (.ltake ltWant) (ltS ltWant (ent .ready [0])) (fun t => bits (t.reg (evKey 0x0A 63)) 2 1 == 1 &&
        t.peek (hubBase + 0x8040) 8 == [0, 0, 0, 0, 0, 0, 3, 0]) ∧
      ok (.ltake ltD) (ltS ltD (ent .taken [0])) (fun t => bits (t.reg (evKey 0x0A 63)) 0 1 == 1 && (t.stream 0).issued.all (·.complete)) ∧
      ok (.ltake ltD) ((ltS ltD (ent .ready [0])).wr F.DEF_CFG_CTX 15 0 1) (fun t => t.reports.length == 1) ∧
      ok (.lfree lfD) ((ltS lfD (ent .taken [0])).wr F.DEF_CFG_CTX 15 0 1) (fun t => t.reports.length == 1) ∧
      ok (.lfree lfD) (ltS lfD { ent .taken [0] with view := 2 }) (fun t => (t.landing 63).entries == [] && t.out.length == 1) ∧
      ok (.lfree lfD) (ltS lfD { ent .taken [0] with view := 1 }) (fun t => (t.landing 63).entries.length == 1 && t.out == []) := by
  decide +kernel
theorem wit_LandingsReceive_memory : (ltS ltD (ent .ready [0])).hubBytes (hubBase + 0x8000) 64 ∧
    (ldS [(3, ent .filling [])]).hubBytes (hubBase + 3 * 512) 512 ∧
    (∀ x n y : Nat, (ltS ltD (ent .ready [0])).xlate ltD .w x n y = y) ∧
    (ltS ltD (ent .ready [0])).passes ltD 27 [] ((ltS ltD (ent .ready [0])).writeSectors ltD (hubBase + 0x8000) 64 ++ []) :=
  ⟨hubBytes_of _ _ _ (by decide +kernel) (by decide +kernel), hubBytes_of _ _ _ (by decide +kernel) (by decide +kernel),
    fun x n y => xlate_del _ _ _ x n y, passes_of _ _ _ _ _ (by decide +kernel)⟩

def mgD (op : Nat) : Delivered := del (man op 0 0 0 [] 127 0)
def mgS (d : Delivered) (m : Mooring) : State := (inHand base (.mooring 15) d).setMooring 127 m
/-- Site 5 is out of service. -/
def lost5 : State := { base with resets := { Resets.reset with mapped := [(5, 1)] } }
/-- Mooring 127 holds a delta to 126, which is live. -/
def deltaS : State := ((base.wr F.MOR_CFG_FORM 15 7 1).wr F.MOR_CFG_BASE 15 7 6).setMooring 126 ⟨65534, true⟩
theorem wit_MooringReferencesCount :
    base.mor F.MOR_CFG_FORM 127 = 0 ∧
      ok (.mooringPublish 127) base (fun t => t.mooring 127 == ⟨1, true⟩) ∧
      ok (.mooringPublish 127) (base.setMooring 127 ⟨1, true⟩) (fun t => t.mooring 127 == ⟨1, true⟩ && bits (t.reg (evKey 0x0B 15)) 4 1 == 1) ∧
      ok (.mooringHostRelease 127) (base.setMooring 127 ⟨2, true⟩) (fun t => t.mooring 127 == ⟨1, true⟩) ∧
      ok (.mooringHostRelease 127) base (fun t => bits (t.reg (evKey 0x0B 15)) 1 1 == 1) ∧
      (lost5.wr F.MOR_CFG_REL_BOL 15 7 0x500).idHole 0x500 = true ∧
      ok (.mooringHostRelease 127) ((lost5.wr F.MOR_CFG_REL_BOL 15 7 0x500).setMooring 127 ⟨1, true⟩) (fun t =>
        t.mooring 127 == ⟨0, false⟩ && bits (t.reg (evKey 0x0B 15)) 5 1 == 1) ∧
      (mgS (mgD 0x13) ⟨65534, true⟩).ready (mgD 0x13) = true ∧
      ok (.mget (mgD 0x13)) (mgS (mgD 0x13) ⟨65534, true⟩) (fun t => t.mooring 127 == ⟨65535, true⟩) ∧
      ok (.mput (mgD 0x14)) (mgS (mgD 0x14) ⟨2, true⟩) (fun t => t.mooring 127 == ⟨1, true⟩) ∧
      ok (.mget (mgD 0x13)) (mgS (mgD 0x13) ⟨0, false⟩) (fun t => t.rd F.MOR_ERR_COUNT 15 == 1) ∧
      ok (.mget (mgD 0x13)) (mgS (mgD 0x13) ⟨65535, true⟩) (fun t => t.rd F.MOR_ERR_COUNT 15 == 1) ∧
      ok (.mput (mgD 0x14)) (mgS (mgD 0x14) ⟨1, true⟩) (fun t => t.mooring 127 == ⟨0, false⟩ && bits (t.reg (evKey 0x0B 15)) 5 1 == 1) ∧
      ok (.mput (mgD 0x14)) (mgS (mgD 0x14) ⟨0, false⟩) (fun t => bits (t.reg (evKey 0x0B 15)) 1 1 == 1) ∧
      ok (.mget (mgD 0x13)) ((mgS (mgD 0x13) ⟨2, true⟩).wr F.DEF_CFG_CTX 15 0 1) (fun t => t.mooring 127 == ⟨2, true⟩ && t.reports.length == 1) ∧
      ok (.mput (mgD 0x14)) ((mgS (mgD 0x14) ⟨2, true⟩).wr F.DEF_CFG_CTX 15 0 1) (fun t => t.mooring 127 == ⟨2, true⟩ && t.reports.length == 1) ∧
      deltaS.mor F.MOR_CFG_FORM 127 = 1 ∧ deltaS.morBase 127 = 126 ∧ deltaS.mor F.MOR_CFG_FORM 126 ≠ 1 ∧
      ok (.mooringPublish 127) deltaS (fun t => t.mooring 127 == ⟨1, true⟩ && t.mooring 126 == ⟨65535, true⟩) := by decide +kernel

def dpD (n : Nat) : Delivered := del (man 0x15 0 0 0 [opw (hubBase + 0x2000)] 0 (BitVec.ofNat 64 (n + 9 * 2 ^ 16)))
def dfS (d : Delivered) : State := (inHand base (.deferral 5) d).wr F.DEF_CFG_ENABLE 5 0 1
def defE (list count : Nat) : DefEntry := ⟨list, count, 9, zeros16, (dpD 1).wins⟩
/-- A queue of n lists. -/
def dfQ (d : Delivered) (n : Nat) : State := (dfS d).setStage 5 { Stage.reset with queue := List.replicate n (defE hubBase 2) }
theorem wit_DeferralQueueRunsLists :
    (dfS (dpD 1)).ready (dpD 1) = true ∧ (dfS (dpD 1)).stageOf 0 = some 5 ∧ (dfS (dpD 1)).rd F.DEF_CFG_CTX 5 = 0 ∧
      ok (.dpush (dpD 1)) (dfQ (dpD 1) 31) (fun t => (t.stage 5).queue.length == 32 && (t.stage 5).queue.getLast? == some (defE (hubBase + 0x2000) 1) &&
        (t.stream 0).issued.all (·.complete)) ∧
      ok (.dpush (dpD 1)) (dfQ (dpD 1) 32) (fun t => (t.stage 5).queue.length == 31 &&
        (t.stage 5).runs == [⟨defE hubBase 2, 2, none, some (defE (hubBase + 0x2000) 1)⟩] && (t.stream 0).lists.length == 1) ∧
      ok (.dpushDrain (dpD 0)) (dfS (dpD 0)) (fun t => (t.stream 0).issued.all (·.complete)) ∧
      ok (.dpushDrain (dpD 0)) (dfQ (dpD 0) 1) (fun t => (t.stage 5).queue == [] && (t.stage 5).draining && (t.stream 0).lists.length == 1) := by
  decide +kernel

/-- A head of the hub's stream that waits on the bollard of a landing of stage 5, with a queued list. -/
def bubS : State :=
  let base := (base.wr F.PHT_CFG_AUTO 5 0 0).wr F.DEF_CFG_MAIN 5 0 hs
  let h := setNth nopW 6 (BitVec.ofNat 64 (0x300 + 2 ^ 14 + 5 * 2 ^ 32))
  let s := (((base.wr F.DEF_CFG_ENABLE 5 0 1).wr F.DEF_CFG_FILL_EN 5 0 1).wr F.LND_CTRL_ENABLE 20 0 1).wr F.LND_BOL_FBOL 20 0 0x300
  { s.setStream hs { Stream.reset with st := .waiting, registered := true, store := [dec h] } with
    waiters := [⟨0x300, 5, hs, 0, false, false, false, false⟩], tide := { Tide.reset with count := 100000 } }.setStage 5
      { Stage.reset with queue := [defE hubBase 1] }
theorem wit_DeferralQueueRunsLists_fill :
    bubS.fillDue 5 = true ∧ bubS.rd F.PHT_CFG_AUTO 5 = 0 ∧ bubS.stageOf hs = some 5 ∧ (dfQ (dpD 1) 1).fillDue 5 = false ∧
      ok (.bubbleFill 5 true) bubS (fun t => t == bubS) ∧
      ok (.bubbleFill 5 false) bubS (fun t => (t.stage 5).queue == [] && (t.stage 5).runs.length == 1 && (t.stream hs).lists.length == 1 &&
        (t.stream hs).parked.isSome && t.rd F.DEF_FILLS_COUNT 5 == 1) := by decide +kernel

/-! ### Witnesses: combining, pontoons, the veto, the optimiser -/

def blk1 (l : List Int) : Block := ⟨-127, l⟩
theorem wit_RequantisationRounds : 3 < 4 ∧ ∀ i : Nat, (fun (_ : Nat) => 2 ^ 64 - 1) i < 2 ^ 64 := ⟨by decide, fun _ => (by decide : 2 ^ 64 - 1 < 2 ^ 64)⟩
theorem wit_CombiningOrder :
    (∀ x ∈ [blk1 [3, -4], blk1 [5, 6], blk1 [-1, 0]], (-127 : Int) ≤ x.e) ∧
      (blockMax 1 (blk1 [3, -4]) (blk1 [5, 6])).allZero = false ∧ (blockMax 1 (blk1 [5, 6]) (blk1 [-1, 0])).allZero = false ∧
      (blockIAdd 4 (blk1 [2 ^ 31 - 1]) (blk1 [1])).1.m = [-2 ^ 31] := by decide +kernel

/-- Pontoon 3 of site 0 with two entries of one i32 block, or as a message pontoon. -/
def pon (op : Nat) : State :=
  ((((((base.wr F.PON_CTRL_ENABLE 3 0 1).wr F.PON_CFG_OP 3 0 op).wr F.PON_CFG_FORMAT 3 0 4).wr F.PON_CFG_EXPECT 3 0 2).wr
    F.PON_ENTRY_BYTES64 3 0 4).wr F.PON_ENTRY_DEPTH 3 0 2).wr F.PON_BUF_ADDR 3 0 ((hubBase + 0x4000) / 64)
def pputW (idx round : Nat) : List Word :=
  man 0x18 0 0 0 [0, opw (hAt 0)] 3 (BitVec.ofNat 64 (idx + round * 2 ^ 16))
def pputS (op idx round : Nat) (lost : Bool) : State :=
  let s := ((pon op).poke (hAt 0) (memH (hubBase + 0x200)).bytes).poke (hubBase + 0x200) (i32s [5, -6])
  let s := if lost then { s.wr F.PON_BOL_BOLLARD 3 0 0x500 with resets := lost5.resets } else s
  s.setStream 0 { Stream.reset with st := .running, registered := true, store := [dec (pputW idx round)] }
def pputD (s : State) (w : List Word) : Delivered := s.deliver 0 (dec w)
def asking (op idx round : Nat) (lost : Bool) : State :=
  let s := pputS op idx round lost
  s.setPontoon 3 { s.pontoon 3 with waiting := [(pputD s (pputW idx round), [], 0)] }

/-- A PPUT of stream 1 of site 1 asked in clock 4. -/
def laterW : Delivered × List Nat × Nat := ({ del nopW with stream := 257 }, [], 4)
theorem wit_PontoonsCarryGradients_pput :
    let s := pputS 1 0 0 false
    let d := pputD s (pputW 0 0)
    s.isPontoon 3 = true ∧ mArg d.words % 1024 = 3 ∧ s.stillHead d = some (dec (pputW 0 0)) ∧ s.findings 0 (dec (pputW 0 0)) = [] ∧
      s.issuesNop 0 (dec (pputW 0 0)) d = false ∧ s.issueHeld 0 d.words = none ∧ s.accepts d.words = true ∧ (s.pontoon 3).waiting = [] ∧
      ok (.pput d [] false) s (fun t => (t.pontoon 3).waiting.map Prod.fst == [d]) ∧
      ok (.pput d [] false) (s.setPontoon 3 { s.pontoon 3 with waiting := [laterW] }) (fun t =>
        (t.pontoon 3).waiting == [laterW, (d, [], 5)]) ∧
      ok (.pput d [] true) (s.setPontoon 3 { s.pontoon 3 with waiting := [laterW] }) (fun t =>
        (t.pontoon 3).waiting == [(d, [], 4), laterW]) ∧
      ok (.pontoonReset 3) s (fun t => (t.pontoon 3).entries == []) := by decide +kernel

def asksB (s : State) (w : List Word) : Bool :=
  s.ponOn 3 && (s.pontoon 3).waiting.length == 1 && s.stillHead (pputD s w) == some (dec w) && (s.stream 0).store == [dec w] &&
    s.findings 0 (dec w) == [] && !s.issuesNop 0 (dec w) (pputD s w) && (s.stageOf 0).isNone && s.rd F.PON_CFG_CTX 3 == 0 &&
    (s.stream 0).issued == [] && (s.pontoon 3).granted == []
theorem wit_PontoonsCarryGradients_grant :
    asksB (asking 3 0 0 true) (pputW 0 0) = true ∧ (asking 3 0 0 true).idHole ((asking 3 0 0 true).rd F.PON_BOL_BOLLARD 3) = true ∧
      ok (.pontoonGrant 3) (asking 3 0 0 true) (fun t => (t.pontoon 3).msgs == [(memH (hubBase + 0x200)).bytes]) ∧
      asksB (asking 1 2 0 false) (pputW 2 0) = true ∧ (asking 1 2 0 false).pputRejected 3 (pputD (asking 1 2 0 false) (pputW 2 0)) = true ∧
      ok (.pontoonGrant 3) (asking 1 2 0 false) (fun t => t.rd F.PON_ERR_COUNT 3 == 1 && (t.pontoon 3).entries == []) ∧
      asksB (asking 1 1 0 false) (pputW 1 0) = true ∧
      (asking 1 1 0 false).contribution (pputD (asking 1 1 0 false) (pputW 1 0)) = memH (hubBase + 0x200) ∧
      (asking 1 1 0 false).baseToll ((asking 1 1 0 false).classOf 0) 3 = unmetered ∧ (asking 1 1 0 false).owed = [] ∧
      (asking 1 1 0 false).pputRejected 3 (pputD (asking 1 1 0 false) (pputW 1 0)) = false ∧
      (asking 1 1 0 false).pputGranted 3 (pputD (asking 1 1 0 false) (pputW 1 0)) = true ∧
      ok (.pontoonGrant 3) (asking 1 1 0 false) (fun t => ((t.pontoon 3).entry 0).applied == [1] &&
        t.peek (hubBase + 0x4000) 8 == i32s [5, -6]) := by decide +kernel
theorem wit_PontoonsCarryGradients_memory : (memH (hubBase + 0x200)).oneBlock ∧ (asking 1 1 0 false).hubBytes (hubBase + 0x200) 128 ∧
    (asking 1 1 0 false).hubBytes (hubBase + 0x4000) 128 :=
  ⟨⟨rfl, rfl⟩, hubBytes_of _ _ _ (by decide +kernel) (by decide +kernel), hubBytes_of _ _ _ (by decide +kernel) (by decide +kernel)⟩

def ptD : Delivered := del (man 0x19 0 0 0 [opw (hubBase + 0x8000)] 8 0)
def ptS (op : Nat) (ms : List (List Byte)) : State :=
  ((outst (pon op) ptD).setEngineQ (engineKey (.pontoon 1024)) { EngineQ.reset with cur := some ptD }).setPontoon 3
    { (pon op).pontoon 3 with msgs := ms }
def twoMsgs : State := ptS 3 [List.replicate 64 9, List.replicate 64 8]
theorem wit_PontoonsCarryGradients_ptake :
    twoMsgs.ready ptD = true ∧ receiverSet ptD.words = [3] ∧ twoMsgs.ponOn 3 = true ∧
      twoMsgs.segsOf ptD .w [(hubBase + 0x8000, 64)] = true ∧
      ok (.ptake ptD) twoMsgs (fun t => t.peek (hubBase + 0x803F) 1 == [9] && (t.pontoon 3).msgs == [List.replicate 64 8]) ∧
      (ptS 1 []).hasDelivery 3 = false ∧ ok (.ptake ptD) (ptS 1 []) (fun t => t.rd F.PON_ERR_COUNT 3 == 1) := by decide +kernel
theorem wit_PontoonsCarryGradients_ptake_passes (x : Nat) : twoMsgs.xlate ptD .w (hubBase + 0x8000) 64 x = x ∧
    twoMsgs.hubBytes (hubBase + 0x8000) 64 ∧
    twoMsgs.passes ptD 0 [] (twoMsgs.writeSectors ptD (hubBase + 0x8000) 64 ++ twoMsgs.descSectors ptD) :=
  ⟨xlate_del _ _ _ _ _ _, hubBytes_of _ _ _ (by decide +kernel) (by decide +kernel), passes_of _ _ _ _ _ (by decide +kernel)⟩

/-- Round 0 of pontoon 3 has both its contributions. -/
def fullE : PEntry := { PEntry.reset with applied := [0, 1], dims := [32, 1, 1, 1] }
def takeS : State :=
  let s := ((ptS 1 []).setPontoon 3 { (pon 1).pontoon 3 with entries := [(0, fullE)] }).poke (hubBase + 0x8000) (memH (hubBase + 0x9000)).bytes
  s.poke (hubBase + 0x4000) (i32s [5, -6])
theorem wit_PontoonsCarryGradients_tensor :
    takeS.ready ptD = true ∧ takeS.ponOn 3 = true ∧ takeS.deliverable 3 = some fullE ∧ takeS.rd F.PON_CFG_FORMAT 3 = 4 ∧
      takeS.handleOf ptD (hubBase + 0x8000) = some (memH (hubBase + 0x9000)) ∧
      takeS.segsOf ptD .w ((denseHandle 4 [32, 1, 1, 1] (hubBase + 0x9000) 0).ranges true) = true ∧
      ok (.ptake ptD) takeS (fun t => t.peek (hubBase + 0x9000) 8 == i32s [5, -6] && (t.pontoon 3).next == 1) := by decide +kernel
theorem wit_PontoonsCarryGradients_tensor_passes : takeS.hubBytes (hubBase + 0x9000) 128 ∧ takeS.hubBytes (hubBase + 0x4000) 128 ∧
    takeS.passes ptD 0 ((takeS.entryTensor 3 0 [32, 1, 1, 1]).sectorList physXl false).dedup
      (((denseHandle 4 [32, 1, 1, 1] (hubBase + 0x9000) 0).sectorList (takeS.xlate ptD .w) true).dedup ++ takeS.descSectors ptD) :=
  ⟨hubBytes_of _ _ _ (by decide +kernel) (by decide +kernel), hubBytes_of _ _ _ (by decide +kernel) (by decide +kernel),
    passes_of _ _ _ _ _ (by decide +kernel)⟩

/-- Veto channel 2 with a child at port 5 and its parent at port 6. -/
def veto (f : Veto → Veto) : State :=
  ((((((base.wr F.PON_VETO_TREE_ROOT 432 2 0).wr F.PON_JOB_ENABLE 432 2 1).wr F.PON_JOB_JOB 432 2 7).wr F.PON_VETO_TREE_CHILDREN 432 2 32).wr F.PON_VETO_TREE_PARENT 432 2 6).wr
    F.PON_VETO_REC_ADDR 432 2 (hubBase / 16)).setVeto 2 (f Veto.reset)
def openPort (p : Nat) (s : State) : State := s.setPort p { s.port p with st := .up }
/-- A channel HELD in its step. -/
def held4 (v : Veto) : Veto := { v with st := .held, everClosed := true, step := 4, deadline := 1000 }
def vmsg (step : Nat) (v : Bool) : VetoMsg := ⟨7, false, v, false, step, 3⟩
def closed4 (v : Veto) : Veto := { v with st := .closed, everClosed := true, step := 4, deadline := 1000 }
theorem wit_VetoGathersContributions :
    (veto id).vetoOn 2 = true ∧ (veto id).vetoChildren 2 = [5] ∧ (veto id).normHigh ((veto id).vetoCtx 2) = false ∧
      ok (.vetoClose 2 4) (veto id) (fun t => (t.veto 2).st == .closed && (t.veto 2).step == 4) ∧
      (veto id).veto 2 = Veto.reset ∧
      ok (.vetoClose 2 0) (veto fun v => { v with st := .clear, everClosed := true, step := 2 ^ 32 - 1 }) (fun t =>
        (t.veto 2).st == .closed && (t.veto 2).step == 0) ∧
      ok (.vetoClose 2 5) (veto held4) (fun t => bits (t.reg (evKey 0x0E 432)) 4 1 == 1 && (t.veto 2).st == .held) ∧
      ok (.vetoClose 2 5) (veto closed4) (fun t => bits (t.reg (evKey 0x0E 432)) 4 1 == 1 && (t.veto 2).step == 4) ∧
      ok (.vetoUpSend 2) (openPort 6 (veto fun v => { held4 v with ups := [(5, true, 3)] })) (fun t => (t.veto 2).upSent) ∧
      (veto closed4).vetoChannel 7 = some 2 ∧ (veto closed4).vetoRoot 2 = false ∧
      ok (.vetoUpReceive 5 (vmsg 4 true)) (veto closed4) (fun t => (t.veto 2).ups == [(5, true, 3)]) ∧
      ok (.vetoUpReceive 6 (vmsg 4 true)) (veto closed4) (fun t => (t.veto 2).ups == [] && bits (t.reg (evKey 0x0E 432)) 3 1 == 1) ∧
      (veto fun v => { closed4 v with ups := [(5, true, 3)] }).childrenIn 2 = true ∧
      (openPort 6 (veto fun v => { closed4 v with ups := [(5, true, 3)] })).portOpen 6 = true ∧
      ok (.vetoUpSend 2) (openPort 6 (veto fun v => { closed4 v with ups := [(5, true, 3)] })) (fun t =>
        (t.veto 2).upSent && ((t.port 6).txQueue.map fun f => vetoOfBytes (f.payload.drop 8)) == [⟨7, false, true, false, 4, 4⟩]) := by
  decide +kernel

/-- The count has reached the deadline in this tick, or passed it. -/
def tickAt (before count : Nat) (s : State) : State := { s with tide := { Tide.reset with before := before, count := count } }
theorem wit_VetoAppliesOneResult :
    (veto closed4).hubBytes ((veto closed4).rd F.PON_VETO_REC_ADDR 432 2 * 16) 16 ∧
      (veto closed4).vetoPast 2 = false ∧ (tickAt 999 1000 (veto closed4)).vetoPast 2 = false ∧
      (tickAt 1000 1001 (veto closed4)).vetoPast 2 = true ∧
      ok (.vetoDownReceive 6 { vmsg 4 true with down := true }) (veto closed4) (fun t => (t.veto 2).st == .veto &&
        t.peek hubBase 8 == [4, 0, 0, 0, 2, 0, 3, 0]) ∧
      ok (.vetoDownReceive 6 { vmsg 4 false with down := true }) (tickAt 999 1000 (veto closed4)) (fun t => (t.veto 2).st == .clear &&
        t.peek hubBase 8 == [4, 0, 0, 0, 1, 1, 3, 0]) ∧
      ok (.vetoDownReceive 6 { vmsg 4 true with down := true }) (veto held4) (fun t =>
        (t.veto 2).st == .held && (t.veto 2).lateVeto && (t.veto 2).down == [(4, true, false, 3)]) ∧
      ok (.vetoDownSend 2) (openPort 5 (veto fun v => { closed4 v with down := [(3, true, false, 9)] })) (fun t =>
        (t.port 5).txQueue.length == 1 && (t.veto 2).down == []) ∧
      ok (.vetoDeadline 2) (tickAt 999 1000 (veto closed4)) (fun t => (t.veto 2).st == .closed) ∧
      ok (.vetoDeadline 2) (tickAt 1000 1001 (veto closed4)) (fun t => (t.veto 2).st == .held && t.peek (hubBase + 4) 1 == [3]) ∧
      ok (.vetoCmdCommit 2) (veto held4) (fun t => (t.veto 2).st == .clear && t.peek hubBase 6 == [4, 0, 0, 0, 1, 2]) ∧
      ok (.vetoCmdDiscard 2) (veto held4) (fun t => (t.veto 2).st == .veto) ∧
      ok (.vetoCmdDiscard 2) (veto closed4) (fun t => (t.veto 2).st == .closed) := by
  refine ⟨hubBytes_of _ _ _ (by decide +kernel) (by decide +kernel), ?_⟩
  decide +kernel

/-- A shard of 32 elements in mantissa-16 weights, SGD with momentum. -/
def shardBytes : List Byte :=
  leBytes 8 hubBase ++ leBytes 8 (hubBase + 0x100) ++ leBytes 8 (hubBase + 0x200) ++ leBytes 8 (hubBase + 0x300) ++
    leBytes 8 (hubBase + 0x400) ++ leBytes 8 (hubBase + 0x500) ++ leBytes 8 (hubBase + 0x600) ++ leBytes 8 (hubBase + 0xC00) ++
    leBytes 3 1 ++ [2] ++ leBytes 3 2 ++ [1] ++ leBytes 3 3 ++ [1, 0, 0, 0, 0] ++ leBytes 4 32 ++ leBytes 4 0 ++ leBytes 4 32 ++ leBytes 4 0
def osD (sub : Nat) : Delivered := { del (setNth (man 0x1C sub 0 0 [opw (hAt 0), opw (hAt 2)] (5 + 2 * 256 + 9 * 65536) 77) 14
  (BitVec.ofNat 64 (8 + (5 + 2 * 256 + 9 * 65536) * 2 ^ 32))) with seq := 0 }
def osS (sub : Nat) (cw : Nat) (pstep : Nat) : State :=
  let s := (((inHand base (.opt 5) (osD sub)).poke (hAt 0) shardBytes).poke (hAt 2 + 0x18) [8]).wr F.OPT_CTRL_ENABLE 5 0 1
  (s.poke (hubBase + 0xC00) (leBytes 8 cw)).poke (hubBase + 0x600 + (Shard.ofBytes shardBytes).slotBytes) (leBytes 4 pstep)
def shard : Shard := Shard.ofBytes shardBytes
/-- The state after the reads of descriptor and factor block. -/
def argsRead (sub cw pstep : Nat) : State := ((osS sub cw pstep).readArgs (osD sub)).2
theorem wit_PrepareWritesInactiveSlot :
    (osS 0 2 8).ready (osD 0) = true ∧ ostepSub (osD 0) 0 = true ∧ ((osS 0 2 8).ostepArgs (osD 0)).1 = shard ∧
      ((osS 0 2 8).readArgs (osD 0)).1 = [] ∧ (argsRead 0 2 8).ostepRefused (osD 0) = none ∧ (argsRead 0 2 8).prepareSegs (osD 0) shard 0 = true ∧
      (argsRead 0 2 8).commitFails (osD 0) shard = [] ∧
      cwPrep ((osS 0 2 8).commitWord (osD 0) shard) = true ∧ (argsRead 0 2 8).pstep (osD 0) shard 1 = 8 ∧
      ok (.ostepPrepare (osD 0) []) (osS 0 2 8) (fun t => (t.stream 0).issued.all (·.complete)) ∧
      ok (.ostepPrepare (osD 0) []) (osS 0 2 7) (fun t => t.rd F.OPT_ERR_INFO_REASON 5 == 1) ∧
      ok (.ostepPrepare (osD 0) []) (osS 0 (8 * 2 ^ 32) 0) (fun t => t.commitWord (osD 0) shard == 8 * 2 ^ 32) ∧
      shard.slot + 2 * shard.slotBytes ≤ shard.commit ∧ shard.fmt < 4 ∧ 0 < shard.n ∧
      (∀ x ∈ shard.inputs 0, ∀ row ∈ ((argsRead 0 0 0).readTensor ((argsRead 0 0 0).xlate (osD 0) .r) [] x).rows, ∀ b ∈ row, b.poisoned = false) ∧
      ok (.ostepPrepare (osD 0) []) (osS 0 0 0) (fun t => cwPrep (t.commitWord (osD 0) shard) && t.pstep (osD 0) shard 1 == 8) := by
  decide +kernel

/-- The ranges of the shard are hub memory. -/
theorem shard_hub (s : State) (h : s.ckpt.st ≠ .background ∧ s.ckpt.st ≠ .quiesced) (rs : List (Nat × Nat))
    (hr : ∀ r ∈ rs, ∀ k : Nat, k < r.2 → s.region (r.1 + k) = .hubmem) : ∀ r ∈ rs, s.hubBytes r.1 r.2 :=
  fun r m => hubBytes_of _ _ _ h (hr r m)

theorem wit_PrepareWritesInactiveSlot_memory (q : Perm) (a n x : Nat) :
    (argsRead 0 0 0).xlate (osD 0) q a n x = x ∧
      (∀ r ∈ [(shard.w, 64), (shard.ws, 1), (shard.g, 128), (shard.gs, 1), (shard.slot, 2 * shard.slotBytes), (shard.commit, 8)],
        (osS 0 0 0).hubBytes r.1 r.2) ∧
      (argsRead 0 0 0).passes (osD 0) (portNode 10) ((argsRead 0 0 0).prepareReads (osD 0) shard 0) ((argsRead 0 0 0).prepareWrites (osD 0) shard 0) :=
  ⟨xlate_id _ _ (by decide +kernel) _ _ _ _, shard_hub _ (by decide +kernel) _ (by decide +kernel), passes_of _ _ _ _ _ (by decide +kernel)⟩

def cmtS (cw pstep : Nat) (st : VetoSt) : State :=
  let s := (osS 1 cw pstep).setVeto 2 { Veto.reset with st := st, everClosed := true, step := 8 }
  { (s.letGo (osD 1)).poke (hubBase + 0x600 + shard.slotBytes + shard.offW) [7, 8] with optHeld := [(5 * 64, osD 1)] }
/-- The channel's step has gone by. -/
def goneS : State := (cmtS 2 8 .held).setVeto 2 { Veto.reset with st := .closed, everClosed := true, step := 9 }
theorem wit_CommitWaitsForTheVeto :
    let s := (osS 1 2 8).setVeto 2 { Veto.reset with st := .closed, everClosed := true, step := 8 }
    let u := (s.readArgs (osD 1)).2
    s.ready (osD 1) = true ∧ ostepSub (osD 1) 1 = true ∧ (s.readArgs (osD 1)).1 = [] ∧ u.ostepRefused (osD 1) = none ∧
      u.commitSegs (osD 1) shard = true ∧ commitChannel (osD 1).words = 2 ∧ s.commitReady (osD 1) = false ∧
      ok (.ostepCommit (osD 1)) s (fun t => t.optHeld == [(5 * 64, osD 1)]) ∧
      ok (.ostepCommit (osD 1)) ((osS 1 2 8).setVeto 2 { Veto.reset with st := .clear, everClosed := true, step := 7 }) (fun t =>
        t.rd F.OPT_ERR_INFO_REASON 5 == 3) ∧
      ok (.commitRelease 5) (cmtS 2 8 .held) (fun t => t.optHeld == [(5 * 64, osD 1)]) ∧
      goneS.issuedOf (osD 1) ≠ none ∧ ok (.commitRelease 5) goneS (fun t => t.optHeld == [] && t.rd F.OPT_ERR_INFO_REASON 5 == 3) ∧
      (shard.commitRanges.Pairwise fun x y => x.1 + x.2 ≤ y.1 ∨ y.1 + y.2 ≤ x.1) ∧
      ok (.commitRelease 5) (cmtS 2 8 .clear) (fun t => t.commitWord (osD 1) shard == 8 * 2 ^ 32 + 1 && t.peek (hubBase + 0x200) 2 == [7, 8]) ∧
      ok (.commitRelease 5) (cmtS 2 8 .veto) (fun t => t.commitWord (osD 1) shard == 0 && t.peek (hubBase + 0x200) 2 == [0, 0]) ∧
      ok (.commitRelease 5) (cmtS 0 8 .clear) (fun t => t.optHeld == [] && t.rd F.OPT_ERR_INFO_REASON 5 == 2) := by decide +kernel
theorem wit_CommitWaitsForTheVeto_memory : (∀ r ∈ shard.commitRanges, (cmtS 2 8 .clear).hubBytes r.1 r.2) ∧
    (cmtS 2 8 .clear).passes (osD 1) (portNode 10) ((cmtS 2 8 .clear).commitReads (osD 1) shard) ((cmtS 2 8 .clear).commitWrites (osD 1) shard) :=
  ⟨shard_hub _ (by decide +kernel) _ (by decide +kernel), passes_of _ _ _ _ _ (by decide +kernel)⟩
theorem wit_CommitWaitsForTheVeto_publish :
    (osS 2 0 0).ready (osD 2) = true ∧ (osS 2 0 0).stageCtx 1 = 0 ∧ (osS 2 0 0).mor F.MOR_CFG_FORM 9 = 0 ∧
      ok (.ostepPublish (osD 2)) (osS 2 0 0) (fun t => t.mooring 9 == ⟨1, true⟩ && t.rd F.MOR_CFG_VERSION 1 1 == 77) ∧
      ok (.ostepPublish (osD 2)) ((osS 2 0 0).setMooring 9 ⟨1, true⟩) (fun t => t.mooring 9 == ⟨1, true⟩ && t.rd F.OPT_ERR_COUNT 5 == 1) := by
  decide +kernel

/-! ### Witnesses: checkpoints -/

def ckS (f : Ckpt → Ckpt) : State := { base.wr F.CKP_LIST_ADDR 0 0 (hubBase / 64) with ckpt := f Ckpt.reset }
def ckD (sub : Nat) : Delivered := del (man 0x1D sub 0 0 [opw hubBase] 0 0)
def ckM (sub : Nat) (f : Ckpt → Ckpt) : State := { inHand base .ckpt (ckD sub) with ckpt := f Ckpt.reset }

/-- The list names one region of a line of hub memory, or the contexts of mask 1, of which a stream runs. -/
def coherent (s : State) : State := (s.poke hubBase [1]).poke (hubBase + 0x40) (Region.bytes ⟨hubBase, 64, 0⟩)
def unquiet (s : State) : State := (s.poke (hubBase + 8) [1]).setStream 3 { Stream.reset with st := .running }
def listed (s : State) : List Region := listRegions s.physBytes (s.rd F.CKP_LIST_ADDR * 64)
def askedQuiet (s : State) : Bool := s.quiet (leNat (s.physBytes (s.rd F.CKP_LIST_ADDR * 64 + 8) 8))
theorem wit_CheckpointStarts_register :
    (ckS id).quiesced 0x10 0 = false ∧ (ckS id).rd F.CKP_CFG_MODE = 0 ∧
      (coherent (ckS id)).coherentList (listed (coherent (ckS id))) = true ∧
      ok .ckpStart (coherent (ckS id)) (fun t => t.ckpt.sweeping && t.ckpt.chunks == [⟨0, 0, hubBase, 64, 0⟩]) ∧
      (ckS id).coherentList (listed (ckS id)) = false ∧ askedQuiet (ckS id) = true ∧
      ok .ckpStart (ckS id) (fun t => t.ckpt.st == .quiesced && t.ckpt.written.take 4 == [0x31, 0x5A, 0x4B, 0x50]) ∧
      (unquiet (ckS id)).coherentList (listed (unquiet (ckS id))) = false ∧ askedQuiet (unquiet (ckS id)) = false ∧
      ok .ckpStart (unquiet (ckS id)) (fun t => t.ckpt.st == .error && t.ckpt.reason == 1) ∧
      ok .ckpStart ((ckS id).wr F.CKP_CFG_MODE 0 0 1) (fun t => t.ckpt.st == .background) ∧
      ((ckS id).wr F.CKP_CFG_MODE 0 0 2).ringUsed = 0 ∧
      ok .ckpStart ((ckS id).wr F.CKP_CFG_MODE 0 0 2) (fun t => t.ckpt.st == .restoring) ∧
      ok .ckpStart (ckS fun k => { k with st := .restoring, t0 := 9 }) (fun t => t.ckpt.t0 == 9) ∧
      ok .ckpAbort (ckS fun k => { k with st := .background }) (fun t => t.ckpt.reason == 5) := by decide +kernel

/-- The list of a manifest reads. -/
def readsListB (s : State) (d : Delivered) (mode : Nat) : Bool :=
  let a := opAddr (mOperand d.words 0)
  let size := listSize mode (leNat (s.listBytes d a 4))
  s.structFails d a size == [] && match s.segIn d.wins .r a size with
    | some f => (s.heldMeter 60 27 (s.meshFlits 27 false ((sectors a size).map fun x => f (max x a)))
        ((sectors a size).map fun x => f (max x a))).isNone
    | none => false
theorem readsList_of (s : State) (d : Delivered) (mode : Nat) (h : readsListB s d mode = true) : s.readsList d mode := by
  simp only [readsListB, Bool.and_eq_true, beq_iff_eq] at h
  obtain ⟨h1, h2⟩ := h
  refine ⟨h1, ?_⟩
  split at h2
  · exact ⟨_, ‹_›, by simpa using h2⟩
  · cases h2

/-- The list that a CKPT manifest names. -/
def shown (s : State) : List Region := listRegions (s.listBytes (ckD 0)) hubBase
/-- A snapshot whose windows grant nothing. -/
def blind : Delivered := { ckD 0 with wins := [] }
theorem wit_CheckpointStarts_manifest :
    (∀ sub < 3, (ckM sub id).ready (ckD sub) = true ∧ ckptSub (ckD sub) sub = true) ∧
      readsListB (ckM 0 id) (ckD 0) 0 = true ∧ readsListB (coherent (ckM 0 id)) (ckD 0) 0 = true ∧
      readsListB (unquiet (ckM 0 id)) (ckD 0) 0 = true ∧ readsListB (ckM 1 id) (ckD 1) 1 = true ∧ (ckM 2 id).ringUsed = 0 ∧
      (coherent (ckM 0 id)).coherentList (shown (coherent (ckM 0 id))) = true ∧
      ok (.ckptSnapshot (ckD 0)) (coherent (ckM 0 id)) (fun t => t.ckpt.sweeping && t.ckpt.starter == some (ckD 0)) ∧
      (ckM 0 id).coherentList (shown (ckM 0 id)) = false ∧ (ckM 0 id).quiet (leNat ((ckM 0 id).listBytes (ckD 0) (hubBase + 8) 8)) = true ∧
      ok (.ckptSnapshot (ckD 0)) (ckM 0 id) (fun t => t.ckpt.st == .quiesced && t.ckpt.headDone) ∧
      (unquiet (ckM 0 id)).coherentList (shown (unquiet (ckM 0 id))) = false ∧
      (unquiet (ckM 0 id)).quiet (leNat ((unquiet (ckM 0 id)).listBytes (ckD 0) (hubBase + 8) 8)) = false ∧
      ok (.ckptSnapshot (ckD 0)) (unquiet (ckM 0 id)) (fun t => t.ckpt.reason == 1 && (t.stream 0).issued.all (·.complete)) ∧
      (inHand base .ckpt blind).ready blind = true ∧ (base.segIn blind.wins .r hubBase 64).isNone = true ∧
      ok (.ckptSnapshot blind) (inHand base .ckpt blind) (fun t => t.ckpt.st == .idle && t.reports.length == 1) ∧
      ok (.ckptExport (ckD 1)) (ckM 1 id) (fun t => t.ckpt.st == .background) ∧
      ok (.ckptRestore (ckD 2)) (ckM 2 id) (fun t => t.ckpt.st == .restoring) ∧
      ok (.ckptSnapshot (ckD 0)) (ckM 0 fun k => { k with st := .background }) (fun t => (t.stream 0).issued.all (·.complete)) ∧
      ok (.ckptExport (ckD 1)) (ckM 1 fun k => { k with st := .restoring }) (fun t => (t.stream 0).issued.all (·.complete)) ∧
      ok (.ckptRestore (ckD 2)) (ckM 2 fun k => { k with st := .quiesced }) (fun t => (t.stream 0).issued.all (·.complete)) := by
  decide +kernel

def chunk0 : Chunk := ⟨0, 0, hubBase, 64, 1⟩
def bgS : State := ckS fun k => { k with st := .background, chunks := [chunk0] }
/-- The copier's class has used up its CKPT toll. -/
def heldCk (s : State) : State := { s with tolls := [(60 * 8 + 5, 0)] }
/-- A snapshot with one chunk of core 0's SRAM to save. -/
def sramS : State := ckS fun k => { k with st := .quiesced, headDone := true, chunks := [⟨0, 0, 0, 64, 0⟩] }
/-- A line of a listed region that an L2 holds Modified. -/
def sweepS : State :=
  { (ckS fun k => { k with st := .quiesced, sweeping := true, regions := [⟨hubBase, 64, 0⟩] }) with
    lines := [(hubBase / 64, { Line.reset with st := .modified })] }
def hw1 : HeldWrite := { (default : HeldWrite) with addr := hubBase, data := [4, 2] }
theorem wit_CheckpointsSaveAndMove_chunks :
    bgS.ringHeld = false ∧ bgS.ckpt.reading = some 0 ∧ 0 ∉ bgS.ckpt.ahead ∧ bgS.cells = [] ∧
      (bgS.payDue (sectors hubBase 64)).1 = true ∧
      ((heldCk bgS).payDue (sectors hubBase 64)).1 = false ∧ ok .chunkSaved (heldCk bgS) (fun t => t.ckpt.chunks == [chunk0]) ∧
      sramS.ringHeld = false ∧ (sramS.copyChunks sramS.ckpt.sramLeft).1 = true ∧ sramS.ckpt.ahead = [] ∧
      ok .ckpRelease (ckS fun k => { k with st := .quiesced, headDone := true, chunks := [{ chunk0 with st := 0 }] }) (fun t =>
        t.ckpt.st == .background && t.ckpt.reading == some 0 && bits (t.reg (evKey 0x10 0)) 0 1 == 1) ∧
      ((heldCk sramS).copyChunks sramS.ckpt.sramLeft).1 = false ∧ ok .ckpRelease (heldCk sramS) (fun t => t.ckpt.st == .quiesced) ∧
      sweepS.quiet sweepS.ckpt.mask = true ∧ sweepS.sweeps (64 * (hubBase / 64)) = true ∧
      ok (.directorySweepDone []) sweepS (fun t => t.ckpt.sweeping == false && t.ckpt.headDone && (t.line (hubBase / 64)).st == .shared) ∧
      tktValid hw1.ticket = false ∧ ok .heldWriteProceed (ckS fun k => { k with held := [hw1] }) (fun t =>
        t.ckpt.held == [] && t.peek hubBase 3 == [4, 2, 0]) ∧
      ok .heldWriteProceed (ckS fun k => { k with held := [{ hw1 with ticket := BitVec.ofNat 64 (0x300 + 2 ^ 14 + 5 * 2 ^ 16) }] })
        (fun t => (t.bollard 0x300).count == 5) := by
  decide +kernel
theorem wit_CheckpointsSaveAndMove_held : (ckS fun k => { k with held := [hw1] }).hubBytes hw1.addr 2 :=
  hubBytes_of _ _ _ (by decide +kernel) (by decide +kernel)

def stage : State := ((ckS id).wr F.CKP_STAGE_BASE 0 0 (hubBase / 4096)).wr F.CKP_STAGE_LEN_LEN 0 0 1
def ringS : State := { stage with ckpt := { stage.ckpt with st := .background } }
def moverS : State := (ringS.wr F.CKP_DST_EN 0 0 1).wr F.CKP_STAGE_IDX_PROD 0 0 3
theorem wit_CheckpointsSaveAndMove_ring :
    ringS.ringUsed < ringS.ringUnits ∧ (ringS.moveUnits false true (ringS.rd F.CKP_STAGE_IDX_PROD) 1).1 = 1 ∧
      ok .ckpDone ringS (fun t => t.ckpt.st == .done && t.rd F.CKP_STAGE_IDX_PROD == 1 && t.rd F.CKP_BYTES_OUT_COUNT == 64) ∧
      moverS.ringUsed = 3 ∧ (moverS.moveUnits false false 0 2).1 = 2 ∧ (moverS.moveUnits false false 0 3).1 = 3 ∧
      ok (.stageMoverCopy 2 false) moverS (fun t => t.rd F.CKP_STAGE_IDX_CONS == 2 && t.out.length == 1) ∧
      ok (.stageMoverCopy 4 false) moverS (fun t => t.rd F.CKP_STAGE_IDX_CONS == 3 && t.ckpt.moved == 3) ∧
      ok (.stageMoverCopy 2 true) moverS (fun t => t.ckpt.reason == 6) ∧
      ok (.ckpStageIdxWrite (2 ^ 33)) ringS (fun t => t.rd F.CKP_STAGE_IDX_CONS == 2) ∧
      ok (.ckpStageIdxWrite (2 ^ 33)) moverS (fun t => t.rd F.CKP_STAGE_IDX_CONS == 0) := by decide +kernel
theorem wit_CheckpointsSaveAndMove_class : moverS.unmeteredClass 60 :=
  ⟨fun _ => rfl, fun _ => rfl⟩

/-! ### Witnesses: the tide, crossings, memory tiers, power, contexts -/

def tideS (f : Tide → Tide) : State := { base.wr F.TID_CFG_IN_EN 0 0 1 with tide := f { Tide.reset with count := 1000 } }
/-- ... with port 47 an upstream source that is valid. -/
def upS (f : Tide → Tide) : State :=
  let s := ((tideS f).wr F.TID_CFG_UP_EN 0 0 1).wr F.TID_CFG_UP_PORT 0 0 47
  s.setPort 47 { Port.reset with st := .up, markers := 3 }
def frame (v : Nat) : Instr := .tideEpochFrame 0xB38E v (crc16ccitt v)
theorem wit_TideFollowsItsSource :
    ok (frame 5) (tideS fun t => { t with frames := 2 }) (fun t => t.tide.st == .qualify && t.tide.frames == 3 && t.tide.count == 1000) ∧
      ok (frame 5) (tideS fun t => { t with frames := 1 }) (fun t => t.tide.st == .slack && t.tide.frames == 2) ∧
      ok (frame 1001) (tideS fun t => { t with st := .ref }) (fun t => t.tide.count == 1000 && t.tide.offset == 1) ∧
      ok (frame 2000000) (tideS fun t => { t with st := .ref }) (fun t => t.tide.count == 2000000 && t.rd F.TID_STEPS_COUNT == 1) ∧
      ok (.tideEpochFrame 0xB38E 5 (crc16ccitt 4)) (tideS fun t => { t with frames := 2 }) (fun t => t.tide.frames == 0) ∧
      ok (.tideEpochFrame 0xB38F 5 (crc16ccitt 5)) (tideS fun t => { t with frames := 2 }) (fun t => t.tide.frames == 0) ∧
      (tideS fun t => { t with st := .qualify, cand := true, frames := 3 }).inValid = true ∧
      ok .tideQualifyDone (tideS fun t => { t with st := .qualify, cand := true, frames := 3, inOff := -1 }) (fun t => t.tide.st == .ref) ∧
      (upS fun t => { t with st := .qualify, upHops := 6 }).upValid = true ∧
      ok .tideQualifyDone (upS fun t => { t with st := .qualify, upHops := 6, upOff := 1 }) (fun t => t.tide.st == .upstream && t.tide.hops == 6) ∧
      (tideS fun t => { t with st := .qualify, cand := true, frames := 2 }).inValid = false ∧
      ok .tideQualifyDone (tideS fun t => { t with st := .qualify, cand := true, frames := 2 }) (fun t => t.tide.st == .slack) ∧
      ok .tideQualifyDone (tideS fun t => { t with st := .qualify, prev := .slack }) (fun t => t.tide.st == .slack) ∧
      (tideS fun t => { t with st := .ref }).upValid = false ∧
      ok (.tideSourceLoss .noFrame3ms) (tideS fun t => { t with st := .ref }) (fun t => t.tide.st == .slack && t.tide.hops == 511) ∧
      (upS fun t => { t with st := .ref }).upValid = true ∧
      ok (.tideSourceLoss .clkAbsent) (upS fun t => { t with st := .ref, upHops := 6, upOff := -1 }) (fun t =>
        t.tide.st == .upstream && t.tide.hops == 6 && t.tide.frames == 0) := by
  decide +kernel

/-- A held stream, a ferry that waits for a toll, and staged crossing settings. -/
def xing : State :=
  { (((base.wr F.TID_XING_BASE_BASE 0 0 500).wr F.TID_XING_LEN_US 0 0 7).setStream 3
      { Stream.reset with st := .held, store := [dec nopW] }).setFerry 5 { Ferry.reset with st := .tollWait } with
    tide := { Tide.reset with count := 1_000_000, stagedBase := true, stagedLen := true } }
def xing2 : State := { xing with tide := { xing.tide with stagedBase := false, stagedLen := false } }
theorem wit_CrossingsApplyStagedSettings :
    0 < xing.tide.len ∧ xing.tide.base < 2 ^ 64 ∧ xing.boundary + xing.xingLen < 2 ^ 64 ∧
      ok (.tidXingWrite true 2000000) xing2 (fun t => t.rd F.TID_XING_BASE_BASE == 2000000 && t.tide.stagedBase) ∧
      ok (.tidXingWrite true 1000000) xing2 (fun t => t.rd F.TID_XING_BASE_BASE == xing2.boundary + xing2.xingLen) ∧
      ok .stagedXingApply xing (fun t => t.tide.base == 500 && t.tide.len == 7) ∧
      ok .stagedXingApply { xing with tide := { xing.tide with count := 499 } } (fun t => t.tide.stagedBase) ∧
      ok (.tolWrite 63 0x70 77) base (fun t => t.rd (tollField 6) 63 == 77) := by decide +kernel
theorem wit_CrossingsApplyStagedSettings_boundary :
    xing2.tide.lastBoundary < xing2.boundary ∧ xing2.queued = [] ∧ xing2.busQ = [] ∧ xing2.power.fracStaged = none ∧
      ok .crossingBoundary xing2 (fun t => t.tide.lastBoundary == xing2.boundary && t.issueHeld 3 (resolveWords (dec nopW)) == none &&
        (t.stream 3).st == .running && t.ferryFree 5 && (t.ferry 5).st == .sending && t.throttle == (256, 256)) ∧
      ok .crossingBoundary { xing2 with power := { xing2.power with fracStaged := some 0 } } (fun t => t.throttle == (0, 0)) ∧
      ok .crossingBoundary { xing2 with tide := { xing2.tide with lastBoundary := xing2.boundary } } (fun t => (t.stream 3).st == .held) := by
  decide +kernel

def bankS (b : Bank) : State := base.setBank (63 * 256 + 255) b
def scrubS : State := base.wr F.SRM_SCRUB_EN 63 0 1
def wipeS : State := { base with wiping := true }
theorem wit_SramBanksAndScrub :
    isHub 63 = false ∧ base.outOfService 63 = false ∧ base.powerActive = true ∧ base.bank (63 * 256 + 255) = Bank.reset ∧
      ok (.bankStateRequest 63 7 (2 ^ 63)) base (fun t => t.bank (63 * 256 + 255) == ⟨.on, some .off, none⟩) ∧
      ok (.bankTransitionDone 63 255) ((bankS ⟨.on, some .off, none⟩).poke (bankBase 63 255) [7]) (fun t =>
        t.peek (bankBase 63 255) 1 == [0] && (t.bank (63 * 256 + 255)).st == .off) ∧
      ok (.bankTransitionDone 63 255) ((bankS ⟨.on, some .retention, none⟩).poke (bankBase 63 255) [7]) (fun t =>
        t.peek (bankBase 63 255) 1 == [7] && (t.bank (63 * 256 + 255)).st == .retention) ∧
      scrubS.scrubLine 63 = some (0, false) ∧ { scrubS with scrubPos := [(63, 4194303)] }.scrubLine 63 = some (4194303, false) ∧
      ok (.patrolScrub 63 [1, 0, 1] false) scrubS (fun t => t.rd F.SRM_CE_COUNT 63 == 2) ∧
      ok (.patrolScrub 63 [2, 0, 0, 0, 0, 0, 0, 2] false) scrubS (fun t =>
        t.rd F.SRM_UE_COUNT 63 == 2 && t.rd F.SRM_UE_ADDR_ADDR 63 == 63 * 0x1000_0000 + 56) ∧
      wipeS.boot.tamperReset = false ∧ wipeS.secHeld = [] ∧ ok .secureWipeDone wipeS (fun t => t.wiping == false) ∧
      wipeS.region secureBase = .secure ∧ secureBase % 8 = 0 ∧ wipeS.unsavedChunk secureBase 8 = none ∧
      ok .secureWipeDone { wipeS with secHeld := [(secureBase, some 0x0102)] } (fun t =>
        t.peek secureBase 3 == [2, 1, 0] && t.secHeld == []) := by decide +kernel

def retireW (page : Nat) : Word := BitVec.ofNat 64 (page + 5 * 2 ^ 24 + 2 ^ 63)
theorem wit_HbmStacksAreServiced :
    ok (.hbmRetireWrite 23 (retireW 0x8FFFFF)) base (fun t => (t.stack 23).table.length == 1) ∧
      16 ≤ base.log.freeBlocks ∧ ok (.hbmRetireCommit 23) base (fun t => t.log.seq == base.log.seq + 1) ∧
      ok (.hbmTempRead 23 120) base (fun t => (t.stack 23).crit && (t.stack 23).level == 2) ∧
      ok (.hbmEcsLogRead 23 5) base (fun t => t.rd F.HBM_CE_COUNT 23 == 5) ∧
      ok (.refreshManagementRequest 0) base (fun t => t.rd F.HBM_RFM_COUNT 0 == 1) := by decide +kernel

def offl : State := ((base.wr F.HBM_STATUS_OFFLINE_ACK 23 0 1).wr F.BLK_STATUS_OFFLINE_ACK 3 0 1)
def runB : Word := BitVec.ofNat 64 (2 ^ 63)
/-- Lane 2047 with both offsets at their most. -/
def marginB : Word := BitVec.ofNat 64 (2 ^ 63 + 63 * 2 ^ 24 + 63 * 2 ^ 16 + 2047)
def prtS : State := base
def prtW (en gran : Nat) : Word := setBits (setBits 0 F.PRT_CFG_ENABLE.lo 1 en) F.PRT_CFG_GRANULE.lo F.PRT_CFG_GRANULE.width gran
theorem wit_OfflineUnitsAndPartitions :
    ok (.hbmOffline 23 true) base (fun t => t.rd F.HBM_STATUS_OFFLINE_ACK 23 == 1) ∧
      ok (.hbmOffline 23 false) (offl.wr F.HBM_MARGIN_DELAY 23 0 9) (fun t => t.rd F.HBM_MARGIN_DELAY 23 == 0) ∧
      ok (.blkOffline 3 true) base (fun t => t.rd F.BLK_STATUS_OFFLINE_ACK 3 == 1) ∧
      ok (.blkOffline 3 false) (offl.wr F.BLK_MARGIN_VREF 3 0 9) (fun t => t.rd F.BLK_MARGIN_VREF 3 == 0) ∧
      ok (.hbmMarginRun 23 runB) offl (fun t => t.rd F.HBM_MARGIN_RUN 23 == 1) ∧ ok (.hbmMarginRun 23 runB) base (fun t => t.rd F.HBM_MARGIN_RUN 23 == 0) ∧
      ok (.blkMarginRun 3 runB) offl (fun t => t.rd F.BLK_MARGIN_RUN 3 == 1) ∧ ok (.blkMarginRun 3 runB) base (fun t => t.rd F.BLK_MARGIN_RUN 3 == 0) ∧
      (offl.wr F.HBM_MARGIN_RUN 23 0 1).rd F.HBM_MARGIN_RUN 23 = 1 ∧
      (offl.wr F.BLK_MARGIN_RUN 3 0 1).rd F.BLK_MARGIN_RUN 3 = 1 ∧
      ok (.hbmMarginRun 23 marginB) offl (fun t => t.margins == [(23 * 2048 + 2047, (63, 63))]) ∧
      ok (.blkMarginRun 3 (marginB - 1408)) offl (fun t => t.margins == [(27 * 2048 + 639, (63, 63))]) ∧
      ok (.hbmOffline 23 false) { offl with margins := [(23 * 2048 + 2047, (63, 63))] } (fun t => t.margins == []) ∧
      base.tollHeld 62 2 0 = false ∧ base.rd F.BLK_CTRL_OFFLINE 3 = 0 ∧
      ok (.blkScrub 3 1 false) (base.wr F.BLK_SCRUB_EN 3 0 1) (fun t => t.rd F.BLK_CE_COUNT 3 == 1) ∧
      ok (.blkScrub 3 2 false) (base.wr F.BLK_SCRUB_EN 3 0 1) (fun t => t.rd F.BLK_UE_COUNT 3 == 1) ∧
      fld (prtW 1 2) F.PRT_CFG_ENABLE = 1 ∧
      ok (.partitionEnable 15 (prtW 1 2)) base (fun t => t.rd F.PRT_CFG_ENABLE 15 == 1) ∧ prtS.rd F.PRT_CFG_ENABLE 0 = 1 ∧
      (prtS.rd F.PRT_CFG_ENABLE 15 = 0) ∧
      ok (.partitionEnable 0 (prtW 1 (prtS.rd F.PRT_CFG_GRANULE 0 + 1))) prtS (fun t => t.rd F.PRT_CFG_GRANULE 0 == prtS.rd F.PRT_CFG_GRANULE 0 && bits (t.reg (evKey 0x13 0)) 1 1 == 1) ∧
      ok (.partitionEnable 0 (prtW 0 2)) prtS (fun t => t.rd F.PRT_CFG_ENABLE 0 == 0) := by decide +kernel

/-- Partition 15 over the stacks of partition 0. -/
def overS : State := (base.wr F.PRT_STACKS_MASK 15 0 2).wr F.PRT_RANGE_SIZE 15 0 4
theorem wit_OfflineUnitsAndPartitions_overlap :
    overS.partOverlap 15 0 = true ∧ ok (.partitionEnable 15 (prtW 1 2)) overS (fun t => t.rd F.PRT_CFG_ENABLE 15 == 0 && bits (t.reg (evKey 0x13 15)) 0 1 == 1) := by
  decide +kernel

def pw (f : Power → Power) : State := { base with power := f Power.reset }
def ctl : State := ((base.wr F.PWR_CFG_EN 0 0 1).wr F.PWR_LIMIT_FRAC_MIN 0 0 64).wr F.PWR_LIMIT_CAP_W 0 0 1000
theorem wit_PowerControlActs :
    ok (.monitorSample .pin 0) ((base.wr F.MON_VIN_MV 64 0 48000).wr F.MON_IIN_A10M 64 0 1000) (fun t => t.rd F.MON_PIN_W 64 == 480 && t.rd F.MON_PEAK_W 64 == 480) ∧
      ok (.monitorSample .tin 641) base (fun t => bits (t.reg (evKey 0x19 0)) 2 1 == 1) ∧
      ok (.droopEvent 63 51) (base.wr F.MON_DROOP_MV 63 0 50) (fun t => t.rd F.MON_DROOP_CNT_COUNT 63 == 1) ∧
      ok (.droopEvent 63 50) (base.wr F.MON_DROOP_MV 63 0 50) (fun t => t.rd F.MON_DROOP_CNT_COUNT 63 == 0) ∧
      ok .energyCharge (pw fun p => { p with classPj := [(63, 2500000)] }) (fun t => t.counter 63 6 0 == base.counter 63 6 0 - 3) ∧
      ctl.rd F.PWR_CFG_EN = 1 ∧ ctl.xnum % ctl.rd F.PWR_CFG_ALIGN_N = 0 ∧
      ok .controllerUpdate ctl (fun t => 64 ≤ t.power.frac && t.power.fracStaged == some t.power.frac) ∧
      (base.wr F.PWR_CFG_EN 0 0 0).rd F.PWR_CFG_EN = 0 ∧ ok .controllerUpdate (base.wr F.PWR_CFG_EN 0 0 0) (fun t => t.power == base.power) ∧ ok .ballastUpdate (base.wr F.PWR_CFG_EN 0 0 0) (fun t => t.power.ballast == 0) := by decide +kernel

def wakeS (us : Nat) (f : Power → Power) : State := { base.wr F.PWR_WAKE_US 0 0 us with power := f Power.reset }
def nbHead (nb : Nat) : Decoded := dec (setNth (man 0 0 0 0 [] 0 0) 12 (BitVec.ofNat 64 nb))
/-- A head that waits for a time. -/
def nbS (nb : Nat) : State :=
  (wakeS 1000 fun p => { p with st := .nap }).setStream 3 { Stream.reset with st := .waiting, registered := true, store := [nbHead nb] }
theorem wit_PowerStatesEnterAndExit :
    (wakeS 1000 id).powerActive = true ∧ (wakeS 1000 id).quietNow = true ∧ (wakeS 1000 id).deepOk = false ∧ (wakeS 1000 id).notBefores = [] ∧
      (wakeS 1000 id).exitUs .nap = 652 ∧
      ok (.quietEntry false) (wakeS 1000 id) (fun t => t.power.target == .nap && t.power.transition) ∧
      ok .powerEntryDone (wakeS 1000 fun p => { p with transition := true, target := .nap }) (fun t => t.power.st == .nap) ∧
      ok .powerEntryDone ((wakeS 1000 fun p => { p with transition := true, target := .deep }).poke near5 [9]) (fun t =>
        t.power.st == .deep && t.peek near5 1 == [0]) ∧
      ok (.wakeEvent (.registerWrite 3)) (wakeS 1000 fun p => { p with st := .nap }) (fun t => t.power.transition && t.power.target == .active) ∧
      ok .powerExitDone (wakeS 1000 fun p => { p with st := .nap, transition := true, target := .active }) (fun t => t.power.st == .active) ∧
      ok (.pwrWakeWrite 100) (wakeS 1000 fun p => { p with st := .nap }) (fun t => t.rd F.PWR_WAKE_US == 100 && t.power.transition && t.power.target.rank < 2) ∧
      ok (.pwrWakeWrite 652) (wakeS 1000 fun p => { p with st := .nap }) (fun t => t.power.transition == false) ∧
      ok (.notBeforeExit 3) (nbS 652000) (fun t => t.power.transition) ∧ ok (.notBeforeExit 3) (nbS 652001) (fun t => t.power.transition == false) := by
  decide +kernel

def cxS (f : Ctx → Ctx) : State := base.setCtx 63 (f Ctx.reset)
/-- A context in the first phase of its teardown, with stream 3. -/
def tornS : State :=
  ((cxS fun c => { c with st := .tearing, phase := 1 }).wr F.STR_CFG_CTX 0 3 63).setStream 3 { Stream.reset with st := .running }
theorem wit_ContextsArmAndTearDown :
    ok (.ctxArm 63) (cxS fun c => { c with stagedLo := 5, keySet := true }) (fun t => (t.ctx 63).st == .armed && (t.ctx 63).keyLo == 5) ∧
      ({ cxS (fun c => { c with st := .torn, tornTide := 0 }) with tide := { Tide.reset with count := 5 } }).guarded 63 = true ∧
      ok (.ctxArm 63) { cxS (fun c => { c with st := .torn, tornTide := 0 }) with tide := { Tide.reset with count := 5 } } (fun t =>
        (t.ctx 63).st == .torn && bits (t.reg (evKey 0x17 63)) 3 1 == 1) ∧
      ok (.ctxKeyWrite 63 true 8) base (fun t => (t.ctx 63).stagedHi == 8 && (t.ctx 63).keyHi == 0) ∧
      ok (.ctxTeardown 63) (cxS fun c => { c with st := .armed, gen := 4095 }) (fun t => (t.ctx 63).st == .tearing && (t.ctx 63).gen == 0) ∧
      ok (.faultReport [⟨63, 7, 1, 2, 3, 4, 5⟩]) (cxS fun c => { c with st := .armed }) (fun t => t.rd F.CTX_FAULT_CLASS 63 == 7 && t.rd F.CTX_FAULT_ADDR_ADDR 63 == 3) ∧
      (tornS.ctxStreams 63).Nodup ∧ 3 ∈ tornS.ctxStreams 63 ∧ ok (.teardownStop 63 [3]) tornS (fun t =>
        (t.ctx 63).phase == 2 && (t.stream 3).st == .faulted && t.rd F.STR_RACE_COUNT 0 3 == 1) ∧
      ok (.teardownDrain 63) (cxS fun c => { c with st := .tearing, phase := 2 }) (fun t => (t.ctx 63).phase == 3) ∧
      ok (.teardownClear 63) ((cxS fun c => { c with st := .tearing, phase := 3 }).wr F.FRY_CFG_CTX 127 0 63 |>.setFerry 127 { Ferry.reset with xferSeq := 9 }) (fun t =>
        (t.ctx 63).phase == 4 && t.ferry 127 == Ferry.reset) ∧
      ok (.teardownReport 63) (cxS fun c => { c with st := .tearing, phase := 4 }) (fun t => (t.ctx 63).st == .torn) := by decide +kernel

/-! ### Witnesses: resets, boot, security, the log -/

/-- The header of an image with an empty body, signed with a P-384 key outside Lean. -/
def hdrNum : Nat :=
  0x4e702ef9139c06957fadf5dd1f9cd58e7308daa4990a3d75a4808ef90bded4da5e2b58cb65fc3d833eec03217e5093866badcee2d6e2c62e8ceaa718bdf3ebb12a16f5deb6780da1b9f32c422c1c411a239c30764600259009243e11b4ba52bb5bb99848f1d21ad5fb656fe7bfde4e27dae1f663bfc70c4c4307be1411b7fd216ae3b1b17e32d94c3896ac51a760b0380000000000000000000000000000000000000000000000fcedd0cf36c039b06a0134e148cfa51ae79c40892bf24efde84aa6882176f5c722913a73f28728f91234aaa12e0e757ec15b41d8b6b651284f6af09cca72096e1ce5b5e0355b1c682eb17aeff31d3ea7ead4b80f2aa5e7ff02d312d322a628c90400001000000000000000100000000000000000000000000000010000000000090004000150575a46
def hdrB : List Byte := leBytes 0x130 hdrNum
/-- A part in DEVELOP whose development key is the image's, with the image in region A. -/
def devFuses : Fuses :=
  { Fuses.reset with
    rows := [(1, 0), (1, 1), (2, 0), (2, 1)]
    hashes := [(1, leBytes 48 0x509b2b89d59e236c5a8ce0109bb6aff99cad66f9e71f5d689cf3c9dff8cde1eab1935fc66c56a21f692d822eb916d9)] }
/-- The listed cells of bytes at an address. -/
def cells (a : Nat) (bs : List Byte) (un : Byte) : List (Nat × Byte) :=
  ((List.range bs.length).zip bs).filterMap fun e => if e.2 = un then none else some (a + e.1, e.2)
@[irreducible] def flashA : Sparse Byte := cells 0 hdrB 0xFF
def bootS : State := { base with fuses := devFuses, flash := flashA, boot := { Boot.reset with step := 15 } }

theorem wit_bootable_image : bootS.bootImage = some 0 := by decide +kernel
theorem bootImage_congr (s t : State) (hf : s.fuses = t.fuses) (hl : s.flash = t.flash) : s.bootImage = t.bootImage := by
  have hb : ∀ i n : Nat, s.imageBody i n = t.imageBody i n := fun i n => by unfold State.imageBody State.flashBytes; rw [hl]
  have hh : ∀ i : Nat, s.imageHeader i = t.imageHeader i := fun i => by unfold State.imageHeader State.flashBytes; rw [hl]
  have hg : ∀ i : Nat, s.imageGood i = t.imageGood i := fun i => by
    unfold State.imageGood State.imagePresent
    rw [hf, hl, hh i, show s.imageBody i = t.imageBody i from funext (hb i)]
  unfold State.bootImage
  rw [hg 0, hg 1, hh 0, hh 1]
/-- Each state whose command ends in a boot meets what a boot needs. -/
theorem bootable_of (s : State) (hf : s.fuses = bootS.fuses) (hl : s.flash = bootS.flash)
    (h : s.pins.lidOpen = false ∧ 16 ≤ s.log.freeBlocks ∧ s.failedEdges.length < 2 ∧ ∀ b ∈ s.log.blocks, ∀ r ∈ b.2.recs, r.type ≠ 1) :
    s.bootable := by
  refine ⟨?_, ?_, h⟩
  · rw [bootImage_congr s bootS hf hl, wit_bootable_image]; simp
  · rw [hf]; decide +kernel

def holding (h : Option Hold) (low : Bool) : State := { bootS with hold := h, pins := { bootS.pins with resetLow := low } }
theorem holding_same (h : Option Hold) (low : Bool) : (holding h low).fuses = bootS.fuses ∧ (holding h low).flash = bootS.flash := by
  unfold holding
  exact ⟨Eq.refl bootS.fuses, Eq.refl bootS.flash⟩
theorem wit_ResetsAndPowerOn : bootS.bootable ∧ (holding (some .pinLow) true).bootable ∧ (holding (some (.protective 0x45)) false).bootable ∧
    (holding (some .unpowered) false).bootable ∧ (holding (some .lidOpen) false).bootable ∧ (holding (some .outOfService) false).bootable := by
  have h : ∀ (x : Option Hold) (b : Bool), _ → (holding x b).bootable := fun x b => bootable_of _ (holding_same x b).1 (holding_same x b).2
  refine ⟨bootable_of bootS (Eq.refl _) (Eq.refl _) ?_, h _ _ ?_, h _ _ ?_, h _ _ ?_, h _ _ ?_, h _ _ ?_⟩ <;> decide +kernel

/-- Facts of a power-on that meets no fault. -/
def facts : BootFacts := { fuseBad := false, trainBad := false, flashBad := false, attached := true, smbAddr := 7 }
theorem wit_ResetsAndPowerOn_holds :
    bootS.modInWindow + 1 ≤ bootS.rd F.RST_ESC_MOD_LIMIT ∧ bootS.resets.oos = false ∧
      (∀ k : Nat, (bootS.stack k).marked = []) ∧ [3, 5, 0].foldl min 255 = 0 ∧
      ok .pcieFundamentalReset bootS (fun t => t.pins.modReady == bootS.pins.modReady) ∧
      ok (.protectiveTrip 0x45) bootS (fun t => t.hold == some (.protective 0x45) && t.pins.modFaultN == false) ∧
      ok (.modResetNLow 1000) bootS (fun t => t.hold == some .pinLow) ∧ ok (.modResetNLow 999) bootS (fun t => t.hold == none) ∧
      ok .protectiveRelease (holding (some (.protective 0x40)) true) (fun t => t.hold == some .pinLow) ∧
      ok .modResetNRelease (holding (some (.bootFailed 0x50)) true) (fun t => t.hold == some (.bootFailed 0x50) && t.pins.resetLow == false) := by
  refine ⟨by decide +kernel, by decide +kernel, fun k => rfl, ?_⟩
  decide +kernel

/-- A module that is out of service, after a power cycle. -/
def oosS : State :=
  { bootS with hold := some .outOfService, resets := { bootS.resets with oos := true, powerCycled := true } }
theorem wit_ResetsAndPowerOn_power :
    ok (.powerLoss .none) bootS (fun t => t.hold == some .unpowered && t.flash == flashA) ∧
      ok (.powerLoss .erase) bootS (fun t => t.hold == some .unpowered && t.fuses == devFuses) ∧
      (holding (some .unpowered) false).resetsFromLog.oos = false ∧
      ok (.powerOnSequence { facts with fuseBad := true }) State.reset (fun t => t.hold == some (.bootFailed 0x53) && t.boot.step == 2) ∧
      ok (.powerOnSequence facts) State.reset (fun t => t.hold == some (.bootFailed 0x50) && t.boot.step == 4) ∧
      oosS.boot.fwup ≠ 2 ∧ 0 < oosS.rd F.RST_ESC_MOD_LIMIT ∧ 18 ≤ oosS.log.freeBlocks ∧
      ok (.rstOosAck 5) (holding (some .outOfService) false) (fun t => t.hold == some .outOfService) ∧
      ok (.rstUnmap 0x105) (lost5) (fun t => t.resets.unmap == [5]) ∧
      ok (.rstUnmap 0x106) (lost5) (fun t => t.resets.unmap == []) := by decide +kernel
theorem wit_ResetsAndPowerOn_oos : oosS.bootable :=
  bootable_of _ (by unfold oosS; exact Eq.refl bootS.fuses) (by unfold oosS; exact Eq.refl bootS.flash) (by decide +kernel)

def dumpS (dumping : Bool) : State := { base with resets := { Resets.reset with current := some ⟨1, 0x20, 5, dumping, false, none⟩ } }
/-- A dump to HBM while class 62 has no HBM toll left. -/
def dumpHbm : State := { (dumpS true).wr F.RST_DUMP_AREA_ADDR 0 0 (hbmBase / 0x10_0000) with tolls := [(62 * 8 + 1, 0)] }
theorem wit_ComputeResetsAndAge :
    (base.wr F.RST_CFG_DUMP_EN 0 0 1).rd F.RST_CFG_DUMP_EN = 1 ∧ base.resets.current = none ∧ 16 ≤ base.log.freeBlocks ∧
      ok (.computeReset 0x20) (base.wr F.RST_CFG_DUMP_EN 0 0 1) (fun t => t.resets.current.isSome && t.rd F.RST_CAUSE_CODE == 0x20) ∧
      ok (.computeReset 0x20) (((base.wr F.RST_CFG_DUMP_EN 0 0 0).wr F.RST_TARGET_MASK 0 0 1).setBollard 7 { Bollard.reset with count := 4 }) (fun t =>
        t.bollard 7 == Bollard.reset) ∧
      (dumpS true).ctxsOn (setBitsOf 1 64) = [] ∧ ((dumpS true).admitSectors 62 ((dumpS true).dumpSectors (setBitsOf 1 64))).1 = [] ∧
      dumpHbm.rd F.RST_DUMP_AREA_ADDR * 0x10_0000 = hbmBase ∧ (dumpHbm.admitSectors 62 (dumpHbm.dumpSectors (setBitsOf 1 64))).1 ≠ [] ∧
      ok .dumpDone dumpHbm (fun t => t.rd F.RST_CAUSE_DUMP_OK == 0 && (t.resets.current.any fun r => r.dumping && r.due.isSome)) ∧
      ok .dumpDone (dumpS true) (fun t => t.rd F.RST_CAUSE_DUMP_OK == 1) ∧
      ok .dumpTimeout (dumpS true) (fun t => t.rd F.RST_CAUSE_DUMP_OK == 0 && bits (t.reg (evKey 0x18 0)) 2 1 == 1) ∧
      ok .computeResetDone (dumpS false) (fun t => t.resets.current == none) ∧
      ok .ageTick base (fun t => t.resets.age == 1) ∧ ok .ageLogWrite base (fun t => t.log.seq == base.log.seq + 1) := by decide +kernel
theorem wit_ComputeResetsAndAge_limit : ∀ x : Nat, base.siteInWindow x + 1 ≤ base.rd F.RST_ESC_SITE_LIMIT := by
  intro x
  have h : base.rd F.RST_ESC_SITE_LIMIT = 4 := by decide +kernel
  rw [h]
  simp [State.siteInWindow, base, State.wr, State.setReg, State.reset, Resets.reset]

/-- The staged image of an update, in hub memory. -/
def stagedS : State :=
  { (base.wr F.SEC_FWUP_ADDR_ADDR 0 0 (hubBase / 4096)).wr F.SEC_FWUP_LEN_BYTES 0 0 0x1000 with
    fuses := devFuses, boot := { Boot.reset with step := 15 }, mem := cells hubBase hdrB 0 }
/-- An image in HBM that class 63, which has no HBM toll left, cannot read yet. -/
def heldJob : State :=
  { ((base.wr F.SEC_FWUP_ADDR_ADDR 0 0 (hbmBase / 4096)).wr F.SEC_FWUP_LEN_BYTES 0 0 64).wr F.LOG_EXPORT_ADDR 0 0 (hbmBase / 4096) with
    tolls := [(63 * 8 + 1, 0)] }
theorem wit_FirmwareFusesAndTamper_update :
    stagedS.rd F.SEC_FWUP_LEN_BYTES ≤ 0x400_0000 ∧ stagedS.boot.image < 2 ∧
      imageReason stagedS.fuses 0x1000 ((stagedS.load stagedS.fwupAddr 0x1000).1.take 0x130)
        (fun k => ((stagedS.load stagedS.fwupAddr 0x1000).1.drop 0x1000).take k) = 0 ∧
      ok .fwupStart base (fun t => t.boot.fwup == 3 && t.boot.fwReason == 1 && t.flash == []) ∧
      ok .fwupStart heldJob (fun t => t.busQ == [.job .image]) ∧
      ok (.fwupDone true) { base with boot := { Boot.reset with fwup := 1 } } (fun t => t.boot.fwup == 2) := by decide +kernel
theorem wit_FirmwareFusesAndTamper_jobs : stagedS.jobPasses .image ∧ base.jobPasses .image ∧ ¬ heldJob.jobPasses .image ∧
    base.jobPasses (.token 0x101) ∧ ({ base with fuses := { Fuses.reset with rows := [(1, 0), (1, 2)] } }).jobPasses (.hash 3) := by
  unfold State.jobPasses
  decide +kernel

def fus (f : Fuses → Fuses) (b : Boot → Boot) : State := { base with fuses := f Fuses.reset, boot := b Boot.reset }
theorem wit_FirmwareFusesAndTamper :
    ok (.lcsGo 1) base (fun t => t.boot.lcsResult == 0) ∧
      base.lcsCheck 1 (base.load 0 256).1 ≠ 1 ∧ ok (.lcsGo 0x101) base (fun t => t.boot.lcsResult == 3) ∧ ok (.lcsGo 0x103) base (fun t => t.boot.lcsResult == 2) ∧
      ok (.lcsBurnDone 3) (fus id fun b => { b with lcsBusy := some 1, tamperReset := true }) (fun t => t.fuses.rows == [(1, 0), (1, 1), (1, 2)] && t.boot.lcsBusy == none) ∧
      (9 % 16 &&& (base.wr F.SEC_TAMPER_EN_SOURCES 0 0 8).tamperOn) ≠ 0 ∧
      ok (.tamperEvent 9) (base.wr F.SEC_TAMPER_EN_SOURCES 0 0 8) (fun t => t.rd F.SEC_TAMPER_SOURCES == 8 && t.wiping && t.pins.lidOpen) ∧
      ok .fusProgDebugLock base (fun t => t.boot.prog == some (1, 0, [])) ∧
      ok .fusProgDebugLock (fus (fun f => { f with debugLock := true }) id) (fun t => t.boot.progResult == 2) ∧
      ok .fusProgRollbackSet (fus id fun b => { b with rollback := 64 }) (fun t => t.boot.prog == some (2, 64, [])) ∧
      (fus (fun f => { f with rows := [(1, 0), (1, 2)] }) id).fuses.lifecycle = 1 ∧
      ok (.fusProgKeyHash 2) (fus (fun f => { f with rows := [(1, 0), (1, 2)] }) id) (fun t => t.boot.prog == some (3, 2, List.replicate 48 0)) ∧
      ok (.fusProgDone true) (fus id fun b => { b with prog := some (2, 64, []) }) (fun t => t.fuses.rollback == 64) ∧
      ok (.fusProgDone false) (fus id fun b => { b with prog := some (1, 0, []) }) (fun t => t.fuses.debugLock == false && t.boot.progResult == 3) ∧
      base.tapOpen = true ∧ ok (.tapDieSelect none) base (fun t => t.boot.tap == 1) ∧
      (fus (fun f => { f with debugLock := true }) id).tapOpen = false ∧
      ok (.tapDieSelect none) (fus (fun f => { f with debugLock := true }) id) (fun t => t.boot.tap == 3) ∧
      ok (.tapBackdoor hubBase none) (fus (fun f => { f with debugLock := true }) id) (fun t => t.boot.tap == 3) := by decide +kernel

def tokNum : Nat :=
  0xdeb5554601a95c570ba772aea0226accc152e361e651b7be8f472041ca8908fb612f4576bf52041f9889697306f888582af98accc34c1a1c261249e653cfbb1271312de13e01fbbf8520ab72f3dd58845a738ce6f822fcda121072f27d96ddc700000000000000000000000000000000000000000000000000000000000000fcedd0cf36c039b06a0134e148cfa51ae79c40892bf24efde84aa6882176f5c722913a73f28728f91234aaa12e0e757ec15b41d8b6b651284f6af09cca72096e1ce5b5e0355b1c682eb17aeff31d3ea7ead4b80f2aa5e7ff02d312d322a628c9040000000000000001000000000000004d0000000000000005000000034c435354
/-- A part in DEVELOP with a token, signed by the development key, for PRODUCTION. -/
def lcsS : State :=
  { base.wr F.LCS_TOKEN_ADDR 0 0 (hubBase / 256) with
    mem := cells hubBase (leBytes 256 tokNum) 0, fuses := { devFuses with serial := 5 }, boot := { Boot.reset with nonce := 77 } }
theorem wit_FirmwareFusesAndTamper_lcs :
    ok (.lcsGo 0x103) lcsS (fun t => t.boot.lcsResult == 1 && t.boot.lcsBusy == some 3 && t.wiping && t.fuses.debugLock) := by decide +kernel
theorem wit_FirmwareFusesAndTamper_lcs_passes : lcsS.jobPasses (.token 0x103) := by
  unfold State.jobPasses
  decide +kernel

/-- A part in TEST, or in BLANK, that the pin holds in module reset. -/
def testS (rows : List (Nat × Nat)) : State := { fus (fun f => { f with rows := rows }) id with hold := some .pinLow }
def inTest : State := testS [(1, 0), (1, 2)]
def loop7 : DieTest := ⟨0, .loopBack, [(7, 31)]⟩
theorem wit_FirmwareFusesAndTamper_die :
    inTest.fuses.lifecycle = 1 ∧ inTest.tapOpen = true ∧ (testS []).fuses.lifecycle = 0 ∧ (testS []).tapOpen = true ∧
      inTest.log.ofType 1 = [] ∧ 16 ≤ inTest.log.freeBlocks ∧
      ok (.tapDieSelect (some ⟨3, .scan, []⟩)) inTest (fun t => t.out == [.ctrl 27 "DIE_TEST" [3, 0]]) ∧
      ok (.tapDieSelect (some loop7)) (testS []) (fun t => t.out == [.ctrl 27 "DIE_TEST" [0, 3, 7, 31]] && t.log.seq == (testS []).log.seq) ∧
      ok (.tapDieSelect (some loop7)) inTest (fun t => t.log.seq == inTest.log.seq + 1 && t.boot.dieTest == some loop7) := by
  decide +kernel

def rec0 : LogRec := ⟨4, 0, 1, [], true⟩
def gcS : State := { base.wr F.LOG_EXPORT_ADDR 0 0 (hubBase / 4096) with log := { base.log with seq := 3, blocks := [(2, ⟨.complete, 1, 0, [rec0, { rec0 with seq := 2 }]⟩), (3, ⟨.opened, 2, 0, [{ rec0 with seq := 3 }]⟩)] } }
def heldLog : State := { gcS.wr F.LOG_EXPORT_ADDR 0 0 (hbmBase / 4096) with tolls := [(63 * 8 + 1, 0)] }
theorem wit_LogKeepsRecords :
    ok (.logRecordCommit 4 0 [1, 2]) base (fun t => t.log.seq == base.log.seq + 1) ∧
      (gcS.log.victim gcS.resetCut).map Prod.fst = some 2 ∧ liveBytes (gcS.log.live gcS.resetCut) (gcS.log.block 2) = 0 ∧
      ok .logGc gcS (fun t => (t.log.block 2).recs == [] && (t.log.block 2).erases == 1) ∧
      gcS.exported.length < 2 ^ 32 ∧ 0 < gcS.exported.length ∧
      ok .logExport gcS (fun t => t.log.exporting && t.rd F.LOG_EXPORT_LEN_BYTES == gcS.exported.length) ∧
      ok .logExport heldLog (fun t => t.busQ == [.job .exportLog] && !t.log.exporting) ∧
      ok .logExportDone { gcS with log := { gcS.log with exporting := true } } (fun t => t.log.exporting == false) := by decide +kernel
theorem wit_LogKeepsRecords_export : gcS.jobPasses .exportLog ∧ ¬ heldLog.jobPasses .exportLog := by
  unfold State.jobPasses
  decide +kernel
theorem wit_LogKeepsRecords_memory : gcS.hubBytes hubBase gcS.exported.length :=
  hubBytes_of _ _ _ (by decide +kernel) (by decide +kernel)

/-! ### Witnesses: Verath links and the census -/

def prt (f : Port → Port) : State := base.setPort 47 (f Port.reset)
def im (node : Nat) : InitMsg := ⟨2, node, 3, [1, 2, 3], 2048, 0, 5⟩
def x4 : LinkTarget := ⟨4, 0xF0, false⟩
theorem wit_PortsChangeState_train :
    base.census.root = false ∧ base.census.st ≠ .running ∧
      ok (.portEnable 47) base (fun t => (t.port 47).st == .training) ∧
      ok (.linkTrainingDone 47) (prt fun x => { x with st := .training }) (fun t => (t.port 47).initSent) ∧
      ok (.initReceive 47 (im 3)) (prt fun x => { x with st := .training }) (fun t => (t.port 47).st == .training && (t.port 47).initGot == some (im 3)) ∧
      ok (.initReceive 47 (im 3)) (prt fun x => { x with st := .training, initSent := true }) (fun t => (t.port 47).st == .up && (t.port 47).credits == [1, 2, 3]) ∧
      ok (.portReconfig 47) (prt fun x => { x with st := .up }) (fun t => (t.port 47).st == .paused) ∧
      ok (.pauseReceive 47 x4) (prt fun x => { x with st := .up }) (fun t => (t.port 47).target == x4) ∧
      (base.wr F.VPT_CFG_AUTO_NARROW 47 0 1).rd F.VPT_CFG_AUTO_NARROW 47 = 1 ∧
      ok (.laneLockLoss 47 3) ((prt fun x => { x with st := .up, lock := 0xFF }).wr F.VPT_CFG_AUTO_NARROW 47 0 1) (fun t => (t.port 47).target == x4) ∧
      ok (.laneLockLoss 47 4) ((prt fun x => { x with st := .up, lock := 0xFF }).wr F.VPT_CFG_AUTO_NARROW 47 0 1) (fun t => (t.port 47).target.lanes == 0x0F) ∧
      base.ownNode = 0xFFFF ∧ (base.wr F.VPT_NODE_NODE 48 0 2).ownNode = 2 ∧
      ok (.pauseReceive 47 x4) ((prt fun x => { x with st := .paused, initGot := some (im 3) }).wr F.VPT_NODE_NODE 48 0 2) (fun t => (t.port 47).target != x4) ∧
      ok (.pauseReceive 47 x4) (prt fun x => { x with st := .paused, initGot := some (im 3) }) (fun t =>
        (t.port 47).target == x4 && (t.port 47).overruled) ∧
      ok (.retrainDone 47) (prt fun x => { x with st := .paused, target := x4 }) (fun t => (t.port 47).st == .paused && (t.port 47).lanes == 0xF0) ∧
      ok (.retrainDone 47) (prt fun x => { x with st := .paused, target := x4, resumeGot := true }) (fun t => (t.port 47).st == .up && (t.port 47).width == 4) ∧
      ok (.resumeReceive 47 65535) (prt fun x => { x with st := .paused, resumeSent := true }) (fun t => (t.port 47).st == .up) := by
  decide +kernel

theorem wit_PortsChangeState_down :
    ((prt fun x => { x with st := .up, lock := 0 }).port 47).lockLost = true ∧
      ok (.portDownTimeout 47 false) (prt fun x => { x with st := .up, lock := 0, replay := [default, default] }) (fun t =>
        (t.port 47).st == .down && t.rd F.VPT_LOST_COUNT 47 == 2) ∧
      ok (.portDownTimeout 47 true) (prt fun x => { x with st := .up, lock := 0 }) (fun t => (t.port 47).st == .up) ∧
      ok (.portDownTimeout 47 false) (prt fun x => { x with st := .up, lock := 1 }) (fun t => (t.port 47).st == .up) ∧
      ok (.lockReturn 47 255) ((prt fun x => { x with st := .down }).wr F.VPT_CTRL_ENABLE 47 0 1) (fun t => (t.port 47).st == .training && (t.port 47).lock == 255) ∧
      ok (.portRetrain 47) (prt fun x => { x with st := .down }) (fun t => (t.port 47).st == .training) ∧
      ok (.portRetrain 47) (prt fun x => { x with st := .up, txNext := 5 }) (fun t => (t.port 47).txNext == 0) ∧
      ok (.portDisable 47) (prt fun x => { x with st := .up }) (fun t => (t.port 47).st == .disabled) ∧
      ok (.portDisable 47) (base.wr F.VPT_CTRL_ENABLE 47 0 1) (fun t => t.rd F.VPT_CTRL_ENABLE 47 == 0) := by decide +kernel

theorem wit_PortsChangeState_unused : (prt fun x => { x with st := .up, lock := 0 }).portUnused 47 := by
  unfold State.portUnused
  decide +kernel

def fl (type seq : Nat) : Flit := { (default : Flit) with type := type, seq := seq, cvc := 3 }
def upP (f : Port → Port) : State := prt fun x => f { x with st := .up, credits := [1, 1, 1] }
/-- A flit of the request channel is next. -/
def reqS : State := upP fun x => { x with txQueue := [{ fl 4 0 with vc := 1 }], txNext := 7, txPos := 7 }
theorem wit_FlitsAreSequencedAndReplayed :
    base.power.st ≠ .deep ∧
      ok (.flitReceive 47 (fl 2 65535) ⟨true, 0, 0⟩) (upP fun x => { x with rxExpect := 65535 }) (fun t => (t.port 47).rxExpect == 0) ∧
      ok (.flitReceive 47 (fl 2 0) ⟨false, 0, 0⟩) (upP id) (fun t => (t.port 47).nakSent && t.rd F.VPT_NAK_COUNT 47 == 1) ∧
      ok (.flitReceive 47 { fl 1 0 with ackv := true, ack := 4 } ⟨true, 0, 0⟩) (upP fun x => { x with replay := [fl 2 4, fl 2 5] }) (fun t =>
        (t.port 47).replay == [fl 2 5]) ∧
      (upP fun x => { x with txQueue := [fl 4 0] }).waitTolls 47 = upP (fun x => { x with txQueue := [fl 4 0] }) ∧
      (upP fun x => { x with txQueue := [fl 4 0] }).nextFlit 47 = some (fl 4 0) ∧
      ok (.flitTransmission 47) (upP fun x => { x with txQueue := [fl 4 0], txNext := 7, txPos := 7 }) (fun t =>
        (t.port 47).replay == [fl 4 7] && (t.port 47).credits == [0, 1, 1] && (t.port 47).txNext == 8) ∧
      reqS.waitTolls 47 = reqS ∧ reqS.nextFlit 47 = some { fl 4 0 with vc := 1 } ∧
      ok (.flitTransmission 47) reqS (fun t => t.counter (reqS.flitClass { fl 4 0 with vc := 1 }) 4 47 ==
        reqS.counter (reqS.flitClass { fl 4 0 with vc := 1 }) 4 47 - 1 && (t.port 47).replay == [{ fl 4 7 with vc := 1 }]) ∧
      ok (.flitTransmission 47) (upP fun x => { x with replay := [fl 4 6], txNext := 7, txPos := 6 }) (fun t =>
        (t.port 47).txPos == 7 && t.rd F.VPT_REPLAY_COUNT 47 == 1) ∧
      ok (.replayTimeout 47) (upP fun x => { x with replay := [fl 4 6], txNext := 7, txPos := 7 }) (fun t => (t.port 47).txPos == 6) ∧
      ok (.nakRepeatTimeout 47) (upP fun x => { x with nakSent := true }) (fun t => t.rd F.VPT_NAK_COUNT 47 == 1 && t.out.length == 1) ∧
      (upP fun x => { x with sinceAck := 1 }).nextFlit 47 = none ∧
      ok (.ackHoldExpire 47) (upP fun x => { x with sinceAck := 1, ackDue := true }) (fun t => t.out.length == 1 && (t.port 47).sinceAck == 0) ∧
      ok (.creditReport 47 2) (upP fun x => { x with freed := [0, 0, 128] }) (fun t => (t.port 47).reported == [0, 0, 128] && t.out.length == 1) := by
  decide +kernel

def fh : FerryHdr := { FerryHdr.zero with destNode := 9, ports := 1, dataBytes := 64 }
/-- Port 47 routes node 9 to port 46. -/
def rt : State :=
  (((base.wr F.VPT_ROUTE_KEY_VALID 47 0 1).wr F.VPT_ROUTE_KEY_NODE 47 0 9).wr F.VPT_ROUTE_OUT_PORTS 47 0 (2 ^ 46)).setPort 46
    { Port.reset with st := .up }
def fillE : LEntry := { LEntry.reset with st := .filling, hdr := { FerryHdr.zero with dataBytes := 64 } }
def fillS : State := base.setLanding 63 { base.landing 63 with entries := [(5, fillE)] }
/-- Port 47 is the upstream port, with two valid markers so far. -/
def upM : State := ((upP fun x => { x with markers := 2 }).wr F.TID_CFG_UP_EN 0 0 1).wr F.TID_CFG_UP_PORT 0 0 47
theorem wit_TransitAbortAndMarkers :
    fh.destNode ≠ rt.ownNode ∧ rt.route 47 9 = some [46] ∧ rt.transitPorts [46] = true ∧ rt.portOpen 46 = true ∧
      ok (.transitForward 47 3 0 fh) rt (fun t => (t.port 46).txQueue.length == 1 && (t.port 46).transit.length == 1) ∧
      base.route 47 9 = none ∧ ok (.transitForward 47 3 0 fh) base (fun t => t.rd F.VPT_NOROUTE_COUNT 47 == 1) ∧
      fillS.landings = [(63, { fillS.landing 63 with entries := [(5, fillE)] })] ∧
      fillE.complete = false ∧ fillE.fail = 0 ∧ ok (.abortReceive 0 0 0) fillS (fun t => ((t.landing 63).entry 5).st == .ready && ((t.landing 63).entry 5).err) ∧
      ok (.tideMarkerSend 47) (upP id) (fun t => t.out.length == 1) ∧
      (upP id).rd F.TID_CFG_UP_PORT ≠ 47 ∧
      ok (.tideMarkerReceive 47 ⟨100, 510, 0, 0⟩ 120 true) (upP fun x => { x with markers := 4 }) (fun t => (t.port 47).echoTx == 100 && (t.port 47).markers == 0) ∧
      ok (.tideMarkerReceive 47 ⟨100, 509, 0, 0⟩ 120 true) (upP fun x => { x with markers := 4 }) (fun t => (t.port 47).markers == 5) ∧
      upM.tide.st = .slack ∧ ok (.tideMarkerReceive 47 ⟨100, 509, 0, 0⟩ 120 true) upM (fun t =>
        t.tide.st == .qualify && t.tide.upHops == 510 && t.tide.upOff == -10) := by decide +kernel

def cen (f : Census → Census) : State :=
  { ((upP id).setPort 46 { Port.reset with st := .up }).wr F.VPT_CENSUS_BUF_ADDR 48 0 (hubBase / 512) |>.wr F.VPT_CENSUS_LEN_SLOTS 48 0 2 with
    census := f { Census.reset with epoch := 2 ^ 32 - 1 } }
def rootS (f : Census → Census) : State := cen fun c => f { c with root := true, st := .running, total := 1 }
theorem wit_CensusRunsByEpochs :
    (cen id).censusPorts = [46, 47] ∧
      ok .censusStart (cen id) (fun t => t.census.epoch == 0 && t.census.waiting == [46, 47] && (t.port 46).txQueue.length == 1) ∧
      atOrAfter 32 3 (2 ^ 32 - 1) = true ∧
      ok (.probe 47 3) (cen id) (fun t => t.census.epoch == 3 && t.census.parent == 47 && t.census.waiting == [46]) ∧
      ok (.probe 47 (2 ^ 32 - 1)) (cen id) (fun t => t.census.epoch == 2 ^ 32 - 1 && (t.port 47).txQueue.length == 1) ∧
      atOrAfter 32 (2 ^ 32 - 2) (2 ^ 32 - 1) = false ∧
      ok (.probe 47 (2 ^ 32 - 2)) (cen id) (fun t => (t.port 47).txQueue.length == 0) ∧
      ok (.decline 46 (2 ^ 32 - 1)) (cen fun c => { c with waiting := [46, 47], total := 5 }) (fun t => t.census.waiting == [47] && t.census.total == 5) ∧
      ok (.decline 46 7) (cen fun c => { c with waiting := [46, 47] }) (fun t => t.census.waiting == [46, 47]) ∧
      ok (.done 46 (2 ^ 32 - 1) 4 true false) (rootS fun c => { c with waiting := [46] }) (fun t => t.census.st == .done && t.census.count == 5) ∧
      ok (.done 46 (2 ^ 32 - 1) 4 true true) (rootS fun c => { c with waiting := [46] }) (fun t => t.census.st == .running) ∧
      ok (.record 46 (2 ^ 32 - 1) (List.replicate 400 3)) (rootS fun c => { c with slots := 1 }) (fun t => t.census.slots == 2 && t.peek (hubBase + 512) 1 == [3]) ∧
      ok (.change 46 (2 ^ 32 - 1)) (rootS id) (fun t => t.census.epoch == 0 && t.census.restarts == 1) ∧
      ok (.censusTimeout false) (rootS id) (fun t => t.census.st == .failed) := by decide +kernel
/-- A module that is no root has its parent port open. -/
def leafS : State := cen fun c => { c with st := .running, parent := 46 }
theorem wit_CensusRunsByEpochs_buffer :
    (rootS fun c => { c with slots := 1 }).rd F.VPT_CENSUS_BUF_ADDR 48 * 512 = hubBase ∧ leafS.portOpen 46 = true ∧
      ok (.record 47 (2 ^ 32 - 1) (List.replicate 400 3)) leafS (fun t => (t.port 46).txQueue.length == 2) := by decide +kernel
theorem wit_CensusRunsByEpochs_memory : (rootS fun c => { c with slots := 1 }).hubBytes (hubBase + 512) 400 :=
  hubBytes_of _ _ _ (by decide +kernel) (by decide +kernel)

/-! ### Witnesses: coherence, the host, registers -/

def ln : Nat := hubBase / 64
/-- A line of the coherent window of bulk memory, whose classes have no BULK toll left. -/
def bulkLn : Nat := (bulkBase + 2 ^ 30) / 64
def heldOwn : State := { base with cohwin := (1, 2), tolls := (List.range 64).map fun c => (c * 8 + 2, 0) }
def lineS (l : Line) : State := base.setLine ln l
theorem wit_CoherentMemory :
    base.isCoherent (64 * ln) = true ∧ base.unsavedChunk (64 * ln) 64 = none ∧ (base.line ln).held = false ∧
      ok (.ownershipRequest ln [96] none none) base (fun t => t.line ln == ⟨.modified, 96, [], []⟩) ∧
      ok (.ownershipRequest ln [96] none none) (lineS ⟨.exclusive, 5, [], []⟩) (fun t => t.line ln == ⟨.modified, 5, [], [(5, 96)]⟩) ∧
      ok (.ownershipRequest ln [3, 96] none none) base (fun t => t.rd F.CPX_DIR_RACE_COUNT 4 == 1) ∧
      ok (.forwardReceive 5 ln) (lineS ⟨.modified, 5, [], [(5, 96)]⟩) (fun t => t.line ln == ⟨.modified, 96, [], []⟩) ∧
      ok (.writeback 5 ln (List.replicate 64 8) 0) (lineS ⟨.owned, 5, [], []⟩) (fun t => t.peek hubBase 1 == [8] && !(t.line ln).held) ∧
      ok (.writeback 6 ln (List.replicate 64 8) 1) (lineS ⟨.owned, 5, [], []⟩) (fun t =>
        t.peek hubBase 1 == [0] && (t.line ln).st == .owned && t.rd F.CPX_L2_CE_COUNT 0 == 1) ∧
      ok (.writeback 95 ln (List.replicate 64 8) 2) (lineS ⟨.owned, 5, [], []⟩) (fun t =>
        t.rd F.CPX_L2_UE_COUNT 3 == 1 && bits (t.reg (evKey 0x1A 3)) 0 1 == 1) ∧
      ok (.ownershipRequest bulkLn [95] none none) heldOwn (fun t => t.busQ == [.own bulkLn [95] none none] && t.lines == []) ∧
      heldOwn.isCoherent (64 * bulkLn) = true ∧
      ok (.cpxFlush 3) base (fun t => t.flushing == [3]) ∧
      ok (.cpxFlushDone 3 []) { lineS ⟨.modified, 72, [], []⟩ with flushing := [3] } (fun t => (t.line ln).st != .modified && t.flushing == []) ∧
      ok (.cpxFreqChange 3 36) base (fun t => t.rd F.CPX_FREQ_CURRENT 3 == 36) ∧
      ok (.accelCoherentAccess (hubBase + 3) (some [7, 7]) 2 []) (lineS ⟨.shared, 0, [4], []⟩) (fun t =>
        t.line ln == Line.reset && t.peek (hubBase + 2) 4 == [0, 7, 7, 0]) ∧
      ok (.accelCoherentAccess (hubBase + 63) none 1 []) base (fun t => t.out == [.ctrl 27 "DATA" [0]]) ∧
      ok (.accelCoherentAccess hubBase none 1 []) (lineS ⟨.modified, 5, [], []⟩) (fun t => (t.line ln).st == .shared) := by decide +kernel

theorem wit_CoherentMemory_passes :
    base.busPasses (.own ln [96] none none) ∧ base.busPasses (.own ln [3, 96] none none) ∧
      (lineS ⟨.exclusive, 5, [], []⟩).busPasses (.own ln [96] none none) ∧
      (lineS ⟨.owned, 5, [], []⟩).busPasses (.wback 5 ln (List.replicate 64 8)) ∧
      (lineS ⟨.owned, 5, [], []⟩).busPasses (.wback 95 ln (List.replicate 64 8)) ∧ ¬ heldOwn.busPasses (.own bulkLn [95] none none) := by
  unfold State.busPasses
  decide +kernel
theorem wit_CoherentMemory_line : (lineS ⟨.owned, 5, [], []⟩).takesLine ln ∧ base.hubBytes (hubBase + 63) 1 :=
  ⟨⟨by decide +kernel, by decide +kernel, .inl (by decide +kernel)⟩, hubBytes_of _ _ _ (by decide +kernel) (by decide +kernel)⟩

def hostAt (step : Nat) (tolls : Sparse Nat) : State :=
  { base with pins := { base.pins with attached := true }, boot := { base.boot with step := step }, tolls := tolls }.wr
    F.CPX_APERTURE_BASE 4 0 (hubBase / 2 ^ 36)
def hostS : State := hostAt 15 []
/-- A host access to HBM while class 63 has no HBM toll left. -/
def hostHeld : State := (hostAt 15 [(63 * 8 + 1, 0)]).wr F.CPX_APERTURE_BASE 4 0 (hbmBase / 2 ^ 36)
def off : Nat := hubBase % 2 ^ 36
theorem wit_CoherentMemory_host :
    hostS.rd F.CPX_APERTURE_BASE 4 * 2 ^ 36 + off = hubBase ∧ hostS.pins.attached = true ∧
      ok (.hostBar2Access 1 off (some [1, 2]) 2 MemFx.clean) hostS (fun t => t.peek hubBase 3 == [1, 2, 0]) ∧
      ok (.hostBar2Access 1 off none 2 MemFx.clean) hostS (fun t => t.out == [.ctrl 27 "BAR2" [1, 0, 0]]) ∧
      ok (.hostBar2Access 1 off (some [1, 2]) 2 MemFx.clean) (hostAt 14 []) (fun t =>
        t.rd F.PCI_ABORTS_COUNT 1 == 1 && t.peek hubBase 2 == [0, 0]) ∧
      ok (.hostBar2Access 1 off none 2 MemFx.clean) hostHeld (fun t => t.busQ.length == 1) := by decide +kernel
theorem wit_CoherentMemory_host_passes : hostS.hubBytes hubBase 2 ∧ hostS.busPasses (.host 1 hubBase (some [1, 2]) 2 MemFx.clean) ∧
    hostS.busPasses (.host 1 hubBase none 2 MemFx.clean) ∧ ¬ hostHeld.busPasses (.host 1 (hbmBase + off) none 2 MemFx.clean) := by
  refine ⟨hubBytes_of _ _ _ (by decide +kernel) (by decide +kernel), ?_⟩
  unfold State.busPasses
  decide +kernel

/-- Class 63 has no MESH toll left. -/
def heldMesh : State := { base with tolls := [(63 * 8 + 3, 0)] }
theorem wit_RegistersActOnTheirUnits_passes : base.busPasses (.word (.hart 95) (regAddr 0x03 1023 0x38) (some 9) 0) ∧
    ¬ heldMesh.busPasses (.word .mgmt (regAddr 0x05 63 0x38) (some 9) 0) := by
  unfold State.busPasses
  decide +kernel
theorem wit_RegistersActOnTheirUnits :
    pageExists 0x03 1023 = true ∧ ctrlEffect 0x03 = true ∧ base.pageOos 0x03 1023 = false ∧ ctrlEffect 0x05 = false ∧ pageExists 0x05 63 = true ∧
      ok (.registerWrite (regAddr 0x03 1023 0x38) 9 (.hart 95) []) base (fun t => t.reg (regKey 0x03 1023 0x38) == 9) ∧
      isHub (pageSite 0x17 5) = true ∧ sourceRank (.hart 95) < sourceRank .mgmt ∧
      ok (.registerWrite (regAddr 0x17 5 0x38) 9 .mgmt [(7, .hart 95)]) base (fun t => t.reg (regKey 0x17 5 0x38) == 9) ∧
      ok (.registerWrite (regAddr 0x17 5 0x38) 9 (.hart 95) [(7, .mgmt)]) base (fun t => t.reg (regKey 0x17 5 0x38) == 7) ∧
      ok (.registerWrite (regAddr 0x05 63 0x38) 9 .mgmt []) heldMesh (fun t => t.busQ.length == 1 && t.reg (regKey 0x05 63 0x38) == 0) ∧
      ok (.pgEventClear 0x05 63 1 4) (base.setReg (evKey 0x05 63) 3) (fun t => t.reg (evKey 0x05 63) == 6) ∧
      ok (.pgClampedClear 0x05 63 runB none) (base.setReg (regKey 0x05 63 0x30) 7) (fun t => t.reg (regKey 0x05 63 0x30) == 0) ∧
      ok (.pgQuiesce 0x03 1023 3) base (fun t => t.reg (regKey 0x03 1023 0x10) == 3) ∧
      ok (.pgResume 0x03 1023) (base.setReg (regKey 0x03 1023 0x10) 3) (fun t => t.reg (regKey 0x03 1023 0x10) == 2) ∧
      ok (.registerWrite (regAddr 0x17 5 0x40) 1 (.hart 0) []) base (fun t => (t.ctx 5).st == .armed) ∧
      ok (.rcRead (regAddr 0x15 0 0x88) 2 (.hart 0)) (base.wr F.TID_STEPS_COUNT 0 0 4) (fun t => t.rd F.TID_STEPS_COUNT == 2) ∧
      ok (.pciRetrain 1) base (fun t => t.rd F.PCI_RECOVERY_COUNT 1 == 1) ∧ ok (.pciHotReset 1) hostS (fun t => t.out == []) ∧
      base.pins.attached = false ∧ ok (.pciHotReset 1) base (fun t => t.out == [.hotReset 1]) ∧
      base.rd F.PCI_STATUS_LINK_UP 1 = 0 ∧
      ok (.pcieLinkChange 1 true 7 31 true 2 1) base (fun t => t.rd F.PCI_UE_COUNT 1 == 1 && t.rd F.PCI_STATUS_WIDTH 1 == 31 && t.rd F.PCI_STATUS_SPEED 1 == 7) ∧
      ok (.mctpMessage 0 0 (0x60 + base.pins.smbAddr)) base (fun t => t.out.length == 1) ∧
      ok (.mctpMessage 0 0 0x5F) base (fun t => t.out == []) := by decide +kernel

end Sys2Proof.Tests
end

/-! The mesh hop: the direction of the next hop in dimension order, the hop an open edge lets pass, and what the charge of
a hop leaves unchanged (R25, R26, R169 to R171). -/

namespace Sys2Proof.Machine

/-! ### The direction of the next hop (R25, R26) -/

/-- R26: each coordinate of the hub node is the nearer of 3 and 4 to the sender's. -/
theorem packetTarget_eq (p : Packet) : packetTarget p =
    if isHub p.dest = true ∧ p.vc = 1 then
      8 * (if p.src / 8 ≤ 3 then 3 else 4) + (if p.src % 8 ≤ 3 then 3 else 4) else p.dest := by
  simp [packetTarget, hubEntry, nearHub]

theorem nextDir_self (yFirst : Bool) (m : Nat) : nextDir yFirst m m = none := by
  cases yFirst <;> simp [nextDir, dirX, dirY]

/-- The X-first direction from a node other than the target never leaves the mesh: the coordinate that differs bounds the
node away from the boundary it faces. -/
theorem nextDir_xFirst {node m d n : Nat} (hnode : node < 64) (hm : m < 64) (hne : node ≠ m)
    (hd : (d, n) = (if node % 8 < m % 8 then (1, node + 1) else if m % 8 < node % 8 then (3, node - 1)
      else if node / 8 < m / 8 then (2, node + 8) else (0, node - 8))) :
    nextDir false node m = some d ∧ neighbour node d = some n := by
  split at hd
  next hE =>
    obtain ⟨rfl, rfl⟩ := Prod.mk.inj hd
    have hx : node % 8 ≠ 7 := by omega
    simp [nextDir, dirX, neighbour, hE, hx]
  next hE =>
  split at hd
  next hW =>
    obtain ⟨rfl, rfl⟩ := Prod.mk.inj hd
    have hx : node % 8 ≠ 0 := by omega
    simp [nextDir, dirX, neighbour, hE, hW, hx]
  next hW =>
  split at hd
  next hS =>
    obtain ⟨rfl, rfl⟩ := Prod.mk.inj hd
    have hy : ¬ 56 ≤ node := by omega
    simp [nextDir, dirX, dirY, neighbour, hE, hW, hS, hy]
  next hS =>
    obtain ⟨rfl, rfl⟩ := Prod.mk.inj hd
    have hN : m / 8 < node / 8 := by omega
    have hy : ¬ node < 8 := by omega
    simp [nextDir, dirX, dirY, neighbour, hE, hW, hS, hN, hy]

theorem routeDir_of_nextDir_none {s : State} {node : Nat} {p : Packet}
    (h : nextDir (p.escape && s.escapeYFirst) node (packetTarget p) = none) : s.routeDir node p = none := by
  simp [State.routeDir, h]

/-- An edge that is not FAILED is taken, on the lane the packet is on. -/
theorem routeDir_of_edge_not_failed {s : State} {node d : Nat} {p : Packet}
    (h : nextDir (p.escape && s.escapeYFirst) node (packetTarget p) = some d) (hopen : s.edgeState node d ≠ 2) :
    s.routeDir node p = some (d, p.escape) := by
  simp [State.routeDir, h, hopen]

/-! ### The hop -/

theorem exec_meshHop {s : State} (hold : s.hold = none) (node : Nat) (p : Packet) (crcOk : Bool) :
    exec (.meshHop node p crcOk) s = .next (s.meshHop node p crcOk) := by
  change s.act _ = _
  simp [State.act, hold]

theorem meshHop_of_routeDir_none {s : State} {node : Nat} {p : Packet} {crcOk : Bool} (h : s.routeDir node p = none) :
    s.meshHop node p crcOk = s.placePacket node p p := by
  simp [State.meshHop, h]

/-- A flit with a good CRC passes an edge that neither failed nor steers, if its class is not held: its request flits are
charged and it stands at the neighbour. -/
theorem meshHop_passes {s : State} {node n d : Nat} {p : Packet} {esc : Bool} (hroute : s.routeDir node p = some (d, esc))
    (hn : neighbour node d = some n) (hopen : s.edgeState node d ≠ 2) (hsteer : (s.edge (n * 4 + opposite d)).steering = false)
    (htoll : s.tollHeld (s.classOf p.ctx) 3 node = false) :
    s.meshHop node p true =
      (if packetCharged p node then s.charge (s.classOf p.ctx) 3 node (1 + p.len) else s).placePacket n p
        { p with escape := esc } := by
  simp [State.meshHop, hroute, hn, hopen, hsteer, htoll]

/-! ### What the charge of a hop leaves unchanged (R170, R171) -/

theorem reg_ite {c : Prop} [Decidable c] {t u : State} {k : Nat} {w : Word} (ht : t.reg k = w) (hu : u.reg k = w) :
    (if c then t else u).reg k = w := by
  split
  · exact ht
  · exact hu

theorem markHeld_reg_ne (s : State) (cls res k : Nat) (hres : k ≠ F.TOL_HELD_RESOURCES.key cls 0)
    (hxings : k ≠ F.TOL_HELD_XINGS_COUNT.key cls 0) (hev : k ≠ evKey 0x16 cls) : (s.markHeld cls res).reg k = s.reg k := by
  have hmark := wr_reg_ne s F.TOL_HELD_RESOURCES cls 0 (maskOf (setBitsOf (s.rd F.TOL_HELD_RESOURCES cls) 7 ++ [res])) hres
  unfold State.markHeld
  refine reg_ite ?_ hmark
  rw [event_reg_ne _ _ _ _ _ hev, bump_reg_ne _ _ _ _ _ _ hxings hev]
  exact hmark

theorem charge_reg_ne (s : State) (cls res inst n k : Nat) (hres : k ≠ F.TOL_HELD_RESOURCES.key cls 0)
    (hxings : k ≠ F.TOL_HELD_XINGS_COUNT.key cls 0) (hev : k ≠ evKey 0x16 cls) : (s.charge cls res inst n).reg k = s.reg k := by
  unfold State.charge
  exact reg_ite (markHeld_reg_ne _ cls res k hres hxings hev) rfl

theorem charge_regsBut (s : State) (cls res inst n : Nat) :
    s.regsBut (s.charge cls res inst n) [F.TOL_HELD_RESOURCES.key cls 0, F.TOL_HELD_XINGS_COUNT.key cls 0, evKey 0x16 cls] := by
  intro k hk
  simp only [List.mem_cons, List.not_mem_nil, or_false, not_or] at hk
  obtain ⟨hres, hxings, hev⟩ := hk
  exact charge_reg_ne s cls res inst n k hres hxings hev

/-! ### A packet placed after a charge -/

theorem net_of_charged {s t : State} (h : s.chargedTo t) : t.net = s.net := by
  unfold State.chargedTo at h
  rw [h]

theorem placePacket_net_of_charged {s t : State} (h : s.chargedTo t) (n : Nat) (p q : Packet) :
    (t.placePacket n p q).net = (s.takePacket p).net ++ [(n, q)] := by
  simp [State.placePacket, State.takePacket, net_of_charged h]

theorem placePacket_onlyCharged {s t : State} {cls : Nat} (h : s.chargedTo t)
    (hregs : s.regsBut t [F.TOL_HELD_RESOURCES.key cls 0, F.TOL_HELD_XINGS_COUNT.key cls 0, evKey 0x16 cls]) (n : Nat) (p q : Packet) :
    s.onlyCharged (t.placePacket n p q) cls := by
  unfold State.chargedTo at h
  exact ⟨congrArg (fun u : State => { u with net := (t.placePacket n p q).net }) h, hregs⟩

/-- A hop that passes changes the mesh and the charge of its class alone. -/
theorem meshHop_passes_runs {s : State} {node n d : Nat} {p : Packet} {esc : Bool} (hold : s.hold = none)
    (hroute : s.routeDir node p = some (d, esc)) (hn : neighbour node d = some n) (hopen : s.edgeState node d ≠ 2)
    (hsteer : (s.edge (n * 4 + opposite d)).steering = false) (htoll : s.tollHeld (s.classOf p.ctx) 3 node = false) :
    s.runs (.meshHop node p true) fun t =>
      t.net = (s.takePacket p).net ++ [(n, { p with escape := esc })] ∧ s.onlyCharged t (s.classOf p.ctx) := by
  refine ⟨_, exec_meshHop hold node p true, ?_⟩
  rw [meshHop_passes hroute hn hopen hsteer htoll]
  split
  · have hc := charge_charged s (s.classOf p.ctx) 3 node (1 + p.len)
    exact ⟨placePacket_net_of_charged hc _ _ _, placePacket_onlyCharged hc (charge_regsBut s _ _ _ _) _ _ _⟩
  · have hc := chargedTo_refl s
    exact ⟨placePacket_net_of_charged hc _ _ _, placePacket_onlyCharged hc (fun _ _ => rfl) _ _ _⟩

/-- Settles O5: off the escape lane the next hop is the X-first one, which never leaves the mesh, so the hop passes; at
the target there is no next hop. -/
theorem meshHopMovesXThenY : Obligations.MeshHopMovesXThenY := by
  unfold Obligations.MeshHopMovesXThenY
  intro s node n d m p hold hnode hm hesc htarget
  rw [← packetTarget_eq] at htarget
  have hlane : (p.escape && s.escapeYFirst) = false := by rw [hesc, Bool.false_and]
  constructor
  · intro hne hstep hopen hsteer htoll
    obtain ⟨hdir, hn⟩ := nextDir_xFirst hnode hm hne hstep
    rw [htarget, ← hlane] at hdir
    exact meshHop_passes_runs hold (routeDir_of_edge_not_failed hdir hopen) hn hopen hsteer htoll
  · rintro rfl
    have hdir : nextDir (p.escape && s.escapeYFirst) node (packetTarget p) = none := by rw [← htarget, nextDir_self]
    refine ⟨_, exec_meshHop hold node p true, ?_⟩
    rw [meshHop_of_routeDir_none (routeDir_of_nextDir_none hdir)]
    rfl

end Sys2Proof.Machine

/-! Rounding and requantisation: what each rounding mode returns, that a shift which fits the largest magnitude keeps every
mantissa within Mmax, and the exponent of a requantised block (R52, R53, R64 to R66). -/

namespace Sys2Proof.Machine

/-! ### Shifts that are not to the right -/

theorem rneShift_of_nonpos {s : Int} (v : Int) (hs : s ≤ 0) : rneShift v s = v * 2 ^ (-s).toNat := if_pos hs

theorem srShift_of_nonpos {d : Int} (v : Int) (h : Nat) (hd : d ≤ 0) : srShift v d h = v * 2 ^ (-d).toNat := if_pos hd

/-! ### Rounding to nearest even (R52) -/

/-- R52: the shift divides by 2 ^ s and rounds the quotient up past half of the divisor, and at half if it is odd. -/
theorem rneShift_of_pos (v : Int) {s : Nat} (hs : 0 < s) : rneShift v s =
    if 2 ^ s < 2 * (v % 2 ^ s) ∨ 2 * (v % 2 ^ s) = 2 ^ s ∧ v / 2 ^ s % 2 = 1 then v / 2 ^ s + 1 else v / 2 ^ s := by
  have hp : (2 ^ s : Int) = 2 * 2 ^ (s - 1) := by rw [← pow_succ', Nat.sub_add_cancel hs]
  have hrem : v - v / 2 ^ s * 2 ^ s = v % 2 ^ s := by rw [Int.emod_def, mul_comm]
  have hhalf : (2 ^ s / 2 : Int) = 2 ^ (s - 1) := by omega
  simp only [rneShift, Int.natCast_nonpos_iff, hs.ne', if_false, Int.toNat_natCast, hrem, hhalf]
  exact if_congr (by omega) rfl rfl

/-- The rounding error is at most half of the divisor, and exactly half only where the result is even. -/
theorem rneShift_nearest (v : Int) {s : Nat} (hs : 0 < s) :
    2 * (rneShift v s * 2 ^ s - v) ≤ 2 ^ s ∧ -(2 ^ s : Int) ≤ 2 * (rneShift v s * 2 ^ s - v) ∧
      ((2 * (rneShift v s * 2 ^ s - v)).natAbs = 2 ^ s → rneShift v s % 2 = 0) := by
  have hdiv := Int.emod_add_mul_ediv v (2 ^ s)
  have hlo : 0 ≤ v % 2 ^ s := Int.emod_nonneg v (by positivity)
  have hhi : v % 2 ^ s < 2 ^ s := Int.emod_lt_of_pos v (by positivity)
  have htie (x : Int) : x.natAbs = 2 ^ s ↔ x = 2 ^ s ∨ x = -2 ^ s := by
    rw [← Int.natAbs_eq_natAbs_iff, Int.natAbs_pow]; rfl
  rw [rneShift_of_pos v hs, htie]
  split
  next hup =>
    have herr : (v / 2 ^ s + 1) * 2 ^ s - v = 2 ^ s - v % 2 ^ s := by linarith
    rw [herr]
    omega
  next hdown =>
    have herr : v / 2 ^ s * 2 ^ s - v = -(v % 2 ^ s) := by linarith
    rw [herr]
    omega

/-- R52: the divisor is more than twice the value, so the nearest multiple is zero. -/
theorem rneShift_eq_zero {v : Int} {s : Nat} (hs : 49 ≤ s) (hv : v.natAbs < 2 ^ 47) : rneShift v s = 0 := by
  have hp : (2 ^ 49 : Int) ≤ 2 ^ s := pow_le_pow_right₀ (by decide) hs
  obtain ⟨hle, hge, -⟩ := rneShift_nearest v (by omega : 0 < s)
  have hlt : rneShift v s * 2 ^ s < 1 * 2 ^ s := by omega
  have hgt : -1 * 2 ^ s < rneShift v s * 2 ^ s := by omega
  have hlt1 := lt_of_mul_lt_mul_right hlt (by positivity)
  have hgt1 := lt_of_mul_lt_mul_right hgt (by positivity)
  omega

theorem roundingIsToNearestEven : Claims.RoundingIsToNearestEven := by
  intro v
  refine ⟨fun s hs => rneShift_nearest v hs, fun n => ?_, fun s hs hv => rneShift_eq_zero hs hv⟩
  rw [rneShift_of_nonpos v (by omega), neg_neg, Int.toNat_natCast]

/-! ### What both rounding modes share (R65) -/

/-- `r` is v × 2 ^ −d within less than one unit, the two sides multiplied out: for d ≤ 0 it is the exact left shift. -/
def RoundedTo (d v r : Int) : Prop := |r * 2 ^ d.toNat - v * 2 ^ (-d).toNat| < 2 ^ d.toNat

theorem roundedTo_exact {d : Int} (v : Int) (hd : d ≤ 0) : RoundedTo d v (v * 2 ^ (-d).toNat) := by
  simp [RoundedTo, Int.toNat_of_nonpos hd]

theorem roundedTo_natCast {s : Nat} {v r : Int} : RoundedTo s v r ↔ |r * 2 ^ s - v| < 2 ^ s := by
  simp [RoundedTo]

theorem rneShift_rounded (v d : Int) : RoundedTo d v (rneShift v d) := by
  rcases le_or_gt d 0 with hd | hd
  · rw [rneShift_of_nonpos v hd]
    exact roundedTo_exact v hd
  · lift d to Nat using hd.le
    obtain ⟨hle, hge, -⟩ := rneShift_nearest v (by omega : 0 < d)
    have hp : (0 : Int) < 2 ^ d := by positivity
    rw [roundedTo_natCast, abs_lt]
    omega

/-- R53: for d above 0 the shift adds a random value of d bits and truncates toward minus infinity. -/
theorem srShift_of_pos (v : Int) {s h : Nat} (hs : 0 < s) (hh : h < 2 ^ 64) :
    ∃ r : Nat, r < 2 ^ s ∧ srShift v s h = (v + r) / 2 ^ s := by
  refine ⟨if s ≤ 64 then h % 2 ^ s else h * 2 ^ (s - 64), ?_, ?_⟩
  · split
    · exact Nat.mod_lt h (by positivity)
    · calc h * 2 ^ (s - 64) < 2 ^ 64 * 2 ^ (s - 64) := Nat.mul_lt_mul_of_pos_right hh (by positivity)
        _ = 2 ^ s := by rw [← pow_add]; congr 1; omega
  · have h64 : (s : Int) ≤ 64 ↔ s ≤ 64 := by omega
    simp only [srShift, Int.natCast_nonpos_iff, hs.ne', if_false, Int.toNat_natCast, h64]

theorem srShift_rounded (v d : Int) {h : Nat} (hh : h < 2 ^ 64) : RoundedTo d v (srShift v d h) := by
  rcases le_or_gt d 0 with hd | hd
  · rw [srShift_of_nonpos v h hd]
    exact roundedTo_exact v hd
  · lift d to Nat using hd.le
    obtain ⟨r, hr, heq⟩ := srShift_of_pos v (by omega : 0 < d) hh
    have hr' : (r : Int) < 2 ^ d := by exact_mod_cast hr
    have hp : (0 : Int) < 2 ^ d := by positivity
    have hdiv := Int.emod_add_ediv_mul (v + r) (2 ^ d)
    have hlo : 0 ≤ (v + r) % 2 ^ d := Int.emod_nonneg _ hp.ne'
    have hhi : (v + r) % 2 ^ d < 2 ^ d := Int.emod_lt_of_pos _ hp
    rw [roundedTo_natCast, heq, abs_lt]
    omega

/-- A bound on the exact quotient holds of the rounded one, for the bound is an integer. -/
theorem RoundedTo.natAbs_le {d v r : Int} {m : Nat} (hr : RoundedTo d v r)
    (hv : v.natAbs * 2 ^ (-d).toNat ≤ m * 2 ^ d.toNat) : r.natAbs ≤ m := by
  have hv' : |v * 2 ^ (-d).toNat| ≤ m * 2 ^ d.toNat := by
    rw [abs_mul, abs_of_pos (by positivity : (0 : Int) < 2 ^ (-d).toNat), Int.abs_eq_natAbs]
    exact_mod_cast hv
  have hlt : |r| * 2 ^ d.toNat < (m + 1) * 2 ^ d.toNat :=
    calc |r| * 2 ^ d.toNat = |r * 2 ^ d.toNat| := by rw [abs_mul, abs_of_pos (by positivity : (0 : Int) < 2 ^ d.toNat)]
      _ ≤ |r * 2 ^ d.toNat - v * 2 ^ (-d).toNat| + |v * 2 ^ (-d).toNat| := by
          simpa using abs_add_le (r * 2 ^ d.toNat - v * 2 ^ (-d).toNat) (v * 2 ^ (-d).toNat)
      _ < 2 ^ d.toNat + m * 2 ^ d.toNat := add_lt_add_of_lt_of_le hr hv'
      _ = (m + 1) * 2 ^ d.toNat := by ring
  have hr' := lt_of_mul_lt_mul_right hlt (by positivity)
  rw [Int.abs_eq_natAbs] at hr'
  omega

/-- A quotient of magnitude 1 or more does not round to zero. -/
theorem RoundedTo.ne_zero {d v r : Int} (hr : RoundedTo d v r) (hv : 2 ^ d.toNat ≤ v.natAbs * 2 ^ (-d).toNat) : r ≠ 0 := by
  rintro rfl
  have hlt : (v * 2 ^ (-d).toNat).natAbs < 2 ^ d.toNat := by
    have := hr
    rw [RoundedTo, zero_mul, zero_sub, abs_neg, Int.abs_eq_natAbs] at this
    exact_mod_cast this
  rw [Int.natAbs_mul, Int.natAbs_pow] at hlt
  exact absurd hv hlt.not_ge

/-! ### The largest magnitude and the shift that fits it (R64) -/

theorem mmax_ge_two (fmt : Nat) : 2 ≤ mmax fmt := by
  unfold mmax
  split <;> decide

theorem maxAbs_le_iff (vs : List Int) (n : Nat) : maxAbs vs ≤ n ↔ ∀ v ∈ vs, v.natAbs ≤ n := by
  suffices h : ∀ a : Nat, vs.foldl (fun m v => max m v.natAbs) a ≤ n ↔ a ≤ n ∧ ∀ v ∈ vs, v.natAbs ≤ n by
    simpa [maxAbs] using h 0
  induction vs with
  | nil => simp
  | cons v vs ih => intro a; simp [ih, and_assoc]

theorem natAbs_le_maxAbs {vs : List Int} {v : Int} (hv : v ∈ vs) : v.natAbs ≤ maxAbs vs :=
  (maxAbs_le_iff vs _).1 le_rfl v hv

theorem exists_maxAbs_le {vs : List Int} (h : maxAbs vs ≠ 0) : ∃ v ∈ vs, maxAbs vs ≤ v.natAbs := by
  by_contra hall
  push Not at hall
  have := (maxAbs_le_iff vs (maxAbs vs - 1)).2 fun v hv => Nat.le_sub_one_of_lt (hall v hv)
  omega

theorem fits_iff {mx m : Nat} {d : Int} : fits mx m d = true ↔ mx * 2 ^ (-d).toNat ≤ m * 2 ^ d.toNat := by
  unfold fits
  split
  next hd => simp [Int.toNat_of_nonpos hd.le]
  next hd => simp [Int.toNat_of_nonpos (by omega : -d ≤ 0)]

/-- A larger shift of a smaller magnitude fits as well. -/
theorem fits_mono {mx mx' m : Nat} {d d' : Int} (hmx : mx' ≤ mx) (hd : d ≤ d') (h : fits mx m d = true) :
    fits mx' m d' = true := by
  rw [fits_iff] at h ⊢
  calc mx' * 2 ^ (-d').toNat ≤ mx * 2 ^ (-d).toNat :=
        Nat.mul_le_mul hmx (Nat.pow_le_pow_right (by decide) (by omega))
    _ ≤ m * 2 ^ d.toNat := h
    _ ≤ m * 2 ^ d'.toNat := Nat.mul_le_mul_left m (Nat.pow_le_pow_right (by decide) (by omega))

/-- One bit above the difference of the binary logarithms always fits. -/
theorem fits_log2_sub_succ (mx : Nat) {m : Nat} (hm : m ≠ 0) : fits mx m ((Nat.log2 mx : Int) - Nat.log2 m + 1) = true := by
  rw [fits_iff]
  generalize hd : (Nat.log2 mx : Int) - Nat.log2 m + 1 = d
  calc mx * 2 ^ (-d).toNat ≤ 2 ^ (Nat.log2 mx + 1) * 2 ^ (-d).toNat := Nat.mul_le_mul_right _ Nat.lt_log2_self.le
    _ = 2 ^ Nat.log2 m * 2 ^ d.toNat := by rw [← pow_add, ← pow_add]; congr 1; omega
    _ ≤ m * 2 ^ d.toNat := Nat.mul_le_mul_right _ (Nat.log2_self_le hm)

theorem requantShift_eq (mx m : Nat) : requantShift mx m =
    if fits mx m ((Nat.log2 mx : Int) - Nat.log2 m) = true then (Nat.log2 mx : Int) - Nat.log2 m
    else (Nat.log2 mx : Int) - Nat.log2 m + 1 := rfl

theorem fits_requantShift (mx : Nat) {m : Nat} (hm : m ≠ 0) : fits mx m (requantShift mx m) = true := by
  rw [requantShift_eq]
  split
  next hfits => exact hfits
  next => exact fits_log2_sub_succ mx hm

theorem requantShift_le_log2 (mx : Nat) {m : Nat} (hm : 2 ≤ m) : requantShift mx m ≤ Nat.log2 mx := by
  have hlog : 1 ≤ Nat.log2 m := (Nat.le_log2 (by omega)).2 hm
  rw [requantShift_eq]
  split <;> omega

/-- The shift of R64 leaves the largest value a magnitude of 1 or more. -/
theorem two_pow_requantShift_le {mx m : Nat} (hmx : mx ≠ 0) (hm : 2 ≤ m) :
    2 ^ (requantShift mx m).toNat ≤ mx * 2 ^ (-(requantShift mx m)).toNat := by
  have hle := requantShift_le_log2 mx hm
  calc 2 ^ (requantShift mx m).toNat ≤ 2 ^ Nat.log2 mx := Nat.pow_le_pow_right (by decide) (by omega)
    _ ≤ mx := Nat.log2_self_le hmx
    _ ≤ mx * 2 ^ (-(requantShift mx m)).toNat := Nat.le_mul_of_pos_right _ (by positivity)

/-! ### The requantised block (R64 to R66) -/

/-- A mode with its hash outputs, all of 64 bits: `none` rounds to nearest even, `some f` is stochastic. -/
def HashFits (h : Option (Nat → Nat)) : Prop := ∀ f ∈ h, ∀ i : Nat, f i < 2 ^ 64

theorem hashFits_none : HashFits none := by simp [HashFits]

theorem hashFits_some {f : Nat → Nat} (hf : ∀ i : Nat, f i < 2 ^ 64) : HashFits (some f) := by simpa [HashFits] using hf

/-- Element `iv.1` of value `iv.2`, shifted by d in the mode `h`. -/
def roundElem (h : Option (Nat → Nat)) (d : Int) (iv : Nat × Int) : Int :=
  match h with
  | some f => srShift iv.2 d (f iv.1)
  | none => rneShift iv.2 d

theorem roundElem_rounded {h : Option (Nat → Nat)} (hh : HashFits h) (d : Int) (iv : Nat × Int) :
    RoundedTo d iv.2 (roundElem h d iv) := by
  cases h with
  | none => exact rneShift_rounded iv.2 d
  | some f => exact srShift_rounded iv.2 d (hh f rfl iv.1)

/-- The mantissas of a block whose elements are shifted by d. -/
def roundBlock (vs : List Int) (h : Option (Nat → Nat)) (d : Int) : List Int :=
  ((List.range vs.length).zip vs).map (roundElem h d)

theorem exists_rounded_of_mem {vs : List Int} {h : Option (Nat → Nat)} (hh : HashFits h) {d x : Int}
    (hx : x ∈ roundBlock vs h d) : ∃ v ∈ vs, RoundedTo d v x := by
  obtain ⟨⟨i, v⟩, hiv, rfl⟩ := List.mem_map.1 hx
  exact ⟨v, (List.of_mem_zip hiv).2, roundElem_rounded hh d (i, v)⟩

theorem exists_mem_of_value {vs : List Int} {h : Option (Nat → Nat)} (hh : HashFits h) (d : Int) {v : Int}
    (hv : v ∈ vs) : ∃ x ∈ roundBlock vs h d, RoundedTo d v x := by
  obtain ⟨i, hi, rfl⟩ := List.mem_iff_getElem.1 hv
  have hmem : (i, vs[i]) ∈ (List.range vs.length).zip vs :=
    List.mem_iff_getElem.2 ⟨i, by simpa using hi, by simp⟩
  exact ⟨_, List.mem_map_of_mem hmem, roundElem_rounded hh d (i, vs[i])⟩

/-- Every mantissa is within Mmax where the shift fits the largest magnitude. -/
theorem natAbs_le_of_fits {vs : List Int} {h : Option (Nat → Nat)} {m : Nat} {d x : Int} (hh : HashFits h)
    (hfits : fits (maxAbs vs) m d = true) (hx : x ∈ roundBlock vs h d) : x.natAbs ≤ m := by
  obtain ⟨v, hv, hround⟩ := exists_rounded_of_mem hh hx
  exact hround.natAbs_le (fits_iff.1 (fits_mono (natAbs_le_maxAbs hv) le_rfl hfits))

/-- At the shift of R64 the mantissa of the largest value is not zero, in either mode. -/
theorem roundBlock_not_all_zero {vs : List Int} {h : Option (Nat → Nat)} {m : Nat} (hh : HashFits h)
    (hmx : maxAbs vs ≠ 0) (hm : 2 ≤ m) : (roundBlock vs h (requantShift (maxAbs vs) m)).all (· == 0) = false := by
  obtain ⟨v, hv, hmax⟩ := exists_maxAbs_le hmx
  obtain ⟨x, hx, hround⟩ := exists_mem_of_value hh (requantShift (maxAbs vs) m) hv
  have hne : x ≠ 0 := hround.ne_zero ((two_pow_requantShift_le hmx hm).trans (Nat.mul_le_mul_right _ hmax))
  exact List.all_eq_false.2 ⟨x, hx, by simpa using hne⟩

theorem requantBlock_of_zero {vs : List Int} (t : Int) (fmt : Nat) (h : Option (Nat → Nat)) (hmx : maxAbs vs = 0) :
    requantBlock vs t fmt h = (⟨-127, vs.map fun _ => 0⟩, 0) := if_pos hmx

theorem requantBlock_of_overflow {vs : List Int} {t : Int} {fmt : Nat} (h : Option (Nat → Nat)) (hmx : maxAbs vs ≠ 0)
    (hover : 127 < t + requantShift (maxAbs vs) (mmax fmt)) : requantBlock vs t fmt h =
      (⟨127, vs.map fun v => if 0 < v then (mmax fmt : Int) else if v < 0 then -(mmax fmt : Int) else 0⟩, 1) := by
  simp [requantBlock, hmx, hover]

/-- R66: the shift of R64, raised to −127 − T. -/
theorem requantBlock_of_rounded {vs : List Int} {t d : Int} {fmt : Nat} (h : Option (Nat → Nat)) (hmx : maxAbs vs ≠ 0)
    (hover : t + requantShift (maxAbs vs) (mmax fmt) ≤ 127) (hd : d = max (requantShift (maxAbs vs) (mmax fmt)) (-127 - t)) :
    requantBlock vs t fmt h =
      (⟨if (roundBlock vs h d).all (· == 0) then -127 else t + d, roundBlock vs h d⟩, 0) := by
  have hraise : (if t + requantShift (maxAbs vs) (mmax fmt) < -127 then -127 - t
      else requantShift (maxAbs vs) (mmax fmt)) = d := by
    split <;> omega
  cases h <;> simp only [requantBlock, hmx, if_false, not_lt.2 hover, hraise] <;> rfl

/-- R65: no mantissa goes beyond Mmax in either mode. -/
theorem requantBlock_mantissa_le (vs : List Int) (t : Int) (fmt : Nat) {h : Option (Nat → Nat)} (hh : HashFits h) :
    ∀ x ∈ (requantBlock vs t fmt h).1.m, x.natAbs ≤ mmax fmt := by
  intro x hx
  by_cases hmx : maxAbs vs = 0
  · rw [requantBlock_of_zero t fmt h hmx] at hx
    obtain ⟨v, -, rfl⟩ := List.mem_map.1 hx
    simp
  rcases lt_or_ge 127 (t + requantShift (maxAbs vs) (mmax fmt)) with hover | hover
  · rw [requantBlock_of_overflow h hmx hover] at hx
    obtain ⟨v, -, rfl⟩ := List.mem_map.1 hx
    split_ifs <;> simp
  · rw [requantBlock_of_rounded h hmx hover rfl] at hx
    have hm : mmax fmt ≠ 0 := by have := mmax_ge_two fmt; omega
    exact natAbs_le_of_fits hh (fits_mono le_rfl (le_max_left _ _) (fits_requantShift _ hm)) hx

/-- R65, R66: the exponent is T + d brought into −127 to 127, and no mode or hash bit takes part in it. -/
theorem requantBlock_exponent (vs : List Int) (t : Int) (fmt : Nat) {h : Option (Nat → Nat)} (hh : HashFits h) :
    (requantBlock vs t fmt h).1.e =
      if maxAbs vs = 0 then -127 else min 127 (max (-127) (t + requantShift (maxAbs vs) (mmax fmt))) := by
  split
  next hmx => rw [requantBlock_of_zero t fmt h hmx]
  next hmx =>
  rcases lt_or_ge 127 (t + requantShift (maxAbs vs) (mmax fmt)) with hover | hover
  · rw [requantBlock_of_overflow h hmx hover]
    dsimp only
    omega
  rw [requantBlock_of_rounded h hmx hover rfl]
  rcases le_total (-127 - t) (requantShift (maxAbs vs) (mmax fmt)) with hd | hd
  · rw [max_eq_left hd, roundBlock_not_all_zero hh hmx (mmax_ge_two fmt)]
    dsimp only
    rw [if_neg Bool.false_ne_true]
    omega
  · rw [max_eq_right hd]
    dsimp only
    split <;> omega

theorem requantisedMantissasFit : Claims.RequantisedMantissasFit := by
  intro vs t fmt f _ hf
  have hs := hashFits_some hf
  refine ⟨requantBlock_mantissa_le vs t fmt hashFits_none, requantBlock_mantissa_le vs t fmt hs, ?_⟩
  rw [requantBlock_exponent vs t fmt hs, requantBlock_exponent vs t fmt hashFits_none]

/-- Settles O20: the nearest-even error bound, and for both modes that a rounded quotient neighbours the exact one, so a
shift that fits the largest value bounds every mantissa and never rounds that value to zero. -/
theorem requantisationRounds : Obligations.RequantisationRounds :=
  ⟨roundingIsToNearestEven, requantisedMantissasFit⟩

end Sys2Proof.Machine

/-! Window steps and host writes of HEAD64: a step that changes one register, the write that the clamps leave as it is, and
the event of a step that the write discards (R93, R94). -/

namespace Sys2Proof.Machine

/-! ### Steps (R93) -/

theorem setBitsOf_two_pow : ∀ w : Nat, w < 8 → setBitsOf (2 ^ w) 8 = [w] := by decide

theorem act_of_hold_none {s : State} (hold : s.hold = none) (t : State) : s.act t = .next t :=
  ((act_cases s t).resolve_right fun h => h.1 hold).2

theorem exec_winStep_two_pow {s : State} {w : Nat} (hold : s.hold = none) (c : Nat) (hw : w < 8) :
    exec (.winStep c (2 ^ w)) s = .next (s.stepWin c w) := by
  change s.act (s.stepWins c (2 ^ w)) = _
  rw [act_of_hold_none hold, State.stepWins, setBitsOf_two_pow w hw, List.foldl_cons, List.foldl_nil]

theorem rd_winLen_lt (s : State) (c w : Nat) : s.rd F.WIN_LEN_LEN64 c w < 2 ^ 19 := rd_lt s F.WIN_LEN_LEN64 c w

/-- HEAD64 has the width of LEN64, so it holds every head below it. -/
theorem rd_wr_winHead (s : State) {c w n : Nat} (hn : n < s.rd F.WIN_LEN_LEN64 c w) :
    (s.wr F.WIN_HEAD_HEAD64 c w n).rd F.WIN_HEAD_HEAD64 c w = n :=
  (rd_wr_self s _ _ _ _ (by decide)).trans (Nat.mod_eq_of_lt (hn.trans (rd_winLen_lt s c w)))

theorem stepWin_head (s : State) {c w : Nat} (hlen : 0 < s.rd F.WIN_LEN_LEN64 c w) :
    ((s.stepWin c w).rd F.WIN_HEAD_HEAD64 c w : Int) =
      ((s.rd F.WIN_HEAD_HEAD64 c w : Int) + signed 19 (s.rd F.WIN_STRIDE_STRIDE64 c w)) % (s.rd F.WIN_LEN_LEN64 c w : Int) := by
  have hpos : (0 : Int) < s.rd F.WIN_LEN_LEN64 c w := by omega
  rw [State.stepWin]
  generalize (s.rd F.WIN_HEAD_HEAD64 c w : Int) + signed 19 (s.rd F.WIN_STRIDE_STRIDE64 c w) = h
  have hlo := Int.emod_nonneg h hpos.ne'
  have hhi := Int.emod_lt_of_pos h hpos
  rw [rd_wr_winHead s (by omega), Int.toNat_of_nonneg hlo]

theorem stepWin_regsBut (s : State) (c w : Nat) : s.regsBut (s.stepWin c w) [F.WIN_HEAD_HEAD64.key c w] :=
  fun _ hk => wr_reg_ne s _ _ _ _ (by simpa using hk)

/-! ### Host writes of WIN_HEAD (R94, R111) -/

theorem setBits_bits (v : Word) (lo width : Nat) : setBits v lo width (bits v lo width) = v := by
  have hle : v.toNat / 2 ^ lo % 2 ^ width * 2 ^ lo ≤ v.toNat :=
    (Nat.mul_le_mul_right _ (Nat.mod_le _ _)).trans (Nat.div_mul_le_self _ _)
  simp only [setBits, bits, Nat.mod_mod, Nat.sub_add_cancel hle, BitVec.ofNat_toNat, BitVec.setWidth_eq]

theorem clampTo_of_mem {v : Word} {f : FieldRef} {lo hi : Nat} (hlo : lo ≤ fld v f) (hhi : fld v f ≤ hi) :
    clampTo v f lo hi = v := by
  rw [clampTo, clampNat, if_neg hlo.not_gt, if_neg hhi.not_gt]
  exact setBits_bits v f.lo f.width

theorem RegDef.index_of_misaligned {r : RegDef} {inst off : Nat} (hstride : r.stride ≠ 0)
    (hoff : (off - r.off) % r.stride ≠ 0) : r.index inst off = none := by
  simp [RegDef.index, hstride, hoff]

theorem RegDef.index_of_repetition {r : RegDef} {inst i : Nat} (hlo : r.instLo ≤ inst) (hhi : inst ≤ r.instHi)
    (hstride : 0 < r.stride) (hi : i < r.count) : r.index inst (r.off + r.stride * i) = some i := by
  simp [RegDef.index, hlo.not_gt, hhi.not_gt, hstride.ne', Nat.mul_div_cancel_left i hstride, hi]

/-- Registers of a WIN page repeat every 32 bytes, each at an offset of its own within them. -/
theorem findReg_winHead {c w : Nat} (hc : c < 1024) (hw : w < 8) :
    findReg 0x01 c (0x58 + 0x20 * w) = some (R.WIN_HEAD, w) := by
  have hbase : R.WIN_BASE.index c (0x58 + 0x20 * w) = none :=
    RegDef.index_of_misaligned (by decide) (by change (0x58 + 0x20 * w - 0x40) % 0x20 ≠ 0; omega)
  have hlen : R.WIN_LEN.index c (0x58 + 0x20 * w) = none :=
    RegDef.index_of_misaligned (by decide) (by change (0x58 + 0x20 * w - 0x48) % 0x20 ≠ 0; omega)
  have hstride : R.WIN_STRIDE.index c (0x58 + 0x20 * w) = none :=
    RegDef.index_of_misaligned (by decide) (by change (0x58 + 0x20 * w - 0x50) % 0x20 ≠ 0; omega)
  have hhead : R.WIN_HEAD.index c (0x58 + 0x20 * w) = some w :=
    RegDef.index_of_repetition (Nat.zero_le c) (Nat.le_of_lt_succ hc) (by decide) hw
  simp [findReg, regsOf, regsWIN, hbase, hlen, hstride, hhead]

theorem clampWord_winHead (s : State) (c w : Nat) (v : Word) :
    s.clampWord 0x01 c (0x58 + 0x20 * w) w R.WIN_HEAD v =
      clampTo v F.WIN_HEAD_HEAD64 0 (s.rd F.WIN_LEN_LEN64 c w - 1) := by
  have hbase : ¬ 0x58 + 0x20 * w = 0x40 + 0x20 * w := by omega
  have hlen : ¬ 0x58 + 0x20 * w = 0x48 + 0x20 * w := by omega
  have hstride : ¬ 0x58 + 0x20 * w = 0x50 + 0x20 * w := by omega
  change s.clampDeps 0x01 c (0x58 + 0x20 * w) w v = _
  simp only [State.clampDeps, hbase, hlen, hstride, if_false, if_true]

/-- A host write below LEN64 is not clamped: HEAD64 takes its value. -/
theorem writeField_winHead (s : State) {c w : Nat} {v : Word} (hc : c < 1024) (hw : w < 8)
    (hv : v.toNat < s.rd F.WIN_LEN_LEN64 c w) :
    s.writeField 0x01 c (0x58 + 0x20 * w) v = s.wr F.WIN_HEAD_HEAD64 c w v.toNat := by
  have hfld : fld v F.WIN_HEAD_HEAD64 = v.toNat := by
    simp only [fld, bits, F.WIN_HEAD_HEAD64, pow_zero, Nat.div_one]
    exact Nat.mod_eq_of_lt (hv.trans (rd_winLen_lt s c w))
  have hclamp : s.clampWord 0x01 c (0x58 + 0x20 * w) w R.WIN_HEAD v = v := by
    rw [clampWord_winHead]
    exact clampTo_of_mem (Nat.zero_le _) (by omega)
  simp only [State.writeField, findReg_winHead hc hw, hclamp, if_true]
  rw [← hfld]
  rfl

theorem exec_winHeadWrite {s : State} {w : Nat} (hold : s.hold = none) (c : Nat) (hw : w < 8) (v : Word) (stepSame : Bool) :
    exec (.winHeadWrite c w v stepSame) s = .next (s.headWrite c w v stepSame) := by
  change s.act (if w < 8 then s.headWrite c w v stepSame else s) = _
  rw [act_of_hold_none hold, if_pos hw]

/-- In the clock of a step the step is discarded: the write is made and STEP_LOST raised, nothing else. -/
theorem headWrite_of_step (s : State) {c w : Nat} {v : Word} (hc : c < 1024) (hw : w < 8)
    (hv : v.toNat < s.rd F.WIN_LEN_LEN64 c w) :
    s.headWrite c w v true = (s.wr F.WIN_HEAD_HEAD64 c w v.toNat).event 0x01 c 0 := by
  rw [State.headWrite, writeField_winHead s hc hw hv, if_pos rfl]

theorem event_hasEvent (s : State) (block inst : Nat) {i : Nat} (hi : i < 64) : (s.event block inst i).hasEvent block inst i := by
  rw [State.hasEvent, evKey, event_reg_self, bits_setBits_self _ _ _ _ (by omega), pow_one]

theorem winHead_key_ne_event (c w : Nat) : F.WIN_HEAD_HEAD64.key c w ≠ regKey 0x01 c 0x20 := by
  simp only [FieldRef.key, regKey, F.WIN_HEAD_HEAD64]
  omega

/-- Settles O26: a step writes HEAD64 alone, and a write in its clock leaves the written value and STEP_LOST. -/
theorem windowStepsAndHeadWrites : Obligations.WindowStepsAndHeadWrites := by
  unfold Obligations.WindowStepsAndHeadWrites
  intro s c w hold hw hlen
  refine ⟨⟨_, exec_winStep_two_pow hold c hw, stepWin_head s hlen, rfl, stepWin_regsBut s c w⟩, fun v hc hv => ?_⟩
  refine ⟨_, exec_winHeadWrite hold c hw v true, ?_⟩
  rw [headWrite_of_step s hc hw hv]
  refine ⟨?_, event_hasEvent _ _ _ (by decide), shape_trans (wr_shape s _ _ _ _) (event_shape _ _ _ _)⟩
  rw [event_rd _ _ _ _ _ _ _ (winHead_key_ne_event c w), rd_wr_winHead s hv]

end Sys2Proof.Machine
